-- ==== Sys2Proof/Word.lean ====
section
/-! DEFINITION. The plain types the model is written over: bytes, words, and the sparse table in canonical form. -/

namespace Sys2Proof

/-- One byte as memory and wires carry it. -/
abbrev Byte := BitVec 8
/-- A 16-bit lane part (Q1.15 code, R106). -/
abbrev Half := BitVec 16
/-- A 32-bit lane, pointer or FP32 code. -/
abbrev Word32 := BitVec 32
/-- A 64-bit scalar (S0 to S15, R177). -/
abbrev Word64 := BitVec 64
/-- A vector register (V0 to V31, R177). -/
abbrev VecReg := BitVec 1024

/-- A sparse table: (key, value) pairs, keys strictly rising, no value equal to what an unlisted key reads as.
Operations are in Sys2Proof/Machine/Table.lean. -/
abbrev Table (α : Type) := List (Nat × α)

end Sys2Proof
end

