-- ==== Sys2Proof/Config.lean ====
section
/-! DEFINITION. What the spec leaves to outside standards or leaves open: uninterpreted functions (no body), and the
fixed numbers of the part. -/

namespace Sys2Proof.Config

/-! Free values (log entries 6, 10, 13): applied to State.free, a counter the step advances. -/

/-- The frequency correction that the servo holds after an update with the given offset, in 2⁻¹⁶ ppm (R35; log entry 6). -/
opaque servoFreq : Nat → Int → Int
/-- The temporary change for phase that it adds, in 2⁻¹⁶ ppm (R35 gives limits only; log entry 6). -/
opaque servoPhase : Nat → Int → Int

/-- What an MV accumulator holds that the task's previous MV pass did not use, by output position (R596; log entry 146). -/
opaque staleAcc : Nat → BitVec 32

/-! PTP settings that no object holds (R41; log entry 139). -/

/-- The clock identity of the device. -/
opaque clockIdentity : BitVec 64
/-- Clock class, accuracy and variance of the device's own clock. -/
opaque ptpClass : Nat
opaque ptpAccuracy : Nat
opaque ptpVariance : Nat
/-- Local priority of the receiver port, and of the device's own clock. -/
opaque ptpLocalPriority : Nat → Nat
opaque ptpOwnPriority : Nat
/-- A transmitter port sends two-step. -/
opaque ptpTwoStep : Nat → Bool
/-- The destination address of a port: one of the two of the profile. -/
opaque ptpForwardable : Nat → Bool
/-- A free byte: step, place (log entry 10). -/
opaque freeByte : Nat → Nat → BitVec 8
/-- A free byte string of the asked length: what an outside encoding (SCF 222 body, SPDM message, nonce) holds (log entry 10). -/
def freeBytes (k n : Nat) : List (BitVec 8) := (List.range n).map (freeByte k)
/-- The certificates of a derivation of the alias key (R569), whose encoding is the outside standard's: a first byte and the others
(log entry 10). -/
opaque certFirst : Nat → BitVec 8
/-- The other bytes. -/
opaque certRest : Nat → List (BitVec 8)
/-- The certificate chain, of 1 to 8,192 bytes (R569, R571; CERT_CHAIN is a block of 8 KiB). -/
def certChain (k : Nat) : List (BitVec 8) := certFirst k :: (certRest k).take 8191
/-- A free number: a value the spec leaves open at this step (log entry 10). -/
opaque freeNat : Nat → Nat
/-- A free bit vector value of 64 bits (log entry 10). -/
opaque freeWord : Nat → BitVec 64

/-! Outside standards (log entry 8): total functions no proof can look into. -/

/-- One byte of sha512: its arguments, place. -/
opaque sha512Byte : List (BitVec 8) → Nat → BitVec 8
/-- SHA-512 (64 bytes). -/
def sha512 (m : List (BitVec 8)) : List (BitVec 8) := (List.range 64).map (sha512Byte m)
/-- One byte of hmacSha512: its arguments, place. -/
opaque hmacSha512Byte : List (BitVec 8) → List (BitVec 8) → Nat → BitVec 8
/-- HMAC-SHA-512 (64 bytes): key, message. -/
def hmacSha512 (k m : List (BitVec 8)) : List (BitVec 8) := (List.range 64).map (hmacSha512Byte k m)
/-- Ed25519 verification (RFC 8032): key, message, signature. -/
opaque ed25519Verify : List (BitVec 8) → List (BitVec 8) → List (BitVec 8) → Bool
/-- SERIAL in a debug token of 192 bytes, whose layout is open (R575). -/
opaque tokenSerial : List (BitVec 8) → List (BitVec 8)
/-- BOOT_COUNT in a debug token. -/
opaque tokenBootCount : List (BitVec 8) → Nat
/-- The vendor's signature in a debug token. -/
opaque tokenVendorSig : List (BitVec 8) → List (BitVec 8)
/-- The owner's signature in a debug token. -/
opaque tokenOwnerSig : List (BitVec 8) → List (BitVec 8)
/-- Whether the HMAC of an SPDM FINISH request verifies: the free counter, the request's bytes (R571). -/
opaque spdmFinishOk : Nat → List (BitVec 8) → Bool
/-- One byte of ed25519Sign: its arguments, place. -/
opaque ed25519SignByte : List (BitVec 8) → List (BitVec 8) → Nat → BitVec 8
/-- Ed25519 signature (64 bytes) by a private seed: seed, message. -/
def ed25519Sign (k m : List (BitVec 8)) : List (BitVec 8) := (List.range 64).map (ed25519SignByte k m)
/-- One byte of ed25519Public: its arguments, place. -/
opaque ed25519PublicByte : List (BitVec 8) → Nat → BitVec 8
/-- Ed25519 public key (32 bytes) of a private seed. -/
def ed25519Public (k : List (BitVec 8)) : List (BitVec 8) := (List.range 32).map (ed25519PublicByte k)
/-- One byte of x25519: its arguments, place. -/
opaque x25519Byte : List (BitVec 8) → List (BitVec 8) → Nat → BitVec 8
/-- X25519 shared secret (32 bytes, RFC 7748): own seed, peer public. -/
def x25519 (k m : List (BitVec 8)) : List (BitVec 8) := (List.range 32).map (x25519Byte k m)
/-- CRC-32 with the IEEE 802.3 polynomial over bits [2047:64] of a flit (R378). -/
opaque crc32 : List (BitVec 8) → BitVec 32

/-- Burst of the PTP policer in frames, which the spec does not give (R350; log entry 51). -/
opaque ptpBurst : Nat

/-! 3GPP tables and coders (log entry 9). -/

/-- Columns of each lifted parity row in ascending base-graph row order: base graph, lifting size, rows used. -/
opaque ldpcRows : Nat → Nat → Nat → List (List Nat)
/-- Systematic bits that are punctured before the circular buffer (R268): base graph, lifting size. -/
opaque ldpcPunctured : Nat → Nat → Nat
/-- LDPC encoding of a code block: base graph, lifting size, bits. -/
opaque ldpcEncode : Nat → Nat → List Bool → List Bool
/-- Whether a decoded block passes its CB CRC. -/
opaque cbCrcOk : List Bool → Bool
/-- Bits of a code block of a PDSCH, its CRCs and fillers included (R264): the PDU's code blocks, its transport blocks, index. -/
opaque codeBlock : List (Nat × Nat × Nat) → List (List (BitVec 8)) → Nat → List Bool
/-- The transport block that the decoded code blocks of a PUSCH make, without its CRCs (R291): the PDU's code blocks, their bits by index,
length in bytes. -/
opaque transportBlock : List (Nat × Nat × Nat) → List (List Bool) → Nat → List (BitVec 8)
/-- Whether that transport block passes its CRC. -/
opaque tbCrcOk : List (Nat × Nat × Nat) → List (List Bool) → Bool
/-- Polar encoding of a PDCCH block. -/
opaque polarEncode : Nat → List Bool → List Bool
/-- CRC-aided list-8 polar decoding of LLRs: information length, LLRs; none when no path passes its CRC. -/
opaque polarDecode : Nat → List Int → Option (List Bool)
/-- Maximum transmission bandwidth configuration n_rb of TS 38.101: MHz, numerology (R344). -/
opaque maxRb : Nat → Nat → Nat

/-- Whether a slot of a cell has a downlink symbol in its TDD pattern, which no object of the spec holds (R282; log entry 33):
cell, slots since the epoch. -/
opaque tddDownlink : Nat → Nat → Bool
/-- Whether it has an uplink symbol. -/
opaque tddUplink : Nat → Nat → Bool

/-! Facts fixed at manufacture, in fuses or by the ROM (log entry 14). -/

/-- A character of SERIAL by place: 0 to 9 the digits, 10 to 35 the letters A to Z (R597). -/
opaque serialChar : Nat → Fin 36
/-- SERIAL, 16 bytes of printable text (R597). -/
def serial : List (BitVec 8) := (List.range 16).map (fun i => BitVec.ofNat 8 (if (serialChar i).val < 10 then 0x30 + (serialChar i).val else 0x37 + (serialChar i).val))
/-- A byte of the vendor root key hash in fuses, by place (R563). -/
opaque vendorKeyHashByte : Nat → BitVec 8
/-- The vendor root key hash, 64 bytes (R563). -/
def vendorKeyHash : List (BitVec 8) := (List.range 64).map vendorKeyHashByte
/-- The unique device secret (R569). -/
opaque uds : List (BitVec 8)
/-- The mask ROM (R569). -/
opaque romImage : List (BitVec 8)
/-- SILICON_REV (R478, R592). -/
def siliconRev : Nat := 0xA1

/-- MG_MAC from fuses (R597). -/
opaque mgMacBits : BitVec 48
/-- MG_MAC. -/
def mgMac : Nat := mgMacBits.toNat
/-- The ATS translation of a host virtual address in an address space, none when the host gives none (R458). -/
opaque atsTranslate : Nat → Nat → Option Nat

/-! Numbers of the part. -/

/-- Clusters of the chip (R8). -/
def clusters : Nat := 8
/-- Tile positions (R9). -/
def tilePositions : Nat := 512
/-- Nanoseconds in a launch quantum (glossary). -/
def quantumNs : Nat := 50
/-- Nominal keeping-clock ticks in one second (156.25 MHz, R510). -/
def ticksPerSecond : Nat := 156250000

end Sys2Proof.Config
end

