-- ==== Sys2Proof/Syntax.lean ====
section
/-! DEFINITION. The commands of the block: one constructor of Instr per row of spec/opcode_table.json, with the
operands the rule of the row gives it, and the operand types. -/

set_option linter.unusedVariables false

namespace Sys2Proof

/-- An HDP datagram of a session (R483): session, SEQ, the sender's address and port as one number, the header and data as
they are covered by the tag, and the tag. -/
structure HdpFrame where
  session : Nat
  seq : Nat
  source : Nat
  body : List Byte
  tag : List Byte
deriving DecidableEq, Repr

/-- Who makes a dictionary access (R464): the PF0 window, a VF window, or an HDP session with its frame. -/
inductive Accessor where
  | pf0
  | vf (n : Nat)
  | hdp (h : HdpFrame)
deriving DecidableEq, Repr

/-- The data of a dictionary write (R461): a number of a fixed-size type, with the size in bytes that the write carries,
or the bytes of a STR or DOMAIN. -/
inductive WData where
  | num (size : Nat) (v : Int)
  | bytes (bs : List Byte)
deriving DecidableEq, Repr

/-- A dictionary write (R467): who writes, the data, the named LNC if any, and whether a commit to the persistent store
verifies (R474). -/
structure Wr where
  acc : Accessor
  data : WData
  lnc : Option Nat := none
  commitOk : Bool := true
deriving DecidableEq, Repr

/-- The common fields of a descriptor (R441), the ring it was fetched from and the index of its slot. -/
structure Desc where
  func : Nat
  ring : Nat
  index : Nat := 0
  /-- LNC of its fetch (R437). -/
  fetched : Nat := 0
  /-- CLASS: 0 TEMPO, 1 BE. -/
  klass : Nat
  quiet : Bool
  urgent : Bool
  context : Nat
  seq : Nat
  /-- LNC, low 32 bits. -/
  lnc : Nat
  /-- DEADLINE, low 32 bits. -/
  deadline : Nat
deriving DecidableEq, Repr

/-- A wait or signal entry (R413). -/
structure SyncEntry where
  op : Nat
  fence : Bool
  vid : Nat
  count : Nat
deriving DecidableEq, Repr

/-- The body of a TASK (R443), with the argument block of each rank as the device reads it at ARG_ADDR. -/
structure TaskBody where
  kernel : Nat
  entry : Nat
  partition : Nat
  vfirst : Nat
  vcount : Nat
  stateBytes : Nat
  wait0 : SyncEntry
  wait1 : SyncEntry
  signal0 : SyncEntry
  signal1 : SyncEntry
  argAddr : Nat
  /-- Eight 64-bit arguments per rank. -/
  args : List (List Nat)
deriving DecidableEq, Repr

/-- The body of an INVOKE (R239, R442). `io` is the I/O table as the device reads it: address and length of each entry. -/
structure InvokeBody where
  slot : Nat
  batch : Nat
  handle : Nat
  io : List (Nat × Nat)
deriving DecidableEq, Repr

/-- A tensor of 32-bit elements in one tile's SRAM: virtual tile, byte address, element count. -/
structure Tensor where
  tile : Nat
  addr : Nat
  count : Nat
deriving DecidableEq, Repr

/-- A tensor of an elementwise operation: virtual tile, byte address, format code (R170). -/
structure ETensor where
  tile : Nat
  addr : Nat
  fmt : Nat
deriving DecidableEq, Repr

/-- Where an expert takes its input rows (R255): a virtual tile and address of this chip, or a device virtual address of another
one and the virtual ID of the expert's sync object. -/
structure GateInput where
  remote : Bool
  tile : Nat
  addr : Nat
  vid : Nat
deriving DecidableEq, Repr

/-- What a GATE node names (R253 to R255): experts, choices, capacity factor in 16.16, token count of the node, overflow policy (0 DROP,
1 REROUTE, 2 ARRIVAL); the gate units that feed an expert and this unit's place among them; the tokens of this unit, their scores as
FP32 rows in expert order; where the result goes; the tokens' activation rows and the inputs of the experts; the experts' output rows,
FP32, one for each input row in its order, the nodes that write them, and where the tokens' outputs go. -/
structure GateNode where
  experts : Nat
  choices : Nat
  factor : Nat
  total : Nat
  policy : Nat
  gateUnits : Nat
  gateRank : Nat
  tokens : Nat
  tile : Nat
  scoreAddr : Nat
  outAddr : Nat
  rowTile : Nat
  rowAddr : Nat
  rowBytes : Nat
  inputs : List GateInput
  sumAfter : List Nat
  sumRows : List (Nat × Nat)
  sumCount : Nat
  sumTile : Nat
  sumAddr : Nat
deriving DecidableEq, Repr

/-- A weight wave of a node (R245): a run of the WEIGHTS section, destination (0 B half, 1 MV weights, 2 tile SRAM), address in SRAM,
mask of virtual tiles. -/
structure Wave where
  offset : Nat
  length : Nat
  dest : Nat
  addr : Nat
  vtiles : List Nat
deriving DecidableEq, Repr

/-- What the OPERANDS of a node give its family (R205, R223): pass descriptors by virtual tile (R215); the stages of a DFT, each with its
descriptor and whether the vector sequencer runs it; an elementwise operation; rows of a tensor with gain, bias and eps; a tensor to
quantise: row length, format, where codes and scales go, scale pitch; a reduction: its result, whether it is INT32, and where the
partial of each rank of this chip lies; a gate; move commands by virtual tile (R218); an ATOMIC list (R386). -/
inductive NodeOp where
  | control
  | passes (descs : List (Nat × List Byte))
  | dft (vt : Nat) (stages : List (List Byte × Bool))
  | element (count : Nat) (a b out : ETensor)
  | rows (x y gain beta : Tensor) (row : Nat) (eps : Word32)
  | quant (x : Tensor) (row fmt outAddr scaleAddr scalePitch : Nat)
  | reduce (out : Tensor) (int : Bool) (ranks : Nat) (sources : List (Nat × Nat × Nat))
  | gate (g : GateNode)
  | moves (cmds : List (Nat × List (List Byte)))
  | atomic (vt addr count : Nat)
deriving DecidableEq, Repr

/-- What the bodies whose layout the spec does not give say of a node (R221, R223, R225, R242, R245, R250, R257; log entry 147): its
operands; arrangement and split count S; initial service time in ns and checkpoint number (0 none); whether it writes its state area
and is borrowable; where its predicate word lies; the BRANCH node whose subgraph holds it, plus 1, and that subgraph's first node; its
waves in the order of consumption. -/
structure NodePlan where
  op : NodeOp := .control
  arrange : Nat := 0
  split : Nat := 1
  serviceNs : Nat := 0
  checkpoint : Nat := 0
  writesState : Bool := false
  borrowable : Bool := false
  predVtile : Nat := 0
  predAddr : Nat := 0
  under : Nat := 0
  entry : Nat := 0
  waves : List Wave := []
deriving DecidableEq, Repr

/-- An input or output that a KGF declares (R239): its length, which of the two, and where it lies in tile SRAM. -/
structure IoDecl where
  length : Nat
  output : Bool
  vtile : Nat
  addr : Nat
deriving DecidableEq, Repr

/-- What a container says beyond the maps of R220 to R223: its nodes in GRAPH order; working, pinned and state area of each virtual tile
(R242), the offset of its pinned tensors in WEIGHTS; its inputs and outputs (log entry 147). -/
structure KgfPlan where
  nodes : List NodePlan := []
  areas : List (Nat × Nat × Nat) := []
  pins : List Nat := []
  ios : List IoDecl := []
deriving DecidableEq, Repr, Inhabited

/-- A node of a loaded graph (R223): its record, and what the other sections say of it. -/
structure NodeRec extends NodePlan where
  family : Nat
  arrival : Bool := false
  prefetchBoth : Bool := false
  function : Nat := 0
  pred : Nat := 0xFFFFFFFF
  trueNext : Nat := 0
  falseNext : Nat := 0
deriving DecidableEq, Repr

/-- A PDU as read from the list of a slot order (R283 to R286). `tbs` gives the transport block size of each codeword; `coding`, per code
block: base graph, Zc, h. -/
structure Pdu where
  type : Nat
  size : Nat
  handle : Nat
  tbs : List Nat
  coding : List (Nat × Nat × Nat)
  maxIter : Nat
  precMode : Nat
  cbType : Nat
  srsRef : Nat
  pmiLength : Nat
  pmiAddr : Nat
  spill : Nat
  llrExport : Bool
  newData : Bool
  harq : Nat
  supported : Bool
  fieldsOk : Bool
  /-- Bits of each DCI of a PDCCH PDU (R269). -/
  dcis : List (List Bool) := []
deriving DecidableEq, Repr

/-- A TX_DATA entry (R287). -/
structure TxEntry where
  handle : Nat
  cw : Nat
  length : Nat
  addr : Nat
deriving DecidableEq, Repr

/-- A slot order (R281) with the bytes that the device reads at LIST_ADDR. -/
structure OrderBody where
  orderType : Nat
  cell : Nat
  sfn : Nat
  hsfn : Nat
  slot : Nat
  resultRing : Nat
  pduCount : Nat
  orderSeq : Nat
  listLength : Nat
  listAddr : Nat
  resultAddr : Nat
  resultLength : Nat
  list : List Byte
deriving DecidableEq, Repr

/-- A FRAME_TX body (R444) with the frame's bytes as the device reads them. -/
structure FrameTxBody where
  port : Nat
  queue : Nat
  tsReq : Bool
  length : Nat
  bufAddr : Nat := 0
  content : List Byte := []
deriving DecidableEq, Repr

/-- A MAP body (R442, R594). -/
structure MapBody where
  kind : Nat
  read : Bool
  write : Bool
  vtile : Nat
  page : Nat
  partition : Nat
  count : Nat
  va : Nat
deriving DecidableEq, Repr

/-- A sync descriptor body (R418). -/
structure SyncBody where
  kind : Nat
  hold : Bool
  fence : Bool
  vid : Nat
  jobEntry : Nat
  value : Nat
  remoteRank : Nat
  remoteVid : Nat
deriving DecidableEq, Repr

/-- A V-class instruction's fields (R187). -/
structure VFields where
  lmode : Nat
  conj : Bool
  vd : Nat
  va : Nat
  vb : Nat
  vc : Nat
  shift : Nat
  imm16 : Nat
  rsvd : Nat := 0
deriving DecidableEq, Repr

/-- An A-class instruction's fields (R187). -/
structure AFields where
  lmode : Nat
  conj : Bool
  ad : Nat
  as : Nat
  va : Nat
  vb : Nat
  vd : Nat
  shift : Nat
  rsvd : Nat := 0
deriving DecidableEq, Repr

/-- An M-class instruction's fields (R187). -/
structure MFields where
  pk : Nat
  amode : Nat
  nomod : Bool
  rd : Nat
  imm32 : Nat
  rsvd : Nat := 0
deriving DecidableEq, Repr

/-- A C-class instruction's fields (R187). -/
structure CFields where
  sd : Nat
  sa : Nat
  sb : Nat
  yield : Bool
  body : Nat
  imm32 : Nat
  rsvd : Nat := 0
deriving DecidableEq, Repr

/-- An X-class instruction's fields (R187). -/
structure XFields where
  pk : Nat
  sync : Nat
  chmask : Nat
  imm32 : Nat
  rsvd : Nat := 0
deriving DecidableEq, Repr

/-- An LDPC code block to decode (R267, R268): slot and PDU it belongs to, its index, base graph, lifting size, h of R270, HARQ
process, whether new data is set, MAX_ITER, received LLRs by bit position of the circular buffer, the positions of filler bits. -/
structure CodeBlock where
  slot : Nat
  pdu : Nat
  index : Nat
  graph : Nat
  zc : Nat
  h : Nat
  harq : Nat
  newData : Bool
  maxIter : Nat
  llrs : List Int
  fillers : List Nat
deriving DecidableEq, Repr

/-- What an eCPRI frame carries beside its type (R331 to R341); `timeNs` is the timestamp of a delay measurement message in ns, its
compensation value applied (R334). -/
structure Ecpri where
  revision : Nat
  cBit : Bool
  mtype : Nat
  eaxc : Nat
  seqid : Nat
  eBit : Bool
  action : Nat
  timeNs : Nat
  payloadVersion : Nat
  filterIndex : Nat
  rb : Nat
  symInc : Nat
  method : Nat
  width : Nat
  hdrMode : Bool
  slotAir : Nat
  symbol : Nat
  startPrb : Nat
  payload : List Byte
deriving DecidableEq, Repr

/-- What an Announce says of its grandmaster, as the best master clock algorithm of G.8275.1 compares it (R41; log entry 139). -/
structure PtpRank where
  clockClass : Nat := 0
  accuracy : Nat := 0
  variance : Nat := 0
  priority2 : Nat := 128
  gm : Nat := 0
  steps : Nat := 0
deriving DecidableEq, Repr

/-- A PTP message (R41, R46; log entry 139): 0 Sync, 1 Announce, 2 Delay_Resp, 3 Delay_Req, 4 Follow_Up. -/
structure PtpMsg where
  kind : Nat
  domain : Nat := 24
  /-- Port identity of the sender. -/
  source : Nat := 0
  seq : Nat := 0
  twoStep : Bool := false
  /-- Origin time with the correction added, in ns: of Sync, Follow_Up and Delay_Resp. -/
  timeNs : Nat := 0
  /-- Port identity that a Delay_Resp answers. -/
  target : Nat := 0
  rank : PtpRank := {}
deriving DecidableEq, Repr

/-- A received Ethernet frame (R329, R331). -/
structure RxFrame where
  length : Nat
  fcsOk : Bool
  flowControl : Bool
  tags : Nat
  vlan : Nat
  dst : Nat
  etherType : Nat
  ecpri : Option Ecpri
  ptp : Option PtpMsg
  content : List Byte := []
deriving DecidableEq, Repr

/-- A fabric packet (R388) with its data or operand block. `target` is the context's number at the home once translated
by the job entry. -/
structure Packet where
  opcode : Nat
  vc : Nat
  ncro : Bool
  src : Nat
  dst : Nat
  job : Nat
  len : Nat
  retry : Bool
  tag : Nat
  offset : Nat
  w64 : Bool
  noret : Bool
  operand : Nat
  compare : Nat
  data : List Byte
deriving DecidableEq, Repr

/-- A ZFL flit (R378) with the packets that end in it. -/
structure Flit where
  seq : Nat
  ack : Nat
  nak : Bool
  cvc : Nat
  credits : Nat
  crcOk : Bool
  packets : List Packet
deriving DecidableEq, Repr

/-- An entry of an ATOMIC node's list (R386). -/
structure AtomicEntry where
  op : Nat
  w64 : Bool
  noret : Bool
  va : Nat
  operand : Nat
  compare : Nat
deriving DecidableEq, Repr

/-- A firmware image of a bundle (R562): the fields of its header, and the image digest. -/
structure FwImage where
  magic : Nat
  type : Nat
  ownerSigned : Bool
  svn : Nat
  version : Nat
  minCompat : Nat
  ownerSlot : Nat
  vendorKey : List Byte
  vendorSig : List Byte
  ownerSig : List Byte
  digest : List Byte
deriving DecidableEq, Repr

/-- An OWNER_CMD (R567): its fields, the digest of bytes 0 to 63 and the signature over it. -/
structure OwnerCmd where
  op : Nat
  slot : Nat
  signer : Nat
  nonce : Nat
  serial : List Byte
  newKey : List Byte
  digest : List Byte
  signature : List Byte
deriving DecidableEq, Repr

/-- Who sends an SPDM request (R572): a DOE of a function, an HDP session, or the PF0 window. -/
inductive SpdmChannel where
  | doe (func : Nat)
  | hdp (session : Nat)
  | window
deriving DecidableEq, Repr

/-- The header of a ring as one 64-byte read returns it (R436). -/
structure RingHeader where
  prod : Nat
  cons : Nat
  fetchAt : Nat
  fetchReq : Nat
deriving DecidableEq, Repr


/-- The commands of the block, one per row of the opcode table. Operands: log entry 1. -/
inductive Instr where
  /-- REGISTER_WRITE (R467): A dictionary write to an object with no row of its own is checked in order and applied or refused. -/
  | registerWrite (w : Wr) (index sub : Nat)
  /-- PENDING_WRITE_APPLY (R469): A dictionary write pending at a named LNC, or at the next quantum after acknowledgement, takes effect. -/
  | pendingWriteApply (key : Nat)
  /-- STC_NOW_READ (R28): A read of the current time latches the fraction and the LNC from the same keeping-clock tick. -/
  | stcNowRead (acc : Accessor)
  /-- INCREMENT_WRITE (R29): An increment register write within range takes effect at the next tick, or is refused while the servo owns the register. -/
  | incrementWrite (w : Wr)
  /-- TIME_SOURCE_WRITE (R31): Selecting a time source moves the time state to ACQUIRING or FREERUN. -/
  | timeSourceWrite (w : Wr)
  /-- STEP_REQUEST (R34): A requested STC step is applied at a tick boundary, or refused while cells or tempo tasks are active or before the epoch. -/
  | stepRequest (w : Wr)
  /-- PPS_TOD_WRITE (R593): Names the TIME80 that the next PPS_IN edge carries. -/
  | ppsTodWrite (w : Wr)
  /-- PPS_IN_EDGE (R593): A rising PPS_IN edge gives one offset update to the servo and, with capture enabled, is timestamped. -/
  | ppsInEdge (rising : Bool)
  /-- PTP_MESSAGE_TX (R41): The boundary clock sends its periodic PTP messages on its time-transmitter ports. -/
  | ptpMessageTx (port kind : Nat)
  /-- BENCH_SYNC_RX (R46): A PTP message over UDP on the management field port gives one bench-grade offset update. -/
  | benchSyncRx (m : PtpMsg)
  /-- SOURCE_LOSS_TIMEOUT (R32): An announce, Sync, PPS or time-word timeout declares the source lost, moving the time state to HOLDOVER or FREERUN. -/
  | sourceLossTimeout
  /-- TIME_WORD (R47): A received fabric time word updates the link delay and, for a ZFL source, the servo. -/
  | timeWord (link peerTime : Nat) (echo : Option Int)
  /-- TIME_WORD_TX (R47): Every 4,096 keeping-clock ticks each ZFL link sends a time word. -/
  | timeWordTx (link : Nat)
  /-- STC_COPY_RELOAD (R48): A copy found beyond ±2 ns raises a corrected error and is reloaded by the master at the next tick. -/
  | stcCopyReload (copy : Nat) (offsetPs : Int)
  /-- TT_ARM_WRITE (R55): Arms a time output to its first pulse time, or refuses a past single pulse; writing 0 stops it. -/
  | ttArmWrite (w : Wr) (n : Nat)
  /-- TT_PULSE (R54): A time output emits a pulse at its programmed STC time and counts it. -/
  | ttPulse (n : Nat)
  /-- CAPTURE_EDGE (R56): An edge on a capture input is timestamped into its 16-entry queue, or discarded with overflow set. -/
  | captureEdge (n : Nat) (rising : Bool)
  /-- TC_POP_READ (R57): Reading TC_POP returns and removes the oldest capture. -/
  | tcPopRead (acc : Accessor) (n : Nat)
  /-- TASK_LAUNCH (R49): A registered launch reaches its target LNC and its task starts its first tile cycle. -/
  | taskLaunch (task : Nat)
  /-- WAKE_LEAD_START (R58): At the target less the wake lead, the launch unit starts the target tile and PLL clocks. -/
  | wakeLeadStart (task : Nat)
  /-- CLOCKS_READY (R60): A launch registered with too short a lead starts when its clocks are ready and reports its start delay. -/
  | clocksReady (task : Nat)
  /-- PLL_STOP (R59): A cluster PLL with no launch within its horizon and no radio or tempo tile is stopped. -/
  | pllStop (cluster : Nat)
  /-- TILE_SLEEP_ENTRY (R174): An idle tile with no live state enters T2, T3 or T4 when its next launch lies far enough ahead. -/
  | tileSleepEntry (tile depth : Nat)
  /-- TILE_WAKE_COMPLETE (R176): A tile finishes waking; from T4 its SRAM reads zero. -/
  | tileWakeComplete (tile : Nat)
  /-- RADIO_LAUNCH_REGISTER (R92): A radio launch is booked into a stagger window at registration, adjusting its target if its own window is full. -/
  | radioLaunchRegister (task : Nat)
  /-- STAGGER_WINDOW (R93): A 200 ns stagger window begins and admits up to 128 tile starts in the order of R16. -/
  | staggerWindow
  /-- RESIZE_TILES_WRITE (R67): Records the requested size of a tempo inference partition, or is refused NOT_RESIZABLE. -/
  | resizeTilesWrite (w : Wr) (p : Nat)
  /-- RESIZE_LNC_WRITE (R67): Requests a resize at the named LNC, which is accepted as PENDING or refused with a resize reason. -/
  | resizeLncWrite (w : Wr) (p : Nat)
  /-- RESIZE_EVICTION (R70): At the eviction point, BE contexts with pages on leaving pool tiles are preempted and their pages saved to GDDR7. -/
  | resizeEviction (p : Nat)
  /-- RESIZE_TILES_LEAVE (R70): At L_r − 2,400 the leaving tiles leave the old partition and are zeroised. -/
  | resizeTilesLeave (p : Nat)
  /-- RESIZE_APPLY (R70): At L_r the tiles join the new partition, slots change between READY and STALE, and RESIZE_STATUS reads DONE. -/
  | resizeApply (p : Nat)
  /-- PREEMPTION_REQUEST (R76): PREEMPT_LEAD before a radio launch, the borrower on that tile receives a preemption request. -/
  | preemptionRequest (tile : Nat)
  /-- PREEMPTION_POINT_TAKEN (R195): At the next preemption point the VS saves its live state and stops its passes and moves. -/
  | preemptionPointTaken (tile : Nat)
  /-- SWITCH_COMPLETE (R77): The borrower's save completes and the tile is idle. -/
  | switchComplete (tile : Nat)
  /-- BORROWER_SAVE_OVERRUN (R79): A borrower not saved one quantum before a radio launch has its live state discarded and restarts from its beginning. -/
  | borrowerSaveOverrun (tile : Nat)
  /-- BORROWER_RESTORE (R78): With enough gap to the next radio launch, a saved borrower is restored onto its idle radio tile. -/
  | borrowerRestore (tile : Nat)
  /-- BORROWER_PLACE (R75): The pool scheduler places a BE task that qualifies as a borrower on an idle radio tile. -/
  | borrowerPlace (task tile : Nat)
  /-- LOAN_WINDOW_RESIZE (R73): A new loan-window size applies on a tile once it holds no borrower. -/
  | loanWindowResize (tile : Nat)
  /-- BE_SLICE_END (R88): At a slice end the pool scheduler runs the ready context with the lowest charged-to-weight ratio. -/
  | beSliceEnd (tile : Nat)
  /-- BE_REQUEST_EXPIRED (R96): A BE request not started within BE_MAX_WAIT is removed and completed EXPIRED. -/
  | beRequestExpired (task : Nat)
  /-- SNAP_REQUEST (R102): Requests a counter snapshot at a future LNC, or is refused. -/
  | snapRequest (w : Wr) (f : Nat)
  /-- SNAPSHOT_CAPTURE (R103): At the requested LNC all counters of the function are captured into a signed snapshot record. -/
  | snapshotCapture (f : Nat)
  /-- SNAP_READ (R105): Reading SNAP_READ returns and removes the oldest snapshot record. -/
  | snapRead (acc : Accessor) (f : Nat)
  /-- DETERMINISM_MODE_WRITE (R229): Changes the determinism mode, or is refused MODE_BUSY while contexts or tenant kernels exist. -/
  | determinismModeWrite (w : Wr)
  /-- NOP (R188): VS instruction with no effect. -/
  | nop (tile : Nat) (f : VFields)
  /-- VADD (R188): VS lane addition narrowed with SHIFT, or FP32 addition. -/
  | vadd (tile : Nat) (f : VFields)
  /-- VSUB (R188): VS lane subtraction narrowed with SHIFT, or FP32 subtraction. -/
  | vsub (tile : Nat) (f : VFields)
  /-- VMUL (R188): VS lane product narrowed, or FP32 product. -/
  | vmul (tile : Nat) (f : VFields)
  /-- VROTJ (R188): VS complex rotation by a power of j. -/
  | vrotj (tile : Nat) (f : VFields)
  /-- VSHR (R188): VS arithmetic right shift by SHIFT. -/
  | vshr (tile : Nat) (f : VFields)
  /-- VSHRS (R188): VS arithmetic right shift by a scalar register. -/
  | vshrs (tile : Nat) (f : VFields)
  /-- VSHL (R188): VS saturating left shift. -/
  | vshl (tile : Nat) (f : VFields)
  /-- VMAX (R188): VS per-element maximum. -/
  | vmax (tile : Nat) (f : VFields)
  /-- VMIN (R188): VS per-element minimum. -/
  | vmin (tile : Nat) (f : VFields)
  /-- VMAG2 (R188): VS squared magnitude of complex lanes. -/
  | vmag2 (tile : Nat) (f : VFields)
  /-- VSEL (R188): VS lane select by a scalar mask. -/
  | vsel (tile : Nat) (f : VFields)
  /-- VPERM (R188): VS lane permutation over two registers. -/
  | vperm (tile : Nat) (f : VFields)
  /-- VBCAST (R188): VS broadcast of a scalar to every lane. -/
  | vbcast (tile : Nat) (f : VFields)
  /-- VBEXP (R200): VS block-exponent detection of the minimum redundant sign count over a register group. -/
  | vbexp (tile : Nat) (f : VFields)
  /-- VBSCL (R200): VS computation of the stage shift max(0, guard − r). -/
  | vbscl (tile : Nat) (f : VFields)
  /-- VCMPGT (R188): VS element comparison into a scalar mask. -/
  | vcmpgt (tile : Nat) (f : VFields)
  /-- VTOF (R188): VS conversion of complex lanes to FP32 values. -/
  | vtof (tile : Nat) (f : VFields)
  /-- VTOI (R188): VS conversion of FP32 values to complex lanes with narrowing. -/
  | vtoi (tile : Nat) (f : VFields)
  /-- ACLR (R188): VS accumulator clear. -/
  | aclr (tile : Nat) (f : AFields)
  /-- ALOAD (R188): VS accumulator load from a vector register. -/
  | aload (tile : Nat) (f : AFields)
  /-- AMUL (R182): VS accumulator set to a lane product. -/
  | amul (tile : Nat) (f : AFields)
  /-- AMAC (R182): VS saturating multiply-accumulate. -/
  | amac (tile : Nat) (f : AFields)
  /-- AMSU (R182): VS saturating multiply-subtract. -/
  | amsu (tile : Nat) (f : AFields)
  /-- AADD (R182): VS accumulator addition. -/
  | aadd (tile : Nat) (f : AFields)
  /-- ASUM (R188): VS sum of all lanes of an accumulator in ascending lane order. -/
  | asum (tile : Nat) (f : AFields)
  /-- ANRW (R127): VS narrowing of an accumulator into a vector register. -/
  | anrw (tile : Nat) (f : AFields)
  /-- VLD (R183): VS 128-byte vector load in the named address mode. -/
  | vld (tile : Nat) (f : MFields)
  /-- VST (R183): VS 128-byte vector store in the named address mode. -/
  | vst (tile : Nat) (f : MFields)
  /-- SLD (R183): VS 8-byte scalar load. -/
  | sld (tile : Nat) (f : MFields)
  /-- SST (R183): VS 8-byte scalar store. -/
  | sst (tile : Nat) (f : MFields)
  /-- SLI (R188): VS scalar load of a sign-extended immediate. -/
  | sli (tile : Nat) (f : MFields)
  /-- SLIH (R188): VS load of the high half of a scalar. -/
  | slih (tile : Nat) (f : MFields)
  /-- ASET (R188): VS write of an address register from a scalar. -/
  | aset (tile : Nat) (f : MFields)
  /-- AGET (R188): VS read of an address register into a scalar. -/
  | aget (tile : Nat) (f : MFields)
  /-- PADDI (R188): VS pointer increment by an immediate. -/
  | paddi (tile : Nat) (f : MFields)
  /-- BR (R192): VS unconditional branch with two delay slots. -/
  | br (tile : Nat) (f : CFields)
  /-- BEQZ (R192): VS branch if a scalar is zero. -/
  | beqz (tile : Nat) (f : CFields)
  /-- BNEZ (R192): VS branch if a scalar is nonzero. -/
  | bnez (tile : Nat) (f : CFields)
  /-- BLTZ (R192): VS branch if a scalar is negative. -/
  | bltz (tile : Nat) (f : CFields)
  /-- JAL (R192): VS jump and link. -/
  | jal (tile : Nat) (f : CFields)
  /-- JR (R598): VS jump to a register target, faulting if the target lies outside the code. -/
  | jr (tile : Nat) (f : CFields)
  /-- REPEAT (R193): VS zero-overhead repeat of a body an immediate number of times. -/
  | vsRepeat (tile : Nat) (f : CFields)
  /-- REPEATS (R193): VS zero-overhead repeat with a count from a scalar. -/
  | repeats (tile : Nat) (f : CFields)
  /-- SADD (R188): VS scalar addition. -/
  | sadd (tile : Nat) (f : CFields)
  /-- SSUB (R188): VS scalar subtraction. -/
  | ssub (tile : Nat) (f : CFields)
  /-- SMUL (R188): VS scalar multiplication. -/
  | smul (tile : Nat) (f : CFields)
  /-- SAND (R188): VS scalar AND. -/
  | sand (tile : Nat) (f : CFields)
  /-- SOR (R188): VS scalar OR. -/
  | sor (tile : Nat) (f : CFields)
  /-- SXOR (R188): VS scalar XOR. -/
  | sxor (tile : Nat) (f : CFields)
  /-- SSHL (R188): VS scalar left shift. -/
  | sshl (tile : Nat) (f : CFields)
  /-- SSRA (R188): VS scalar arithmetic right shift. -/
  | ssra (tile : Nat) (f : CFields)
  /-- SSLT (R188): VS signed scalar set-less-than. -/
  | sslt (tile : Nat) (f : CFields)
  /-- SADDI (R188): VS scalar addition of an immediate. -/
  | saddi (tile : Nat) (f : CFields)
  /-- RDFLG (R188): VS read of the sticky numeric flags. -/
  | rdflg (tile : Nat) (f : CFields)
  /-- RDLNC (R188): VS read of the present LNC. -/
  | rdlnc (tile : Nat) (f : CFields)
  /-- RDCYC (R188): VS read of the tile cycle counter. -/
  | rdcyc (tile : Nat) (f : CFields)
  /-- HALT (R188): VS end of task once all issued X operations are complete. -/
  | halt (tile : Nat) (f : CFields)
  /-- XPASS (R189): VS start of a cube pass from a descriptor checked under R217. -/
  | xpass (tile : Nat) (f : XFields)
  /-- XMV (R189): VS start of an MV pass from a descriptor. -/
  | xmv (tile : Nat) (f : XFields)
  /-- XMOVE (R189): VS queueing of a move command to the move unit. -/
  | xmove (tile : Nat) (f : XFields)
  /-- XWAIT (R188): VS wait until the named local sync channels are signalled, then clear them. -/
  | xwait (tile : Nat) (f : XFields)
  /-- X_ISSUE_ACCEPTED (R190): A stalled X instruction is accepted once its unit or queue has room. -/
  | xIssueAccepted (tile : Nat)
  /-- PREEMPT_BOUND (R197): A borrowable task whose count since its last preemption point would exceed 256 cycles faults. -/
  | preemptBound (tile cycles : Nat)
  /-- PASS_COMPLETE (R189): A cube pass completes, writes back under WB and signals its local sync channel. -/
  | passComplete (tile : Nat)
  /-- MV_PASS_COMPLETE (R189): An MV pass completes and signals its local sync channel. -/
  | mvPassComplete (tile : Nat)
  /-- COPY (R168): Move-unit mode that copies bytes unchanged. -/
  | copy (tile : Nat) (arrived : List Byte)
  /-- ZERO (R168): Move-unit mode that writes zeros with valid check bits to a tile-local range. -/
  | zero (tile : Nat)
  /-- NORMALISE (R171): Move-unit mode that shifts each CI16 group left by its redundant sign bits and updates its header. -/
  | normalise (tile : Nat) (arrived : List Byte)
  /-- UNPACK_BFP (R132): Move-unit mode that unpacks BFP wire blocks into CI16 groups with headers. -/
  | unpackBfp (tile : Nat) (arrived : List Byte)
  /-- PACK_BFP (R133): Move-unit mode that packs CI16 groups into BFP wire blocks. -/
  | packBfp (tile : Nat) (arrived : List Byte)
  /-- MOVE_COMPLETE (R166): A move command's last byte is written and its completion is signalled, starting the next queued command. -/
  | moveComplete (tile : Nat)
  /-- TASK_COMPLETE (R416): A task ends and applies its signal entries, charges its accounts and writes its completion record. -/
  | taskComplete (task : Nat)
  /-- KERNEL_LOAD (R202): A kernel package is checked, measured and given a handle, or refused KERNEL_INVALID. -/
  | kernelLoad (f r : Nat) (package : List Byte)
  /-- KERNEL_FREE (R442): Frees a kernel handle, or is refused SLOT_BUSY while it is in use. -/
  | kernelFree (f r : Nat)
  /-- MATMUL (R205): KGF node that runs a matrix product on the cubes. -/
  | matmul (inv node vt : Nat)
  /-- MATVEC (R205): KGF node that runs a matrix-vector product on the MV path. -/
  | matvec (inv node vt : Nat)
  /-- CONV (R205): KGF node that runs a convolution in relay mode. -/
  | conv (inv node vt : Nat)
  /-- CMATMUL (R205): KGF node that runs a complex CI16 matrix product. -/
  | cmatmul (inv node vt : Nat)
  /-- DFT (R205): KGF node that runs scaled DFT stages. -/
  | dft (inv node : Nat)
  /-- INTERP (R205): KGF node that runs complex interpolation in relay mode. -/
  | interp (inv node vt : Nat)
  /-- ELEMENTWISE (R205): KGF node that runs per-element VS operations. -/
  | elementwise (inv node : Nat)
  /-- EXP2 (R211): Nonlinear node function evaluated by table interpolation. -/
  | exp2 (inv node : Nat)
  /-- RECIP (R211): Nonlinear node reciprocal. -/
  | recip (inv node : Nat)
  /-- RSQRT (R211): Nonlinear node reciprocal square root. -/
  | rsqrt (inv node : Nat)
  /-- EXP (R211): Nonlinear node exponential through EXP2. -/
  | exp (inv node : Nat)
  /-- SIGMOID (R211): Nonlinear node sigmoid. -/
  | sigmoid (inv node : Nat)
  /-- SILU (R211): Nonlinear node SiLU. -/
  | silu (inv node : Nat)
  /-- GELU (R211): Nonlinear node GELU. -/
  | gelu (inv node : Nat)
  /-- TANH (R211): Nonlinear node hyperbolic tangent. -/
  | tanh (inv node : Nat)
  /-- SOFTMAX (R212): KGF node row-wise softmax. -/
  | softmax (inv node : Nat)
  /-- RMSNORM (R212): KGF node row-wise RMS normalisation. -/
  | rmsnorm (inv node : Nat)
  /-- LAYERNORM (R212): KGF node row-wise layer normalisation. -/
  | layernorm (inv node : Nat)
  /-- QUANT (R213): KGF node quantisation into MX blocks with E8M0 scales. -/
  | quant (inv node : Nat)
  /-- REDUCE_ORDERED (R208): KGF reduction that adds partials in rank order, buffering early arrivals. -/
  | reduceOrdered (inv node : Nat)
  /-- REDUCE_ARRIVAL (R208): KGF reduction that adds partials in arrival order. -/
  | reduceArrival (inv node : Nat)
  /-- REDUCE_PARTIAL_ARRIVAL (R208): A partial of a reduction arrives and is added or buffered. -/
  | reducePartialArrival (inv node rank : Nat) (data : List Word32)
  /-- GATE_DROP (R254): Gate node that routes tokens to experts and drops assignments to full experts. -/
  | gateDrop (inv node : Nat)
  /-- GATE_REROUTE (R254): Gate node that moves assignments from full experts to the best remaining expert. -/
  | gateReroute (inv node : Nat)
  /-- GATE_ARRIVAL (R254): Gate node that fills expert places in order of score arrival. -/
  | gateArrival (inv node : Nat) (arrivals : List (Nat × Nat))
  /-- MOVE_NODE (R205): KGF node that runs move-unit commands. -/
  | moveNode (inv node vt : Nat)
  /-- BRANCH (R224): KGF node that reads a predicate word and runs one of two subgraphs. -/
  | branch (inv node : Nat)
  /-- EXIT (R226): KGF node that ends the invocation early when its predicate is nonzero. -/
  | exit (inv node : Nat)
  /-- ATOMIC (R386): KGF node whose fabric engine issues its request list in order. -/
  | atomic (inv node : Nat)
  /-- NODE_COMPLETE (R257): A graph node completes, its duration is measured and later nodes may start. -/
  | nodeComplete (inv node : Nat)
  /-- MODEL_LOAD (R235): Loads a KGF into an empty model slot, or refuses it. -/
  | modelLoad (f r : Nat) (container : List Byte)
  /-- MODEL_LOAD_COMPLETE (R235): The WEIGHTS copy and kernel loads end, the slot becomes READY and the descriptor completes. -/
  | modelLoadComplete (slot : Nat)
  /-- MODEL_UNLOAD (R237): Unloads a slot, freeing and zeroising its pages, or is refused SLOT_BUSY. -/
  | modelUnload (f r : Nat)
  /-- INVOKE (R239): An invocation of a slot is admitted or refused at fetch. -/
  | invoke (f r : Nat) (io : List (Nat × Nat))
  /-- INVOCATION_START (R240): A queued invocation starts when its predecessor completes and its target is reached, with any model switch. -/
  | invocationStart (inv : Nat) (arrived : List (List Byte))
  /-- BE_INVOCATION_PLACE (R249): A BE invocation is placed on free pool tiles by affinity score once enough are free. -/
  | beInvocationPlace (inv : Nat) (arrived : List (List Byte))
  /-- INVOCATION_COMPLETE (R240): An invocation ends and its completion record is written after its outputs. -/
  | invocationComplete (inv : Nat)
  /-- STATE_FREE (R243): Unbinds a state handle and discards its state. -/
  | stateFree (f r : Nat)
  /-- WAVE_ISSUE (R246): A weight wave is read once from GDDR7 and multicast once its tiles have room. -/
  | waveIssue (inv : Nat)
  /-- DL_TTI (R284): Downlink slot order is admitted or refused at fetch. -/
  | dlTti (f r : Nat) (list : List Byte)
  /-- UL_TTI (R284): Uplink slot order is admitted or refused at fetch, loading spilled soft buffers back. -/
  | ulTti (f r : Nat) (list : List Byte)
  /-- TX_DATA (R287): Transport-block payload order is admitted or refused at fetch. -/
  | txData (f r : Nat) (list : List Byte)
  /-- UL_DCI (R284): Uplink DCI order is admitted or refused at fetch. -/
  | ulDci (f r : Nat) (list : List Byte)
  /-- ORDER_CUTOFF (R282): At a slot's cut-off the conductor checks completeness and coding share and registers the slot's work. -/
  | orderCutoff (c slot : Nat) (payloads : List (List Byte))
  /-- MISSED_LIMIT_REACHED (R311): MISSED_LIMIT consecutive held slots move the cell to HOLD. -/
  | missedLimitReached (c : Nat)
  /-- LDPC_DECODE (R267): A coding engine decodes an LDPC code block with HARQ combining. -/
  | ldpcDecode (c : Nat) (b : CodeBlock)
  /-- LDPC_ENCODE (R270): A coding engine encodes an LDPC code block. -/
  | ldpcEncode (c slot pdu index : Nat)
  /-- POLAR_ENCODE (R269): A coding engine polar-encodes a PDCCH block. -/
  | polarEncode (c slot pdu index : Nat)
  /-- POLAR_DECODE (R269): A coding engine decodes UCI with a list decoder. -/
  | polarDecode (c slot pdu info : Nat) (llrs : List Int)
  /-- RESULT_BATCH_WRITE (R290): A batch's entries have been issued and its completion record is written. -/
  | resultBatchWrite (c slot otype btype : Nat) (entries : List (Nat × Nat × List Byte))
  /-- SRS_ESTIMATE_EXPIRY (R293): A retained SRS estimate is discarded 80 ms after its occasion. -/
  | srsEstimateExpiry (c handle : Nat)
  /-- RELEASE_POINT (R304): At t_air − T1A_MAX the fronthaul engine sends the computed slot, the hold pattern or the idle slot. -/
  | releasePoint (c slot : Nat)
  /-- SYMBOL_RELEASE (R337): Downlink U-plane frames of a symbol enter queue 13. -/
  | symbolRelease (c slot symbol : Nat)
  /-- SYMBOL_WINDOW_CLOSE (R340): At a symbol's window close, radio frames not begun in time are discarded. -/
  | symbolWindowClose (c slot symbol : Nat)
  /-- START (R302): Cell command that starts a stopped cell at a start frame. -/
  | start (w : Wr) (c : Nat)
  /-- STOP (R303): Cell command that ends transmission at a named frame. -/
  | stop (w : Wr) (c : Nat)
  /-- HOLD (R297): Cell command that puts an on-air cell into HOLD at a named frame. -/
  | hold (w : Wr) (c : Nat)
  /-- RESUME (R297): Cell command that returns a commanded HOLD to ON_AIR at a named frame. -/
  | resume (w : Wr) (c : Nat)
  /-- RESET (R312): Cell command that resets the cell's L1 context at the reset frame. -/
  | reset (w : Wr) (c : Nat)
  /-- MOVE (R320): Cell command that starts castling to or from a peer chip at H. -/
  | move (w : Wr) (c : Nat) (peerMatches : Bool)
  /-- ABORT_MOVE (R324): Cell command that aborts a move more than 50 ms before H. -/
  | abortMove (w : Wr) (c : Nat)
  /-- START_RESIZE (R302): At F − 25 ms the radio partition resizes and HOLD_SOURCE encoding begins. -/
  | startResize (c : Nat)
  /-- HOLD_SOURCE_CHECK (R302): At F − 20 ms a cell whose hold source is not encoded becomes STOPPED with START_FAILED. -/
  | holdSourceCheck (c : Nat) (encoded : Bool)
  /-- START_FRAME_REACHED (R302): The first slot boundary of a starting cell is served and STARTED reported. -/
  | startFrameReached (c : Nat)
  /-- FIRST_FRAME_END (R297): At F + 10 ms the cell becomes ON_AIR. -/
  | firstFrameEnd (c : Nat)
  /-- STOP_FRAME_REACHED (R303): At the stop frame the cell becomes STOPPED. -/
  | stopFrameReached (c : Nat)
  /-- RADIO_PARTITION_SHRINK (R303): 4 ms after a stop, abort or move, the radio partition shrinks and its areas are zeroised. -/
  | radioPartitionShrink (cluster : Nat)
  /-- HOLD_FRAME_REACHED (R297): A commanded HOLD takes effect at its frame boundary. -/
  | holdFrameReached (c : Nat)
  /-- RESUME_FRAME_REACHED (R297): A RESUME or a frame with complete slot-0 orders returns the cell to ON_AIR. -/
  | resumeFrameReached (c : Nat)
  /-- RESET_FRAME_REACHED (R312): At the reset frame HARQ, estimates and block-exponent state clear and RESET_DONE is reported. -/
  | resetFrameReached (c : Nat)
  /-- HOLD_SOURCE_WRITE (R309): A hold-source write is encoded at once, or refused HOLD_INVALID. -/
  | holdSourceWrite (w : Wr) (c : Nat) (encoded : Bool)
  /-- HOLD_SOURCE_SWITCH (R309): A new hold source takes effect at the first hold-period boundary at least 20 ms after acknowledgement. -/
  | holdSourceSwitch (c : Nat)
  /-- HOLD_LAUNCH (R308): A standing hold launch computes a slot's hold sections without a conductor. -/
  | holdLaunch (c slot : Nat)
  /-- RESIDUE_ERROR (R517): A residue check fails and the task is handled as a contained error. -/
  | residueError (tile unit : Nat)
  /-- TILE_WATCHDOG_EXPIRY (R517): A tile makes no progress for TILE_WATCHDOG and its task is handled as a contained error. -/
  | tileWatchdogExpiry (tile : Nat)
  /-- RADIO_RERUN (R315): A radio task with a contained error is re-run once on its standby tile. -/
  | radioRerun (task : Nat)
  /-- TASK_RERUN (R519): A non-radio task with a contained error is re-run once from its start. -/
  | taskRerun (task : Nat)
  /-- CONDUCTOR_HEARTBEAT (R318): A conductor writes its heartbeat to its partner every 10 µs. -/
  | conductorHeartbeat (cluster core : Nat)
  /-- CONDUCTOR_HANG (R318): 50 µs without a partner heartbeat declares a hang, and the partner takes over its cells. -/
  | conductorHang (cluster core : Nat)
  /-- CONDUCTOR_SELFCHECK_PASS (R319): A restarted conductor passes its self-check. -/
  | conductorSelfcheckPass (cluster core : Nat)
  /-- HANDBACK (R319): At the first frame boundary at least 20 ms after self-check a conductor takes its cells back. -/
  | handback (c : Nat)
  /-- CONDUCTOR_RESTART_BY_CONTROL (R319): With both conductors hung, chip control restarts a conductor within 1 s. -/
  | conductorRestartByControl (cluster : Nat)
  /-- MOVE_TARGET_PREPARE (R321): At H − 1 s the target radio partition grows and its hold launches are registered. -/
  | moveTargetPrepare (c : Nat)
  /-- MOVE_BULK_COPY (R321): The source bulk-copies cell context to the target on the TEMPO channel. -/
  | moveBulkCopy (c : Nat) (buffers : List (Nat × List Int)) (estimates : List (Nat × Nat))
  /-- MOVE_COMMIT_POINT (R321): At H − 50 ms the move commits or aborts. -/
  | moveCommitPoint (c : Nat) (peerReady peerLocked : Bool)
  /-- DUAL_RX_OPEN (R323): At H − 10 ms both chips start accepting the cell's uplink flows. -/
  | dualRxOpen (c : Nat)
  /-- MOVE_HANDOVER (R321): At H the target serves the cell's slots. -/
  | moveHandover (c : Nat)
  /-- MOVE_FINAL_COPY (R321): After the last decode before H, the source sends the final soft buffers and estimates. -/
  | moveFinalCopy (c : Nat) (buffers : List (Nat × List Int)) (estimates : List (Nat × Nat))
  /-- MOVE_FINAL_ACK (R321): The target's acknowledgement of the final copy stops the source cell and reports MOVE_DONE. -/
  | moveFinalAck (c : Nat)
  /-- DUAL_RX_CLOSE (R321): At H + 10 ms the dual receive window closes and the target cell is ON_AIR. -/
  | dualRxClose (c : Nat)
  /-- PORT_MODE_WRITE (R328): Requests a fronthaul port mode at a named LNC, or is refused with a port status reason. -/
  | portModeWrite (w : Wr) (p : Nat)
  /-- LANE_GROUPS_WRITE (R24): Requests lane-group assignment to fronthaul or fabric at a named LNC, or is refused. -/
  | laneGroupsWrite (w : Wr)
  /-- PORT_LINK_UP (R328): A port completes training and reads UP. -/
  | portLinkUp (p : Nat)
  /-- PORT_DOWN (R343): A port goes down, its queued and released frames are discarded and the error log is written. -/
  | portDown (p : Nat)
  /-- FRAME_RECEIVE (R331): A received frame is classified, policed and delivered to one destination. -/
  | frameReceive (p : Nat) (f : RxFrame)
  /-- DELAY_MEAS_REQUEST_TX (R334): Every DELAY_MEAS_PERIOD a delay measurement request is sent to the radio unit. -/
  | delayMeasRequestTx (c : Nat)
  /-- EGRESS_FRAME_START (R346): When the port is free, the scheduler chooses the next frame by strict priority, shaper and DRR. -/
  | egressFrameStart (p : Nat)
  /-- FRAME_TX (R444): A host frame is queued on a fronthaul egress queue, or refused CLASS_MISMATCH. -/
  | frameTx (f r : Nat) (content : List Byte)
  /-- FRAME_TX_WRITEBACK (R444): After the frame leaves or is discarded, the timestamp write-back is written and CONS advanced. -/
  | frameTxWriteback (f r : Nat)
  /-- IDLE_SLOPE_WRITE (R347): Sets a credit-based shaper slope, or is refused above 20 % of the port rate. -/
  | idleSlopeWrite (w : Wr) (p q : Nat)
  /-- TELEMETRY_SAMPLE (R351): Every 1 µs each egress queue samples depth and head-of-line delay into bins. -/
  | telemetrySample (p : Nat)
  /-- TELEMETRY_CLEAR (R352): Zeroes a queue's bins and maxima at the next sample. -/
  | telemetryClear (w : Wr) (n : Nat)
  /-- HOST_FLOW_WRITE (R354): Defines a host flow for classification, or is refused RANGE. -/
  | hostFlowWrite (w : Wr) (h : Nat)
  /-- FRAME_RX_BUF (R445): Posts a host receive buffer to a receive ring. -/
  | frameRxBuf (f r : Nat)
  /-- MAP (R594): Maps GDDR7 or SRAM pages into a context's local region after checks. -/
  | map (f r : Nat)
  /-- UNMAP (R360): Unmaps a range for every agent before completing, freeing and zeroising pages. -/
  | unmap (f r : Nat)
  /-- CACHE_WAYS_WRITE (R362): Reserves cache ways for a partition at a named LNC, or is refused. -/
  | cacheWaysWrite (w : Wr) (p : Nat)
  /-- PATROL_SCRUB (R370): Patrol scrub reads a word or granule and writes back a corrected value unless another write intervened. -/
  | patrolScrub (gddr : Bool) (tile word kind : Nat)
  /-- WCK_TRACKING (R372): Every 100 ms each controller tracks WCK-to-data drift within refresh. -/
  | wckTracking
  /-- RETRAIN_LNC_WRITE (R373): Requests a full retrain of one GDDR7 device at an LNC, or is refused. -/
  | retrainLncWrite (w : Wr) (dev : Nat)
  /-- DEVICE_RETRAIN (R373): At its LNC a GDDR7 device is retrained with its channels unavailable for up to 5 ms. -/
  | deviceRetrain (dev : Nat)
  /-- GDDR7_TRAINING_DONE (R371): Start-up training of all channels ends READY or TRAIN_FAILED. -/
  | gddr7TrainingDone (density : Nat) (failed : List Nat)
  /-- LINK_MODE_WRITE (R377): Requests a fabric link mode at a named LNC, or is refused. -/
  | linkModeWrite (w : Wr) (link : Nat)
  /-- FLIT_RECEIVE (R379): A ZFL flit is checked, acknowledged or NAKed, and its packets delivered or forwarded. -/
  | flitReceive (link : Nat) (f : Flit)
  /-- LINK_RETRAIN_COMPLETE (R379): A retrained link returns to service or reads DOWN. -/
  | linkRetrainComplete (link : Nat) (ok : Bool)
  /-- LINK_DOWN (R395): A fabric link goes down and leaves every path list within 10 µs. -/
  | linkDown (link : Nat)
  /-- FABRIC_FRAME_RECEIVE (R381): An Ethernet fabric frame delivers its packets, with PFC honoured per priority. -/
  | fabricFrameReceive (link etherType : Nat) (packets : List Packet) (priorities : List Nat) (ptp : Option PtpMsg) (fcsOk : Bool)
  /-- LOAD (R387): A remote read request is served at the home. -/
  | load (p : Packet)
  /-- STORE (R398): A tagged remote write is applied at the home after invalidations. -/
  | store (p : Packet)
  /-- READ (R387): A remote read to the tile's reply register is served at the home. -/
  | read (p : Packet)
  /-- FETCH_ADD (R387): Atomic add at the home returning the old value unless NORET. -/
  | fetchAdd (p : Packet)
  /-- SWAP (R387): Atomic swap at the home. -/
  | swap (p : Packet)
  /-- CAS (R387): Atomic compare-and-swap at the home. -/
  | cas (p : Packet)
  /-- MIN_S (R387): Atomic signed minimum at the home. -/
  | minS (p : Packet)
  /-- MAX_S (R387): Atomic signed maximum at the home. -/
  | maxS (p : Packet)
  /-- MIN_U (R387): Atomic unsigned minimum at the home. -/
  | minU (p : Packet)
  /-- MAX_U (R387): Atomic unsigned maximum at the home. -/
  | maxU (p : Packet)
  /-- FADD_F32 (R387): Atomic FP32 add at the home. -/
  | faddF32 (p : Packet)
  /-- FADD_F64 (R387): Atomic FP64 add at the home. -/
  | faddF64 (p : Packet)
  /-- DATA (R387): A load response arrives at the requester. -/
  | data (p : Packet)
  /-- ACK (R385): A store acknowledgement arrives at the requester. -/
  | ack (p : Packet)
  /-- REPLY (R387): A read or atomic reply arrives at the requester. -/
  | reply (p : Packet)
  /-- GET_S (R397): A coherent line read within the quad is served and the line held shared. -/
  | getS (p : Packet)
  /-- INV (R398): A shared copy is invalidated at a holding chip. -/
  | inv (p : Packet)
  /-- INV_ACK (R398): An invalidation acknowledgement reaches the home. -/
  | invAck (p : Packet)
  /-- EVICT_S (R387): A peer reports that it dropped a shared copy. -/
  | evictS (p : Packet)
  /-- HEARTBEAT (R404): A fabric heartbeat from a peer is received. -/
  | heartbeat (p : Packet)
  /-- HEARTBEAT_SEND (R404): Every HB_PERIOD the chip sends heartbeats over every path to its peers. -/
  | heartbeatSend
  /-- FENCE (R391): A fence entry stops issue until every earlier request of the context is answered. -/
  | fence (tile : Nat)
  /-- FENCE_COMPLETE (R391): All operations covered by a fence have their responses and the fence completes. -/
  | fenceComplete (ctx : Nat)
  /-- REQUEST_RETRY (R401): A request unanswered after REQ_TIMEOUT multiples is resent with RETRY set. -/
  | requestRetry (id : Nat)
  /-- REQUEST_LOST (R401): A request unanswered by 4 × REQ_TIMEOUT completes REQUEST_LOST and faults the job. -/
  | requestLost (id : Nat)
  /-- REPLAY_ENTRY_AGE (R402): An APPLIED replay entry becomes AGED 1 ms after application. -/
  | replayEntryAge (job node tag : Nat)
  /-- PEER_DECLARED_DEAD (R405): A peer silent for HB_MISS periods is declared dead and its requests fail PEER_DEAD. -/
  | peerDeclaredDead (node : Nat)
  /-- READMIT (R405): Lifts the dead verdict for a node, or is refused while a job maps it. -/
  | readmit (w : Wr)
  /-- JOB_APPLY_LNC_WRITE (R383): Schedules activation of a job table entry. -/
  | jobApplyLncWrite (w : Wr) (j : Nat)
  /-- JOB_ACTIVATE (R383): At APPLY_LNC a job entry becomes ACTIVE and tag sequences start at 0. -/
  | jobActivate (j : Nat)
  /-- JOB_BIND (R383): Binds a context of the owner function to a job entry. -/
  | jobBind (f r : Nat)
  /-- TEARDOWN (R407): Starts teardown of a job's part on the chip. -/
  | teardown (w : Wr) (j : Nat)
  /-- TEARDOWN_TIMEOUT (R406): A faulted job without TEARDOWN within TEARDOWN_TIMEOUT tears its own part down. -/
  | teardownTimeout (j : Nat)
  /-- TEARDOWN_COMPLETE (R407): By T + 10 ms pages are unmapped and zeroised, JOB_TORN_DOWN written and the entry FREE. -/
  | teardownComplete (j : Nat)
  /-- NCRO_DROP (R399): Drops the job's NCRO cached lines. -/
  | ncroDrop (w : Wr) (j : Nat)
  /-- CREATE (R410): Creates a semaphore, barrier or event under a virtual ID. -/
  | create (f r : Nat)
  /-- DESTROY (R422): Destroys a sync object, reporting it if not in its found state. -/
  | destroy (f r : Nat)
  /-- SIGNAL (R410): Signals a sync object from the host. -/
  | signal (f r : Nat)
  /-- EVENT_RESET (R419): Returns an event to UNSET, or is refused OBJECT_BUSY. -/
  | eventReset (f r : Nat)
  /-- PROXY (R423): Maps a local VID to an object on another chip of the job. -/
  | proxy (f r : Nat) (granted : Option (Nat × Nat × Nat))
  /-- WAIT_BEGIN (R414): From the target LNC a task's wait entries are evaluated in order. -/
  | waitBegin (task : Nat)
  /-- SYNC_SIGNAL (R424): A proxy signal is applied at the home object. -/
  | syncSignal (p : Packet)
  /-- SYNC_WAIT (R424): A proxy waiter is queued at the home object. -/
  | syncWait (p : Packet)
  /-- SYNC_GRANT (R424): The home grants a proxy waiter and units are held for its context. -/
  | syncGrant (p : Packet)
  /-- SYNC_ABANDON (R424): An abandonment is propagated between home and proxy. -/
  | syncAbandon (p : Packet)
  /-- STALEMATE_WINDOW_EXPIRY (R425): A part quiescent for STALEMATE_WINDOW is declared in stalemate or reports to rank 0. -/
  | stalemateWindowExpiry (part : Nat)
  /-- STALE_REPORT (R427): Rank 0 receives a quiescence report with signal and grant counts. -/
  | staleReport (job rank sent received : Nat)
  /-- STALE_QUERY (R427): A rank asked by rank 0 freezes if still quiescent and confirms, or rejects. -/
  | staleQuery (job : Nat)
  /-- STALE_CONFIRM (R427): Rank 0 receives a rank's confirmation of quiescence. -/
  | staleConfirm (job rank : Nat)
  /-- STALE_REJECT (R427): Rank 0 receives a rank's rejection and resumes the job. -/
  | staleReject (job rank : Nat)
  /-- STALE_HALT (R427): A rank halts its part of the job under R426. -/
  | staleHalt (job : Nat)
  /-- STALE_RESUME (R427): A frozen rank applies its queued signals and resumes. -/
  | staleResume (job : Nat)
  /-- STALE_CONFIRM_TIMEOUT (R427): Without every CONFIRM within 1 ms, rank 0 sends RESUME and discards reports. -/
  | staleConfirmTimeout (job : Nat)
  /-- STALEMATE_RECORD_READ (R429): Reading STALEMATE_RECORD returns and removes the oldest wait-graph record. -/
  | stalemateRecordRead (acc : Accessor) (offset : Nat)
  /-- RING_ENABLE (R459): Enabling a ring takes CONS from its header and aligns FETCH_ACK. -/
  | ringEnable (f r : Nat) (h : Option (BitVec 512))
  /-- RING_FETCH (R437): At a fetch instant the device reads a ring header and fetches the descriptors PROD covers. -/
  | ringFetch (f r : Nat) (h : Option (BitVec 512)) (slots : List (BitVec 512))
  /-- RING_EXTRA_FETCH (R438): A ring is fetched once more at the requested FETCH_AT. -/
  | ringExtraFetch (f r : Nat) (h : Option (BitVec 512)) (slots : List (BitVec 512))
  /-- RING_FALLBACK_FETCH (R438): A ring with FETCH_PERIOD 0 is fetched 1 ms after a fetch that leaves no extra fetch pending. -/
  | ringFallbackFetch (f r : Nat) (h : Option (BitVec 512)) (slots : List (BitVec 512))
  /-- NOP_DESCRIPTOR (R442): Descriptor that only produces a record. -/
  | nopDescriptor (f r : Nat)
  /-- TASK (R443): Descriptor that runs a kernel entry on a run of virtual tiles. -/
  | task (f r : Nat) (args : List Byte)
  /-- CTX_ENABLE (R432): Creates or ends a context, checking its objects and unbinding its jobs at the end. -/
  | ctxEnable (w : Wr) (x : Nat)
  /-- COMPLETION_CONS_REREAD (R451): A full completion ring's CONS is read again, releasing held records. -/
  | completionConsReread (f r cons : Nat)
  /-- MOD_TIME_EXPIRY (R452): Pending records older than MOD_TIME raise the ring's interrupt. -/
  | modTimeExpiry (f r : Nat)
  /-- FLR (R453): A function level reset disables the function and returns it ENABLED with contexts and rings off. -/
  | flr (f : Nat)
  /-- FUNCTION_ENABLE_WRITE (R453): PF0 enables a function, or disables it with the disabling sequence. -/
  | functionEnableWrite (w : Wr)
  /-- VF_ENABLE_CLEAR (R453): Clearing VF Enable disables every VF. -/
  | vfEnableClear
  /-- D3HOT_ENTRY (R453): A function entering D3hot is disabled. -/
  | d3hotEntry (f : Nat)
  /-- PCIE_LINK_DOWN (R456): Link down disables every function. -/
  | pcieLinkDown
  /-- FUNCTION_DISABLE_COMPLETE (R453): At T + 10 ms the disabling function reads DISABLED with its resources returned. -/
  | functionDisableComplete (f : Nat)
  /-- ATS_INVALIDATION (R458): An ATS invalidation from the host completes within 100 µs. -/
  | atsInvalidation (f : Nat) (pasid va : Nat)
  /-- DICT_READ (R484): Dictionary read of one object or a DOMAIN segment, removing the item for reading-removes objects. -/
  | dictRead (acc : Accessor) (index sub offset : Nat)
  /-- DICT_WRITE (R467): Dictionary write of one object or a segment, checked and applied. -/
  | dictWrite (w : Wr) (index sub offset : Nat) (more : Bool)
  /-- READ_BLOCK (R484): Reads a range of subindices of one index in one keeping-clock tick. -/
  | readBlock (acc : Accessor) (index sub last : Nat)
  /-- WRITE_BLOCK (R484): Writes a range of subindices of one index entirely or not at all. -/
  | writeBlock (acc : Accessor) (index : Nat) (data : List Byte) (lnc : Option Nat) (commitOk : Bool)
  /-- SUBSCRIBE (R488): Starts or cancels an ON_CHANGE or PERIODIC subscription. -/
  | subscribe (acc : Accessor) (index sub last interval mode : Nat)
  /-- NOTIFY (R488): At a subscription interval the chip sends the object's value to the subscriber. -/
  | notify (holder index sub : Nat)
  /-- NOTIFY_POP_READ (R481): Reading NOTIFY_POP returns and removes the oldest PF0 notification. -/
  | notifyPopRead (acc : Accessor)
  /-- HELLO (R485): Starts an HDP session handshake with keys and nonces. -/
  | hello (h : HdpFrame)
  /-- PROVE (R485): Completes an HDP handshake with the peer's signature and opens the session. -/
  | prove (h : HdpFrame)
  /-- CLOSE (R484): Ends an HDP session after the response. -/
  | close (h : HdpFrame)
  /-- PROVE_TIMEOUT (R485): A PROVE not received within 1 s ends the handshake AUTH_FAILED. -/
  | proveTimeout (session : Nat)
  /-- SESSION_IDLE_TIMEOUT (R482): A session without an authenticated frame for SESSION_IDLE is closed. -/
  | sessionIdleTimeout (session : Nat)
  /-- SEGMENT_TIMEOUT (R484): A segmented DOMAIN write idle for 10 s is refused and its segments discarded. -/
  | segmentTimeout (holder : Nat)
  /-- ARP_REQUEST (R482): The chip answers ARP for its management address. -/
  | arpRequest (address : Nat)
  /-- ICMP_ECHO (R482): The chip answers ICMP echo on the management port. -/
  | icmpEcho (address : Nat) (payload : List Byte)
  /-- MG_MODE_WRITE (R489): Changing MG_MODE reconfigures the field port and closes every HDP session. -/
  | mgModeWrite (w : Wr)
  /-- MG_IPV4_WRITE (R489): Changing MG_IPV4 sets the address and closes every HDP session. -/
  | mgIpv4Write (w : Wr)
  /-- PEER_KEY_WRITE (R489): A PEER_KEY or PEER_ROLE write closes the sessions opened with that key. -/
  | peerKeyWrite (w : Wr) (k sub : Nat)
  /-- INPUT_FAULT (R491): Input outside 38 V to 62 V for 10 µs turns off switched domains and stops every cell. -/
  | inputFault (mv : Nat)
  /-- INPUT_QUALIFIED (R491): Input held from 40 V to 60 V for 100 ms restarts the device. -/
  | inputQualified (mv : Nat)
  /-- POWER_LOSS (R492): Input falls below 30 V and AON stops. -/
  | powerLoss
  /-- DOMAIN_TURN_ON (R494): A switched domain is turned on by chip control or the launch unit. -/
  | domainTurnOn (b : Nat)
  /-- DOMAIN_TURN_OFF (R494): A switched domain whose off condition holds is turned off. -/
  | domainTurnOff (b : Nat)
  /-- GOVERNOR_REDUCE (R499): A rail over its limit has the duty of its tiles lowered, BE before TEMPO. -/
  | governorReduce (rail avg1 avg50 avg100 : Nat)
  /-- GOVERNOR_RAISE (R499): A rail below 85 % of its limit has duty raised by 1/16 every 10 µs. -/
  | governorRaise (rail avg50 : Nat)
  /-- BURST_DISARM (R501): Burst time reaching 10 ms disarms burst and the active limit falls to POWER_CAP. -/
  | burstDisarm
  /-- BURST_ARM (R501): Burst time falling to 0 arms burst again. -/
  | burstArm
  /-- SHARE_ORDER_WRITE (R502): Sets the power sharing order, or is refused RANGE. -/
  | shareOrderWrite (w : Wr)
  /-- RADIO_FLOOR_WRITE (R503): Sets the radio floor, or is refused while cells are active. -/
  | radioFloorWrite (w : Wr)
  /-- VR_ALERT_N_ASSERT (R505): A falling VR_ALERT_N edge enters the lowest state within 1 µs. -/
  | vrAlertNAssert
  /-- VR_ALERT_N_DEASSERT (R507): VR_ALERT_N is deasserted and its 10 ms clearing time begins. -/
  | vrAlertNDeassert
  /-- FORCE_LOWEST_WRITE (R505): Writing 1 enters the lowest state; writing 0 clears that cause. -/
  | forceLowestWrite (w : Wr)
  /-- OVER_LIMIT_TIMEOUT (R505): Package power over the active limit for 1 ms with all tiles at minimum duty enters the lowest state. -/
  | overLimitTimeout
  /-- THERMAL_LIMIT_TIMEOUT (R505): A sensor above 105 °C for 1 ms enters the lowest state. -/
  | thermalLimitTimeout
  /-- LOWEST_STATE_EXIT (R507): Once all causes have cleared for 10 ms the lowest state ends and tiles resume at duty 1/16. -/
  | lowestStateExit
  /-- CAP_UNMET_SET (R508): In the lowest state, power above POWER_CAP for 1 ms sets CAP_UNMET. -/
  | capUnmetSet
  /-- CAP_EXCESS_UPDATE (R508): Every 1 ms CAP_EXCESS is updated while CAP_UNMET is set. -/
  | capExcessUpdate
  /-- CAP_UNMET_CLEAR (R508): Power at or below POWER_CAP for 10 ms clears CAP_UNMET. -/
  | capUnmetClear
  /-- SENSOR_READ (R512): Every 100 µs all junction sensors are read and TJ_MAX updated. -/
  | sensorRead (readings : List Int)
  /-- THERMAL_THROTTLE_STEP (R513): Each ms the active limit moves by 50 W according to sensor readings. -/
  | thermalThrottleStep
  /-- THERMAL_TRIP (R514): A sensor at 115 °C drives THERM_TRIP_N low and turns off every switched domain. -/
  | thermalTrip
  /-- REFERENCE_LOST (R511): Loss of the frequency reference puts the cleaning PLL in holdover. -/
  | referenceLost
  /-- PLL_LOCK_LOST (R511): A cluster PLL losing lock stops its tiles and raises contained errors. -/
  | pllLockLost (cluster : Nat)
  /-- PLL_RELOCK (R511): A cluster PLL relocks within 20 µs. -/
  | pllRelock (cluster : Nat)
  /-- ENERGY_INTEGRATE (R515): Every 1 µs package energy is integrated and attributed to functions. -/
  | energyIntegrate (total : Nat) (shares : List (Nat × Nat))
  /-- RAIL_CLEAR (R516): Zeroes a rail's largest 50 µs average. -/
  | railClear (w : Wr) (n : Nat)
  /-- PARTITION_ERROR (R522): An uncorrectable tag or directory entry aborts the cluster's non-radio tasks and rebuilds the cluster. -/
  | partitionError (cluster : Nat) (granules : List Nat)
  /-- CLUSTER_RECOVERY_COMPLETE (R522): The cluster's cache, directory and mesh are rebuilt and its cells are reset at the next frame. -/
  | clusterRecoveryComplete (cluster : Nat)
  /-- CLUSTER_RECOVERY_TIMEOUT (R522): A cluster not recovered within 50 ms raises a fatal error. -/
  | clusterRecoveryTimeout (cluster : Nat)
  /-- FATAL_ERROR (R523): Non-radio tasks abort, jobs tear down and ring fetching stops. -/
  | fatalError (unit : Nat)
  /-- CT_HEARTBEAT (R524): A chip control core writes its heartbeat every 10 µs. -/
  | ctHeartbeat (core : Nat)
  /-- CT_HANG (R524): 50 µs without a heartbeat declares a chip control hang and the partner takes over its half. -/
  | ctHang (core : Nat)
  /-- CT_SELFCHECK_PASS (R524): A restarted chip control core passes self-check. -/
  | ctSelfcheckPass (core : Nat)
  /-- CT_HALF_RESUME (R524): The restarted core resumes its half at the first fetch instant at least 20 ms after self-check. -/
  | ctHalfResume (core : Nat)
  /-- CT_DOUBLE_HANG_RESTART (R524): With both cores hung, the power controller restarts both within 1 s. -/
  | ctDoubleHangRestart
  /-- LOG_POP_READ (R544): Reading LOG_POP returns and removes the oldest error-log entry. -/
  | logPopRead (acc : Accessor)
  /-- PROMOTION_SWITCH (R529): After the spare's page copy, the translation switches at the next LNC and waiting launches start. -/
  | promotionSwitch (tile : Nat)
  /-- HEALTH_UPDATE (R534): Every 1 s HEALTH_SCORE and HEALTH_LEVEL are recomputed. -/
  | healthUpdate
  /-- LIVENESS_TICK (R537): LIVENESS increments every 1 ms while chip control serves. -/
  | livenessTick
  /-- COPY_START (R538): Starts a state copy from a rank of a job, or is refused BUSY. -/
  | copyStart (w : Wr)
  /-- COPY_DONE (R538): A state copy ends DONE with its digest, or FAILED. -/
  | copyDone (ok : Bool)
  /-- SELFTEST (R539): Starts the chip self-test, or is refused while cells or contexts are active. -/
  | selftest (w : Wr)
  /-- SELFTEST_DONE (R539): The self-test ends PASS or FAIL, retiring failed tiles. -/
  | selftestDone (failed : List Nat)
  /-- FW_IMAGE_WRITE (R541): A firmware bundle is verified and staged in inactive banks, or refused. -/
  | fwImageWrite (w : Wr)
  /-- FW_SWITCH_LNC_WRITE (R542): Schedules the firmware switch of a cluster or chip control. -/
  | fwSwitchLncWrite (w : Wr) (n : Nat)
  /-- FW_SWITCH (R542): At its LNC a cluster or chip control begins switching its cores to the new bank one at a time. -/
  | fwSwitch (n : Nat)
  /-- FW_CONDUCTOR_PASS (R542): At a frame boundary a conductor's cells pass to its partner or back during a switch. -/
  | fwConductorPass (n : Nat)
  /-- FW_SELFCHECK_FAIL (R543): A core failing self-check on the new bank returns to the old bank and later switches are cancelled. -/
  | fwSelfcheckFail (n : Nat)
  /-- POWER_ON_RESET (R556): Input rises and qualifies, and start-up begins from AON. -/
  | powerOnReset (mv : Nat)
  /-- RESET_N_ASSERT (R545): RESET_N held low for 10 µs requests a chip reset. -/
  | resetNAssert
  /-- CHIP_RESET (R548): Requests a chip reset, which waits for committed moves and stops cells. -/
  | chipReset (w : Wr)
  /-- CHIP_RESET_INSTANT (R549): At the reset instant switched domains turn off and verification starts again. -/
  | chipResetInstant
  /-- CLUSTER_RESET (R550): Resets one cluster except its radio tiles, coding engines and hold launches. -/
  | clusterReset (w : Wr)
  /-- PARTITION_RESET (R551): Resets one tempo inference partition. -/
  | partitionReset (w : Wr)
  /-- TILE_RESET (R552): Resets one tile's logic and live state. -/
  | tileReset (w : Wr)
  /-- STARTUP_VERIFY_DONE (R564): The ROM finishes verifying all images and starts control firmware, or falls back or fails. -/
  | startupVerifyDone (a b : List Byte)
  /-- CHIP_CONTROL_SERVING (R556): Chip control reaches SERVING and writes READY_LNC. -/
  | chipControlServing
  /-- PERST_N_DEASSERT (R557): Deassertion of PERST_N allows PCI Express link training to start. -/
  | perstNDeassert
  /-- PERST_N_ASSERT (R585): PERST_N asserted while serving takes the link down. -/
  | perstNAssert
  /-- PCIE_LINK_UP (R557): The PCI Express link reaches L0. -/
  | pcieLinkUp
  /-- INSTALL (R568): Owner command that installs an owner key. -/
  | install (w : Wr)
  /-- REMOVE (R568): Owner command that removes an owner key. -/
  | remove (w : Wr)
  /-- SET_OWNER_SIGN (R568): Owner command that sets OWNER_SIGN_REQUIRED. -/
  | setOwnerSign (w : Wr)
  /-- RELEASE (R568): Owner command that clears all owner keys, peer keys and OWNER_SIGN_REQUIRED. -/
  | release (w : Wr)
  /-- ROLLBACK_ADVANCE (R566): Raises an anti-rollback count to the lowest held SVN, or is refused. -/
  | rollbackAdvance (w : Wr)
  /-- DEBUG_UNLOCK (R575): Accepts a signed debug token taking effect through a chip reset, or is refused. -/
  | debugUnlock (w : Wr)
  /-- ALIAS_DERIVATION_COMPLETE (R570): The alias key is derived again after a measurement change and held responses are released. -/
  | aliasDerivationComplete
  /-- GET_VERSION (R571): SPDM request for supported versions. -/
  | getVersion (ch : SpdmChannel) (body : List Byte)
  /-- GET_CAPABILITIES (R571): SPDM request for capabilities. -/
  | getCapabilities (ch : SpdmChannel) (body : List Byte)
  /-- NEGOTIATE_ALGORITHMS (R571): SPDM algorithm negotiation. -/
  | negotiateAlgorithms (ch : SpdmChannel) (body : List Byte)
  /-- GET_DIGESTS (R571): SPDM request for certificate chain digests. -/
  | getDigests (ch : SpdmChannel) (body : List Byte)
  /-- GET_CERTIFICATE (R571): SPDM request for the certificate chain. -/
  | getCertificate (ch : SpdmChannel) (body : List Byte)
  /-- CHALLENGE (R571): SPDM challenge signed by the alias key. -/
  | challenge (ch : SpdmChannel) (body : List Byte)
  /-- GET_MEASUREMENTS (R573): SPDM request for measurement blocks. -/
  | getMeasurements (ch : SpdmChannel) (body : List Byte)
  /-- KEY_EXCHANGE (R571): SPDM secure session key exchange. -/
  | keyExchange (ch : SpdmChannel) (body : List Byte)
  /-- FINISH (R571): SPDM session establishment finish. -/
  | finish (ch : SpdmChannel) (body : List Byte)
  /-- KEY_UPDATE (R571): SPDM session key update. -/
  | keyUpdate (ch : SpdmChannel) (body : List Byte)
  /-- SPDM_HEARTBEAT (R571): SPDM session heartbeat. -/
  | spdmHeartbeat (ch : SpdmChannel) (body : List Byte)
  /-- END_SESSION (R571): SPDM session end. -/
  | endSession (ch : SpdmChannel) (body : List Byte)
  /-- SPDM_UNSUPPORTED_REQUEST (R571): Any other SPDM request is answered with ERROR UnsupportedRequest. -/
  | spdmUnsupportedRequest (ch : SpdmChannel) (code : Nat) (body : List Byte)
  /-- KEEPING_CLOCK_TICK (R27): On every keeping-clock tick the STC adds the increment register to its nanoseconds and fraction, and per-tick accounting is updated. -/
  | keepingClockTick
  /-- REFERENCE_RETURN (R511): The selected frequency reference returns and the cleaning PLL leaves holdover, with KEEPING_LOCK reading LOCKED again. -/
  | referenceReturn
  /-- FABRIC_LINK_UP (R377): A fabric link that was DOWN or TRAINING after a LINK_MODE write completes training and reads UP. -/
  | fabricLinkUp (link peer : Nat)
  /-- MG_LINK_UP (R597): The management field port's physical layer reports a link with a partner and MG_LINK reads UP. -/
  | mgLinkUp
  /-- MG_LINK_DOWN (R597): The management field port loses its link with its partner and MG_LINK reads DOWN. -/
  | mgLinkDown
  /-- VF_ENABLE_SET (R431): PF0 sets VF Enable in the SR-IOV capability and the virtual functions appear. -/
  | vfEnableSet
  /-- MSIX_VECTOR_UNMASK (R452): Unmasking an MSI-X vector whose pending bit is set sends the pending message and clears the bit. -/
  | msixVectorUnmask (f vector : Nat)
  /-- TDISP_REQUEST (R457): A TDISP request over DOE moves a VF's device interface among CONFIG_UNLOCKED, CONFIG_LOCKED and RUN. -/
  | tdispRequest (f code : Nat) (nonceOk : Bool)
  /-- IDE_KM_REQUEST (R457): An IDE_KM message over an SPDM secure session keys or starts an IDE stream. -/
  | ideKmRequest (channel : SpdmChannel) (body : List Byte)
  /-- MODEL_UNLOAD_COMPLETE (R234): An accepted unload finishes freeing and zeroising the slot's pages and the slot leaves UNLOADING for EMPTY. -/
  | modelUnloadComplete (slot : Nat)
  /-- GDDR7_ZEROISE_COMPLETE (R375): Zeroising of freed GDDR7 pages finishes, the pages may be allocated again and GDDR7_USED falls. -/
  | gddr7ZeroiseComplete (page : Nat)
  /-- DEVICE_RETRAIN_COMPLETE (R373): A full retrain of a GDDR7 device ends, its channels return to service and RETRAIN_STATUS reads DONE. -/
  | deviceRetrainComplete (dev : Nat)
  /-- ROLLBACK_ADVANCE_COMPLETE (R566): The fuse counter advance ends within 50 ms, ROLLBACK_STATUS reads DONE, waiting FW_IMAGE writes proceed and the alias key is derived again. -/
  | rollbackAdvanceComplete
deriving DecidableEq, Repr

end Sys2Proof
end

