-- ==== Sys2Proof/Machine/State.lean ====
section
/-! DEFINITION. The state of the block as plain data: every register, table, queue, counter, mode and pin of the spec, and
the queue of waiting commands. Each field names the rule that gives it and its reset value. -/

set_option linter.unusedVariables false

namespace Sys2Proof.Machine

/-- Reasons the model stops with a fault. Nothing raises one: every fault of the spec is an effect (R199, R449). Safe. -/
inductive Fault where
  /-- Never raised; the type must have a constructor to be printable. Safe. -/
  | none
deriving DecidableEq, Repr

/-- Reasons the model refuses a command. -/
inductive Refusal where
  /-- Raised by an arm of exec that has no meaning yet. Safe: no claim about that command can be proved. -/
  | notModelled (mnemonic : String)
deriving DecidableEq, Repr

/-! System time (ch. 2). -/

/-- The system time counter (R26): seconds, nanoseconds below 10⁹, fraction in 2⁻³² ns. -/
structure Stc where
  sec : Nat := 0
  ns : Nat := 0
  frac : Nat := 0
deriving DecidableEq, Repr

/-- A time transmitter heard on PTP_PORT (R32, R41): its port identity, its Announce, the tick of the last one. -/
structure PtpMaster where
  source : Nat
  rank : PtpRank
  heardAt : Nat
deriving DecidableEq, Repr

/-- What the time base holds beside its dictionary objects. -/
structure TimeBase where
  /-- The STC master (R26); 96 bits; reset 0 (R554). -/
  stc : Stc := {}
  /-- Keeping-clock ticks since power-on (R27); unbounded count of the model; reset 0. -/
  ticks : Nat := 0
  /-- Offset in ps of each STC copy from the master, copy 0 to 7 in the clusters, 8 on the north border (R48); reset 0. -/
  copies : Table Int := []
  /-- The selected source is available (R32); 1 bit; reset false. -/
  available : Bool := false
  /-- LOCKED reached since the last entry to FREERUN (R31); 1 bit; reset false. -/
  lockReached : Bool := false
  /-- Consecutive updates within the lock threshold (R32); reset 0. -/
  qualifying : Nat := 0
  /-- Whether the step decision of this entry to ACQUIRING has been taken (R33); reset false. -/
  stepDecided : Bool := false
  /-- Increment values of the last 64 s with the ticks each was in force, newest first (R32); reset empty. -/
  history : List (Nat × Nat) := []
  /-- Tick at which the present source was selected (R32); reset 0. -/
  selectedAt : Nat := 0
  /-- Tick of the last update of the source (R32); reset 0. -/
  lastUpdate : Nat := 0
  /-- PPS_TOD written since the previous edge, as a TIME80 number (R593); reset none. -/
  ppsTod : Option Nat := none
  /-- An increment write waiting for the next tick (R27); reset none. -/
  incNext : Option Nat := none
  /-- Captures queued per input, oldest first (R56); at most 16 TIME80 values; inputs 0 to 4; reset empty. -/
  captures : Table (List Nat) := []
  /-- Tick of the last captured edge per input, plus 1 (R56); reset 0, none captured. -/
  lastEdge : Table Nat := []
  /-- Next pulse time in ns of an armed output, plus 1 (R54, R55); reset 0, not armed. -/
  nextPulse : Table Nat := []
  /-- Link delay in ns of each ZFL link (R47); reset 0. -/
  linkDelay : Table Int := []
  /-- Arrival at this end less sending time of the last time word of each ZFL link, in ns (R47); reset none. -/
  wordSkew : Table Int := []
  /-- Tick of the last time word sent and received per ZFL link (R47); reset 0. -/
  wordSent : Table Nat := []
  wordReceived : Table Nat := []
  /-- Tick of the last PTP message sent per port (R41); reset 0. -/
  ptpSent : Table Nat := []
  /-- A time transmitter is selected on PTP_PORT by the best master clock algorithm (R32, R41); reset false. -/
  ptpMaster : Bool := false
  /-- Time transmitters heard on PTP_PORT, the port identity of the selected one, plus 1 (R32, R41); reset none, 0. -/
  announces : List PtpMaster := []
  ptpChosen : Nat := 0
  /-- Mean path delay in ns (R41, R46); reset 0. -/
  ptpDelay : Int := 0
  /-- A two-step Sync that waits for its Follow_Up: sender, sequence, arrival in ns; arrival less origin of the last Sync; reset none. -/
  ptpSync : Option (Nat × Nat × Nat) := none
  ptpAhead : Option Int := none
  /-- The delay request under way on a port (64 the field port): sequence, sending time in ns plus 1, 0 while it waits in its queue. -/
  ptpAsked : Table (Nat × Nat) := []
  /-- Delay requests received and not answered by port, oldest first: requester, sequence, arrival in ns (R41, R43); reset none. -/
  ptpAnswers : Table (List (Nat × Nat × Nat)) := []
  /-- Sequence number of the next message by 8 × port + kind; reset 0. -/
  ptpSeq : Table Nat := []
  /-- Tick of the last step, plus 1, and the STC before it (R38); reset 0. -/
  stepAt : Nat := 0
  stcBefore : Stc := {}
deriving DecidableEq, Repr

/-! The dictionary and HDP (ch. 16). -/

/-- Facts about a write that its bytes do not show: a peer chip holds the same configuration (R320), a hold source can be encoded
(R306). -/
structure WInfo where
  peerMatches : Bool := false
  encoded : Bool := false
deriving DecidableEq, Repr

/-- A write that is acknowledged and not yet in effect (R23, R469): key, value, LNC, whether the LNC was named, and the
writer's copy that a WINDOW_FUNCTION write changes (R466). -/
structure PendingWrite where
  key : Nat
  data : WData
  lnc : Nat
  named : Bool
  holder : Nat
  info : WInfo := {}
  /-- Tick of the acceptance: of two writes of one object in one tick the field port's goes first (R22). -/
  tick : Nat := 0
deriving DecidableEq, Repr

/-- A persistent entry's bookkeeping (R470 to R472): commits since manufacture, tokens in ticks of refill (one token is 60 s,
9,375,000,000 ticks), and the powered tick of the last account. -/
structure Entry where
  commits : Nat := 0
  tokens : Nat := 2400000000000
  last : Nat := 0
deriving DecidableEq, Repr

/-- A segmented DOMAIN write in progress (R484). -/
structure Stage where
  key : Nat
  bytes : List Byte
  last : Nat
deriving DecidableEq, Repr

/-- A subscription (R488): object or block, interval in µs, mode, tick and value last sent. -/
structure Subscription where
  index : Nat
  sub : Nat
  last : Nat
  interval : Nat
  mode : Nat
  sentAt : Nat
  value : List Byte
deriving DecidableEq, Repr

/-- An HDP handshake waiting for its PROVE (R485). -/
structure Handshake where
  peerKey : List Byte
  role : Nat
  keyIn : List Byte
  keyOut : List Byte
  transcript : List Byte
  source : Nat
  startedAt : Nat
  /-- SEQ of the HELLO, which its response carries (R483). -/
  seq : Nat := 0
  /-- The response is held for a derivation of the alias key (R570): the peer's ephemeral key and nonce. -/
  waits : Option (List Byte × List Byte) := none
deriving DecidableEq, Repr

/-- An open HDP session (R485 to R488). -/
structure Session where
  peerKey : List Byte
  role : Nat
  keyIn : List Byte
  keyOut : List Byte
  source : Nat
  lastFrame : Nat
  highSeq : Nat := 0
  seen : List Nat := []
  /-- The last 16 requests answered, oldest first: SEQ, header and data of the response. -/
  answered : List (Nat × List Byte × List Byte) := []
  windowFunction : Nat := 0
  notifySeq : Nat := 0
deriving DecidableEq, Repr

/-- The control block and data buffer of a dictionary window (R479). BUSY reads 0 between commands, since an access is one command;
GO and reserved fields read 0. -/
structure Window where
  op : Nat := 0
  flags : Nat := 0
  index : Nat := 0
  sub : Nat := 0
  subLast : Nat := 0
  offset : Nat := 0
  lnc : Nat := 0
  status : Nat := 0
  length : Nat := 0
  domainLength : Nat := 0
  buffer : List Byte := []
deriving DecidableEq, Repr

/-- The dictionary's own state. -/
structure DictState where
  /-- Register values of the number objects (R460); an unlisted key reads its table's default; reset empty. -/
  regs : Table Int := []
  /-- Contents of the STR and DOMAIN objects (R460); unlisted is empty, or fixed by regDefaultBytes; reset empty. -/
  blobs : Table (List Byte) := []
  /-- Committed values of the persistent store (R469, R470), by key; reset empty (never written). -/
  store : List (Nat × WData) := []
  /-- Bookkeeping of each persistent entry, by index (R470 to R472); reset full token bucket, 0 commits. -/
  entries : Table Entry := []
  /-- Writes waiting for their LNC (R23, R469), oldest first; reset empty. -/
  writes : List PendingWrite := []
  /-- Segmented writes in progress, by holder (R484); reset none. -/
  stages : List (Nat × Stage) := []
  /-- Subscriptions, by holder: 0 the PF0 window, 1024 + k session k (R481, R488); reset none. -/
  subs : Table (List Subscription) := []
  /-- PF0 notifications held, oldest first (R481), at most 64; reset none. -/
  notes : List (List Byte) := []
  /-- NOTIFY_SEQ of the last PF0 notification; reset 0. -/
  noteSeq : Nat := 0
  /-- Open sessions and handshakes by session ID (R485); reset none. -/
  sessions : List (Nat × Session) := []
  handshakes : List (Nat × Handshake) := []
  /-- The vendor test range 0xF000 to 0xFFFF is unlocked (R464, R575); reset false. -/
  vendorOpen : Bool := false
  /-- The dictionary window of each function (R433, R479); reset zero. -/
  windows : Table Window := []
deriving DecidableEq, Repr

/-! Tiles (ch. 5, 6). -/

/-- A loop entry (R193): first index and length of the body, iterations left after the present one, YIELD. -/
structure Loop where
  start : Nat
  len : Nat
  left : Nat
  yield : Bool
deriving DecidableEq, Repr

/-- The vector sequencer's registers (R177). Every one is 0 at task start but S0 to S7 (R178); reset 0. -/
structure Vs where
  /-- V0 to V31, 1,024 bits each. -/
  v : Table VecReg := []
  /-- A0 to A3, 64 parts of 40 bits each; part j in bits [40j+39:40j]. -/
  a : Table (BitVec 2560) := []
  /-- S0 to S15, 64 bits. -/
  s : Table Word64 := []
  /-- P0 to P7, 32 bits. -/
  p : Table Word32 := []
  /-- Q0 to Q7, 16 bits. -/
  q : Table Half := []
  /-- B0 to B7, 32 bits. -/
  b : Table Word32 := []
  /-- N0 to N7, 16 bits. -/
  n : Table Half := []
  /-- Program counter: index of the next instruction. -/
  pc : Nat := 0
  /-- Sticky flags (R117). -/
  invalid : Bool := false
  saturated : Bool := false
  /-- Active loops, innermost first, at most four (R193). -/
  loops : List Loop := []
  /-- Delay slots still to run and where execution continues after them (R192). -/
  slots : Nat := 0
  slotTarget : Nat := 0
deriving DecidableEq, Repr

/-- Accumulators kept between passes by output position (R596): arrangement, type (0 FP32, 1 INT32, 2 complex), values in row
order, real then imaginary for complex. -/
structure Accum where
  arrange : Nat
  kind : Nat
  /-- Columns of the output block: N of R216 for the MV path. -/
  cols : Nat
  vals : List Int
deriving DecidableEq, Repr

/-- An operation issued to a cube, the MV path or the move unit (R189): descriptor bytes as read at issue, the sync channel
it signals, the context it acts for, and whether a move has been carried out up to its completion, which makes its writes visible (R164). -/
structure XOp where
  desc : List Byte
  sync : Nat
  ctx : Nat
  written : Bool := false
  /-- Of a move that was stopped at a 256-byte boundary (R195) the source bytes read until then; of one carried out the bytes that its
  completion writes. -/
  data : List Byte := []
  /-- Move number of a move with a remote end, once its requests are issued; 0 none. -/
  id : Nat := 0
deriving DecidableEq, Repr

/-- A weight wave in a tile's stage (R139, R159, R246): its invocation, plus 1, its place in list order, its bytes. -/
structure Staged where
  owner : Nat
  index : Nat
  data : List Byte
deriving DecidableEq, Repr

/-- The live state of one rank (R177, R195): VS registers, cube and MV accumulators, passes and moves stopped, channels. -/
structure Live where
  vs : Vs := {}
  acc : Option Accum := none
  mvAcc : Option Accum := none
  pass : Option XOp := none
  mv : Option XOp := none
  moves : List XOp := []
  /-- Local sync channels signalled and not cleared, 8 bits (R191). -/
  channels : Nat := 0
  /-- Stream bytes that the cube pass and the MV pass in progress have taken (R139, R144, R159). -/
  fed : List Byte := []
  fedMv : List Byte := []
  /-- Waves in the stage when the rank was saved: what its refill brings back (R139). -/
  streamB : List Staged := []
  streamMv : List Staged := []
deriving DecidableEq, Repr

/-- What a VS waits for: a unit (0 cube, 1 MV path, 2 move unit) to accept the X instruction at pc with its descriptor address
and channel (R190), channels (XWAIT), its X operations (HALT). -/
inductive VsWait where
  | none
  | unit (kind addr sync : Nat)
  | channels (mask : Nat)
  | halt
  | halted
deriving DecidableEq, Repr

/-- One tile position (R9, R173 to R177). -/
structure Tile where
  /-- Sleep state T0 to T4 (R173); reset 4, tile logic and SRAM off. -/
  sleep : Nat := 4
  /-- Tick at which the entry to the sleep state completes (R175); reset 0. -/
  asleepAt : Nat := 0
  /-- Tick at which a started wake completes, plus 1 (R175); reset 0, none started. -/
  wakeAt : Nat := 0
  live : Live := {}
  wait : VsWait := .none
  /-- Tile SRAM (R161), 64 MiB; unlisted reads 0; reset zero (R554). -/
  mem : Table Byte := []
  /-- Word addresses (a / 8) that hold an uncorrectable word (R368, R517); reset none. -/
  poison : List Nat := []
  /-- Contexts that each 64 KiB page is allocated to (R89, R165, R185, R594); reset none. -/
  pages : Table (List Nat) := []
  /-- Function, plus 1, that held each page last: another one gets it zeroised (R89, R374). -/
  heldBy : Table Nat := []
  /-- Tile cycle counter of R52, in tenths of a cycle; reset 0. -/
  tenths : Nat := 0
  /-- VS instructions issued since the last preemption point (R197). -/
  sincePoint : Nat := 0
  /-- The tile cycle counter, in tenths, at the last preemption point (R197). -/
  pointAt : Nat := 0
  /-- The boundary before the next instruction is a preemption point (R194). -/
  atPoint : Bool := true
  /-- Task that holds the tile, plus 1, and its rank (R178); reset 0, none. -/
  task : Nat := 0
  rank : Nat := 0
  /-- Context for which the task runs (R185); 0xFFFF the radio's own. -/
  ctx : Nat := 0
  /-- Kernel handles whose code is in the tile's instruction memory, oldest first (R204); reset none. -/
  code : List Nat := []
  /-- Borrower task of a radio tile, plus 1 (R72); reset 0. -/
  borrower : Nat := 0
  /-- Loan window in pages as it stands on this tile (R71, R73). -/
  loan : Nat := 256
  /-- Preemption requested and not yet taken (R76); reset false. -/
  preempt : Bool := false
  /-- A save or a restore is running (R77, R78): 0 none, 1 save, 2 restore; reset 0. -/
  switching : Nat := 0
  /-- Tile cycles of the save or restore that are left, in tenths (R77, R78). -/
  switchLeft : Nat := 0
  /-- Task, plus 1, that runs when the save completes (R88); reset 0. -/
  next : Nat := 0
  /-- Task that ran on the tile in its present slice, tick the slice began (R88); reset 0. -/
  sliceStart : Nat := 0
  /-- Tick of the last cube activity, plus 1 (R91); reset 0, never. -/
  lastActive : Nat := 0
  /-- Duty in sixteenths (R498); reset 16. -/
  duty : Nat := 16
  /-- Waves in the two halves of the B stage, and at the MV weight input, oldest first (R139, R159); reset none. -/
  streamB : List Staged := []
  streamMv : List Staged := []
deriving DecidableEq, Repr

/-! Tasks, launches, partitions, accounts (ch. 3) and the host interface (ch. 15). -/

/-- Where a task stands between its admission and its record. -/
inductive TaskStatus where
  /-- Admitted; waits under its wait entries or for a BE place (R96, R414). -/
  | waiting
  /-- Registered with the launch unit for its target (R14). -/
  | registered
  | running
  /-- Saved, off its tiles (R77, R88). -/
  | suspended
  /-- Frozen in the lowest power state (R97, R506). -/
  | frozen
  /-- All ranks ended, or faulted: TASK_COMPLETE follows (R416). -/
  | ended
deriving DecidableEq, Repr

/-- What makes a task a radio task: its cell, its slot (count of slots since the epoch), what it runs. -/
structure RadioWork where
  cell : Nat
  slot : Nat
  uplink : Bool
  hold : Bool
  budgetNs : Nat
  standby : Nat
  reruns : Nat := 0
  /-- Move commands of the conductor for the task, their mode chosen by the cell's state (R166, R172, R315). -/
  moves : List (List Byte) := []
  /-- PDUs of the UL_TTI whose results the task makes (R305). -/
  pdus : List Nat := []
  /-- Its receive buffer in the tile's SRAM (R341): base, length. -/
  rxBase : Nat := 0
  rxLength : Nat := 0
deriving DecidableEq, Repr

/-- Evicted SRAM pages of a rank (R70): contexts by page, bytes and poisoned words by their place in the tile. -/
structure SavedPages where
  pages : Table (List Nat) := []
  mem : Table Byte := []
  poison : List Nat := []
deriving DecidableEq, Repr

/-- An admitted task (R443) or a slot task of a cell (R12, R308). -/
structure Task where
  func : Nat := 0
  ctx : Nat := 0
  ring : Nat := 0
  seq : Nat := 0
  klass : Nat := 0
  quiet : Bool := false
  urgent : Bool := false
  kernel : Nat := 0
  entry : Nat := 0
  part : Nat := 0
  vfirst : Nat := 0
  vcount : Nat := 1
  stateBytes : Nat := 0
  waits : List SyncEntry := []
  /-- Wait entries satisfied so far, units taken by them, and the first LNC at which the task may start (R414, R421). -/
  waited : Nat := 0
  taken : List (Nat × Nat) := []
  readyAt : Nat := 0
  /-- A start of the task has been deferred by stagger (R93). -/
  deferred : Bool := false
  signals : List SyncEntry := []
  args : List (List Nat) := []
  /-- Target LNC, 64 bits, as extended at fetch (R50). -/
  target : Nat := 0
  /-- LNC of the fetch (R437). -/
  fetched : Nat := 0
  /-- The target was past at fetch (R51, R98). -/
  past : Bool := false
  status : TaskStatus := .waiting
  /-- Physical tile of each rank, once placed. -/
  tiles : List Nat := []
  /-- Ranks that have started, and ranks that have halted. -/
  started : List Nat := []
  halted : List Nat := []
  /-- LNC of the first start, plus 1, and the start delay in ns (R98). -/
  startLnc : Nat := 0
  startDelay : Nat := 0
  preempts : Nat := 0
  /-- Tile-cycles charged, in tenths (R101). -/
  tenths : Nat := 0
  invalid : Bool := false
  saturated : Bool := false
  /-- FAULT of R449 and INFO of R448. -/
  fault : Nat := 0
  info : Nat := 0
  /-- Saved live state of each rank (R74, R195). -/
  saves : List (Nat × Live) := []
  /-- Holder boost asked (R90). -/
  boost : Bool := false
  /-- The task has started once, whatever became of that run (R96). -/
  begun : Bool := false
  /-- SRAM pages of ranks whose tile left the pool, in the function's GDDR7 save area until the rank resumes (R66, R70). -/
  evicted : List (Nat × SavedPages) := []
  radio : Option RadioWork := none
  /-- Re-runs of a contained error made so far (R519); the task is aborted and waits for its re-run (R315, R519). -/
  reruns : Nat := 0
  rerunDue : Bool := false
  /-- Tags of its tagged requests in order, by job and home; those of a failed run that its re-run uses again (R520). -/
  tags : List (Nat × Nat) := []
  replay : List (Nat × Nat) := []
  /-- Invocation that the task runs, plus 1 (R239). -/
  inv : Nat := 0
  /-- Remote operations outstanding: loads to registers, fences and atomic replies it is stalled on (R82, R83). -/
  remoteWait : Nat := 0
  /-- The reply slot (R83): rank, SRAM address of the list entry, status and old value of atomic replies that came while the task was off
  its tile; the loads to registers to be issued again on resume. -/
  replies : List (Nat × Nat × Nat × Option Nat) := []
  again : List (Nat × Nat × Packet) := []
deriving DecidableEq, Repr

/-- A resize of a tempo inference partition that is pending (R67 to R70). -/
structure Resize where
  tiles : Nat
  lnc : Nat
  /-- Pool tiles chosen by a grow, or leaving tiles of a shrink, in the order they join or leave. -/
  chosen : List Nat
  grow : Bool
  evicted : Bool := false
  left : Bool := false
  /-- The owner has consented in time (R68). -/
  consented : Bool := false
deriving DecidableEq, Repr

/-- A partition (R64): the physical tile of each virtual number, and its resize state. -/
structure Part where
  tiles : List Nat := []
  /-- RESIZE_TILES written since the previous accepted request, plus 1 (R67). -/
  asked : Nat := 0
  resize : Option Resize := none
deriving DecidableEq, Repr

/-- A completion record (R448): common part, DESCRIPTOR body fields, and the words of the other bodies. -/
structure Record where
  rtype : Nat := 0
  outcome : Nat := 0
  reason : Nat := 0
  ctx : Nat := 0
  seq : Nat := 0
  doneLnc : Nat := 0
  startDelay : Nat := 0
  cycles : Nat := 0
  preempts : Nat := 0
  model : Nat := 0
  flagPoint : Nat := 0
  exit : Bool := false
  invalid : Bool := false
  saturated : Bool := false
  fault : Nat := 0
  info : Nat := 0
  /-- Bits [127:0] of a record whose RTYPE is not DESCRIPTOR. -/
  body : Nat := 0
  phase : Nat := 0
deriving DecidableEq, Repr

/-- The device's side of a ring (R435 to R440, R445, R451, R452). -/
structure Ring where
  /-- Index of the next descriptor to fetch, or the first slot in use (R439). -/
  cons : Nat := 0
  /-- FETCH_ACK (R438). -/
  ack : Nat := 0
  /-- LNCs of requested extra fetches (R438). -/
  extra : List Nat := []
  /-- LNC of the last fetch, plus 1 (R436). -/
  lastFetch : Nat := 0
  /-- LNC at which a ring of FETCH_PERIOD 0 falls back, plus 1 (R438). -/
  fallback : Nat := 0
  /-- LNC of the last step, plus 1, from which the periods of its fetches run (R37). -/
  rebased : Nat := 0
  /-- Descriptors fetched and not yet admitted, oldest first, with the LNC of their fetch (R437, R440). -/
  fetched : List (Nat × BitVec 512) := []
  /-- Slots of FRAME_TX that wait for a write-back (R439). -/
  inUse : List Nat := []
  /-- Completion ring: next record index, CONS as last read, records held with their URGENT flag (R448, R451, R452). -/
  prod : Nat := 0
  hostCons : Nat := 0
  held : List (Record × Bool) := []
  /-- LNC of the last CONS read in quanta, plus 1 (R451). -/
  consReadAt : Nat := 0
  /-- Records since the last interrupt, tick of the first (R452). -/
  irqPending : Nat := 0
  irqFirst : Nat := 0
  /-- Addresses of posted receive buffers, oldest first (R445). -/
  buffers : List Nat := []
deriving DecidableEq, Repr

/-- A loaded kernel package (R202). -/
structure Kernel where
  func : Nat := 0
  vendor : Bool := false
  borrowable : Bool := false
  entries : List Nat := []
  code : List Nat := []
  /-- Model slot that loaded it, plus 1 (R235). -/
  slot : Nat := 0
deriving DecidableEq, Repr

/-- What a function holds beside its window objects (R431, R452 to R457, R102). -/
structure Func where
  /-- Tick of the disabling event, plus 1 (R453); 0 none. -/
  disablingAt : Nat := 0
  /-- The disabling event was an FLR: it ends ENABLED (R453). -/
  byFlr : Bool := false
  /-- MSI-X vectors that the host has unmasked, and those pending (R452); every vector is masked at reset, as PCI Express
  defines (log entry 17). -/
  unmasked : List Nat := []
  pendingBits : List Nat := []
  /-- LNCs of pending snapshot requests (R102). -/
  snaps : List Nat := []
  /-- Snapshot records queued, oldest first (R102). -/
  snapQueue : List (List Byte) := []
  snapSeq : Nat := 0
  /-- TDISP state: 0 CONFIG_UNLOCKED, 1 CONFIG_LOCKED, 2 RUN, 3 ERROR (R457). -/
  tdi : Nat := 0
  /-- Page-ticks held, for the byte-second counter (R101). -/
  pageTicks : Nat := 0
  /-- Tile-cycles in tenths not yet counted as whole cycles: TEMPO, BE (R101). -/
  restTempo : Nat := 0
  restBe : Nat := 0
  /-- D3hot (R430). -/
  d3 : Bool := false
deriving DecidableEq, Repr

/-- A frame that leaves a port (R339, R345, R444). -/
structure TxFrame where
  /-- 0 host, 1 radio C-plane, 2 radio U-plane, 3 delay measurement, 4 PTP. -/
  kind : Nat := 0
  length : Nat := 0
  cell : Nat := 0
  slot : Nat := 0
  symbol : Nat := 0
  /-- Window close of a radio frame in ns (R339). -/
  close : Nat := 0
  func : Nat := 0
  ring : Nat := 0
  ringSlot : Nat := 0
  stamp : Bool := false
  content : List Byte := []
  /-- The message of a PTP frame (R41). -/
  ptp : Option PtpMsg := none
deriving DecidableEq, Repr

/-- What the device sends out in a step (State.out, newest first). -/
inductive Emit where
  /-- Answer of a window access (R479): accessor's holder, status of R490, data, DOMAIN_LENGTH. -/
  | answer (holder status : Nat) (data : List Byte) (total : Nat)
  /-- HDP response or NOTIFY (R483): destination, header, data, tag. -/
  | hdp (dest : Nat) (header data tag : List Byte)
  /-- Completion record written into a ring: its 32 bytes (R448). -/
  | record (func ring : Nat) (bytes : List Byte)
  /-- A word the device writes into a ring header (R436): 0 CONS, 1 LAST_FETCH, 2 FETCH_ACK, 3 DEV_STATUS, 4 PROD. -/
  | header (func ring word value : Nat)
  /-- Write-back of a FRAME_TX slot: its bytes 32 to 47 (R444). -/
  | writeBack (func ring slot : Nat) (bytes : List Byte)
  /-- MSI-X message (R452). -/
  | msix (func vector : Nat)
  /-- A pulse of a time output (R54): its edges at timeNs and widthNs later, low while active when activeLow. -/
  | pulse (output timeNs widthNs : Nat) (activeLow : Bool)
  /-- A frame on an Ethernet port (R346; port 64 is a PTP message on the field port, R46), and on the management field port (R482). -/
  | frame (port queue : Nat) (f : TxFrame)
  | mgFrame (dest kind : Nat) (data : List Byte)
  /-- A time word on a ZFL link (R47): the time it is sent, and the skew of the last one received, if any. -/
  | timeWord (link time : Nat) (echo : Option Int)
  /-- A fabric packet on a ZFL link (R380), a flit control (R378, R379): 0 ACK, 1 NAK, 2 replay, 3 + VC credits returned. -/
  | packet (link : Nat) (p : Packet)
  | flit (link kind seq : Nat)
  /-- A packet in a frame of an Ethernet link (R381): the link's MAC address, PCP, EtherType. -/
  | etherPacket (link mac pcp etherType : Nat) (p : Packet)
  /-- A heartbeat or a message to another chip outside packets (R404, R424, R427): node, kind, words. -/
  | message (node kind : Nat) (words : List Nat)
  /-- Data written to host memory at a host address (R290, R386). -/
  | hostWrite (func addr : Nat) (data : List Byte)
  /-- A pin level (R585): 0 ALERT_N, 1 THERM_TRIP_N. -/
  | pin (pin : Nat) (level : Bool)
  /-- An SPDM response, TDISP or IDE_KM response (R571, R457): channel, code, body. -/
  | spdm (channel : SpdmChannel) (code : Nat) (body : List Byte)
deriving DecidableEq, Repr

/-! Models (ch. 7, 8). -/

/-- A model slot beside its objects (R233 to R238, R257). -/
structure Slot where
  chips : Nat := 1
  nodes : List NodeRec := []
  /-- FLAGS bit 0 DETERMINISTIC of the container (R220, R227). -/
  deterministic : Bool := false
  /-- Inputs and outputs in the order of their declaration (R239). -/
  ios : List IoDecl := []
  /-- Digest that FALLBACK names (R238). -/
  fallback : Option (List Byte) := none
  /-- Working, pinned and state area of each virtual tile in bytes (R242), and the offset of its pinned tensors in WEIGHTS. -/
  areas : List (Nat × Nat × Nat) := []
  pins : List Nat := []
  /-- GDDR7 pages of the WEIGHTS section, kernel handles of the KERNELS section (R235). -/
  pages : List Nat := []
  kernels : List Nat := []
  /-- Packages and weights that a load in progress still has to copy (R235). -/
  packages : List (List Byte) := []
  weights : List Byte := []
  /-- The descriptor being served (MODEL_LOAD or MODEL_UNLOAD). -/
  desc : Option Desc := none
  /-- Measured durations of each node, newest first, at most 64, in ns (R257). -/
  service : Table (List Nat) := []
deriving DecidableEq, Repr

/-- A state handle of a partition (R243, R244): slot bound plus 1, LNC at which its last invocation ended, its GDDR7 pages of save area, and
its areas that are resident: by virtual tile the physical tile and, while no invocation uses them, the bytes (log entry 148). -/
structure Handle where
  slot : Nat := 0
  lastEnd : Nat := 0
  pages : List Nat := []
  areas : Table (Nat × List Byte) := []
deriving DecidableEq, Repr

/-- An admitted invocation (R239, R240, R258 to R260). -/
structure Invocation where
  /-- The task that holds its tiles and its record's fields. -/
  task : Nat := 0
  /-- Slot named, and slot that serves. -/
  slot : Nat := 0
  serving : Nat := 0
  part : Nat := 0
  deadline : Nat := 0
  handle : Nat := 0
  /-- The I/O table (R239): address and length of each entry. -/
  io : List (Nat × Nat) := []
  /-- Byte at which its areas begin on each of its tiles: 0 in a tempo inference partition, in a loan window its first byte (log entry 29). -/
  bases : List Nat := []
  /-- The bytes of its inputs, by place in the declaration, as read at its start (R240, R258). -/
  inputs : List (List Byte) := []
  running : Bool := false
  /-- Nodes started with their tick, nodes completed, nodes that a BRANCH leaves out (R224). -/
  begun : List (Nat × Nat) := []
  done : List Nat := []
  skipped : List Nat := []
  flagPoint : Nat := 0
  /-- The original is abandoned; started nodes are still to complete (R259). -/
  abandoned : Bool := false
  /-- EXIT node that ended it, plus 1 (R226). -/
  exit : Nat := 0
  /-- Waves issued, by their place in list order (R246). -/
  waves : List Nat := []
  /-- Virtual tiles on which a node of several tiles has run. -/
  ran : List (Nat × Nat) := []
  /-- Kept assignments of each GATE node: token, expert, weight (R255); GATE nodes whose tokens' outputs are written. -/
  gates : Table (List (Nat × Nat × Nat)) := []
  summed : List Nat := []
  stateWritten : Bool := false
  /-- Predicted completion in ns (R258). -/
  predicted : Nat := 0
deriving DecidableEq, Repr

/-- A running REDUCE (R208). -/
structure Reduction where
  ordered : Bool
  int : Bool
  ranks : Nat
  out : Tensor
  next : Nat := 0
  arrived : List Nat := []
  waiting : Table (List Word32) := []
  acc : List Word32 := []
deriving DecidableEq, Repr

/-- What running models holds. -/
structure ModelState where
  slots : Table Slot := []
  invs : Table Invocation := []
  nextInv : Nat := 0
  /-- By partition × 2048 + handle. -/
  handles : Table Handle := []
  /-- Reductions by invocation × 65,536 + node. -/
  reductions : Table Reduction := []
  /-- Slot of the last invocation of each partition, plus 1; by physical tile the pinned areas that are resident, each as its slot and
  virtual tile (R244, R251). -/
  lastSlot : Table Nat := []
  pinnedOn : Table (List (Nat × Nat)) := []
deriving DecidableEq, Repr

/-! Radio (ch. 9, 10). -/

/-- An admitted slot order (R281). -/
structure OrderIn where
  func : Nat
  ring : Nat
  seq : Nat
  ctx : Nat
  resultRing : Nat
  orderSeq : Nat
  resultAddr : Nat
  resultLength : Nat
  /-- Bytes of the result area that are written. -/
  written : Nat := 0
  pdus : List Pdu
  entries : List TxEntry
  /-- PDU errors found: index and code (R289); batch types written (R290). -/
  errors : List (Nat × Nat) := []
  batches : List Nat := []
deriving DecidableEq, Repr

/-- One slot of a cell (R282, R304, R310). -/
structure SlotWork where
  dl : Option OrderIn := none
  ul : Option OrderIn := none
  tx : Option OrderIn := none
  dci : Option OrderIn := none
  /-- The cut-off has been served. -/
  cut : Bool := false
  /-- Why the slot is held: 0 not held, 1 to 4 the causes of HELD (R301), 5 missing orders. -/
  held : Nat := 0
  /-- Its moves are NORMALISE moves (R313). -/
  normalise : Bool := false
  /-- Tasks of the slot: task number, uplink, virtual tile, standby (R314); the tasks that have completed. -/
  tasks : List (Nat × Bool × Nat × Nat) := []
  ended : List Nat := []
  /-- PDUs of the UL_TTI whose uplink task and its re-run have failed: without results, their soft buffers unchanged (R305). -/
  failed : List Nat := []
  /-- Coded blocks: PDU, code block, bits (R266, R269, R270). -/
  coded : List (Nat × Nat × List Bool) := []
  /-- Transport blocks in the radio partition's staging area since the cut-off: PDU, codeword, bytes (R287, R316). -/
  staged : List (Nat × Nat × List Byte) := []
  /-- Decoded blocks: PDU, code block, iterations, CRC pass, bits (R267). -/
  decoded : List (Nat × Nat × Nat × Bool × List Bool) := []
  /-- The standing hold launch of the slot has been made, and its sections are queued (R308). -/
  holdSent : Bool := false
  holdReady : Bool := false
  /-- Symbols whose U-plane frames have been released (R337). -/
  symbols : List Nat := []
  /-- Choice of the release point: 0 none yet, 1 computed, 2 hold pattern, 3 idle slot (R304). -/
  released : Nat := 0
deriving DecidableEq, Repr

/-- A cell move (R320, R321): which side, peer chip and cell, H in ns, its progress. -/
structure MoveRun where
  source : Bool
  peer : Nat
  peerCell : Nat
  h : Nat
  prepared : Bool := false
  copied : Bool := false
  committed : Bool := false
  dualRx : Bool := false
  handed : Bool := false
  finalSent : Bool := false
  /-- Soft buffers that decodes wrote from H on and that no final copy has sent yet (R321). -/
  late : List Nat := []
  done : Bool := false
deriving DecidableEq, Repr

/-- A cell beside its objects (R296, R312, R313, R317). -/
structure Cell where
  /-- Air time in ns of the start frame F, plus 1; the radio partition has been resized for it, the hold source encoded. -/
  startAt : Nat := 0
  resized : Bool := false
  encoded : Bool := false
  /-- Time in ns, plus 1, at which the first frame ends, once STARTED is reported (R302). -/
  firstEnd : Nat := 0
  /-- Frame boundaries that wait, by what they bring: 2 STOP, 3 HOLD, 4 a return to ON_AIR, 5 the reset frame; their air times in
  ns. The last command accepted, which CMD_STATUS tells of (R298, R300). -/
  waiting : Table Nat := []
  lastCmd : Nat := 0
  /-- How HOLD was entered: 0 not, 1 command, 2 missing orders, 3 reset (R297). -/
  heldBy : Nat := 0
  missed : Nat := 0
  /-- Slots below this count take NORMALISE moves (R313). -/
  normTo : Nat := 0
  /-- The hold source in effect, and one that waits with the time in ns from which it may take effect (R309). -/
  holdSource : List Byte := []
  holdNext : Option (List Byte × Nat) := none
  /-- Soft buffers by HARQ process × 256 + code block (R268), those spilled to GDDR7, least recently written first (R293). -/
  soft : Table (List Int) := []
  softOrder : List Nat := []
  spilled : List Nat := []
  /-- Buffers whose last decode asked to keep them in SRAM (R286). -/
  kept : List Nat := []
  /-- Retained SRS estimates by HANDLE: the ns at which each expires (R293). -/
  estimates : Table Nat := []
  /-- Slots in hand, by slot count since the epoch. -/
  slots : Table SlotWork := []
  /-- Slots from this count on are refused with CELL_STATE, plus 1 (R303); 0 none. -/
  lastSlot : Nat := 0
  /-- Home conductor (R317). -/
  home : Nat := 0
  move : Option MoveRun := none
  /-- Sequence of each uplink stream's next frame, plus 1, and of each downlink stream (R334). -/
  rxSeq : Table Nat := []
  txSeq : Table Nat := []
  /-- Tick of the last delay measurement request, plus 1; the time in ns at which the last one left, plus 1, until it is answered
  (R334). -/
  measuredAt : Nat := 0
  askedNs : Nat := 0
  /-- Time in ns, plus 1, until which the source of a move that is done still accepts the cell's uplink flows and drops their
  sections (R323). -/
  quietUntil : Nat := 0
  /-- Its units no longer fit its cluster: held with cause 3 in every slot until it is stopped (R533). -/
  crowded : Bool := false
deriving DecidableEq, Repr

/-- What radio holds beside its cells. -/
structure RadioState where
  cells : Table Cell := []
  /-- Tick of the last heartbeat of each conductor, cluster × 2 + core (R318); conductors declared hung; LNC at which each restarted
  conductor passed its self-check, plus 1 (R319). -/
  beats : Table Nat := []
  hung : List Nat := []
  checks : Table Nat := []
  /-- Conductors that chip control restarts because both of their cluster hang (R319). -/
  restarts : List Nat := []
  /-- Time in ns, plus 1, at which a cluster's radio partition shrinks (R303). -/
  shrinkAt : Table Nat := []
  /-- Nominal radio work registered per physical tile (R314): task and ns. -/
  work : Table (List (Nat × Nat)) := []
deriving DecidableEq, Repr

/-! Ports (ch. 11). -/

/-- What a fronthaul port holds beside its objects (R345 to R351). -/
structure Port where
  /-- The link: 0 down, 1 training, 2 up. PORT_STATUS tells it until a refusal puts its reason there (R328). -/
  up : Nat := 0
  /-- Frames by egress queue, oldest first, each with the tick of its enqueueing. -/
  queues : Table (List (Nat × TxFrame)) := []
  /-- Credits of queues 8 to 12 in 1/625 bit, and the tick to which they are integrated. -/
  credit : Table Int := []
  creditAt : Nat := 0
  /-- Queue whose frame is on the wire, plus 1, and the tick at which it ends. -/
  sending : Nat := 0
  busyUntil : Nat := 0
  /-- Deficit round robin: deficits, active queues in turn, queues with a fresh turn. -/
  deficit : Table Nat := []
  active : List Nat := []
  fresh : List Nat := []
  /-- LNC of the last telemetry sample, plus 1; queues to clear at the next one (R351, R352). -/
  sampledAt : Nat := 0
  clearing : List Nat := []
  /-- Token policers by flow: 0 to 255 host flows, 256 the default ring, 257 PTP, 1024 + cell × 256 + stream radio flows, the
  PRACH streams from 64 on; tokens in 1/156,250,000 byte, what a rate of 1 byte/s gives in a tick, and the tick of the last frame; an
  unlisted flow holds its full burst (R349). -/
  tokens : Table (Nat × Nat) := []
deriving DecidableEq, Repr

/-- A FRAME_TX frame that has left or been discarded and waits for its write-back (R444). -/
structure WriteBack where
  func : Nat
  ring : Nat
  slot : Nat
  stamp : Bool
  status : Nat
  time : Nat
  /-- Tick at which the frame's last byte has left. -/
  tick : Nat
deriving DecidableEq, Repr

/-- What the ports hold. -/
structure PortState where
  ports : Table Port := []
  done : List WriteBack := []
deriving DecidableEq, Repr

/-! Memory (ch. 12). -/

/-- A mapping of a local region (R357): a GDDR7 page, listed at its first 64 KiB unit, or a tile SRAM page of a virtual tile of
a partition; with its rights. -/
inductive Mapping where
  | gddr (page : Nat) (read write : Bool)
  | sram (part vtile page : Nat) (read write : Bool)
deriving DecidableEq, Repr

/-- Device memory beside tile SRAM. -/
structure MemState where
  /-- Devices and data rate in use, read at the last start-up (R365); reset 16, 64. -/
  devices : Nat := 16
  rate : Nat := 64
  /-- Local mappings, by context × 2²⁷ + 64 KiB unit of the local region (R357); reset none. -/
  maps : Table Mapping := []
  /-- GDDR7 contents by physical address (R366); unlisted reads 0 (R374, R554); reset zero. -/
  gddr : Table Byte := []
  /-- Function, plus 1, that holds each allocated 2 MiB page; reset none. -/
  pages : Table Nat := []
  /-- Freed pages that are not yet zeroised, with the function, plus 1, that they count against (R375); reset none. -/
  zeroising : Table Nat := []
  /-- Granules (PA / 256) that return poison (R369); reset none. -/
  poison : List Nat := []
  /-- Pages retired under R369; reset none. -/
  retired : List Nat := []
  /-- LNC of a requested retrain per device, plus 1; 0 none (R373). -/
  retrainAt : Table Nat := []
  /-- Devices under retrain, whose channels are unavailable (R373). -/
  retraining : List Nat := []
  /-- Devices whose training failed (R371). -/
  failed : List Nat := []
  /-- Scrub reads that wait for their write-back (R370): place, corrected word. A place is tile × 2²³ + word, or 2³² + granule. -/
  scrubs : Table (List Byte) := []
  /-- Tick of the last WCK tracking (R372). -/
  wckAt : Nat := 0
deriving DecidableEq, Repr

/-! The fabric (ch. 13). -/

/-- Where the answer to a request goes (R385). -/
inductive Sink where
  /-- Part of move number `id`: data of a LOAD at this offset of its source bytes. -/
  | moveLoad (id off : Nat)
  | moveStore (id : Nat)
  /-- Entry of an ATOMIC node's list: the run and the SRAM address of the entry. -/
  | atomic (run addr : Nat)
  /-- An operation of the device's own. -/
  | device
  /-- Part of the state copy of R538 at this offset. -/
  | copy (off : Nat)
deriving DecidableEq, Repr

/-- A request that has no response yet (R389, R400, R401). -/
structure Request where
  packet : Packet
  ctx : Nat
  sink : Sink
  /-- Tick of the first transmission, and retries sent. -/
  sentAt : Nat
  retries : Nat := 0
deriving DecidableEq, Repr

/-- A tag that the home has applied (R402): status, stored result, tick of application, AGED. -/
structure Applied where
  status : Nat
  result : Nat
  at' : Nat
  aged : Bool := false
deriving DecidableEq, Repr

/-- The replay table of one source, a node and job (R402): highest tag plus 1 (0 none received), and applied tags. -/
structure Replay where
  hw : Nat := 0
  applied : List (Nat × Applied) := []
deriving DecidableEq, Repr

/-- One end of a fabric link (R378, R379, R393). -/
structure Link where
  /-- 0 down, 1 training, 2 up. LINK_STATUS tells it until a refusal puts its reason there (R377). -/
  up : Nat := 0
  /-- Next sequence expected, next to send. -/
  rxNext : Nat := 0
  txNext : Nat := 0
  /-- Flits sent and not acknowledged, oldest first, at most 512. -/
  buffer : List (Nat × Packet) := []
  /-- Replays of the oldest flit without progress. -/
  replays : Nat := 0
  /-- Tick at which a retrain began, plus 1. -/
  retrainAt : Nat := 0
  /-- 64-byte credits in use per virtual channel, of 512. -/
  used : Table Nat := []
  /-- Packets that wait for credits or for the retry buffer, oldest first; flits since the last of a BE channel. -/
  queue : List Packet := []
  sinceBe : Nat := 0
  /-- Virtual channels paused by PFC (R381). -/
  paused : List Nat := []
deriving DecidableEq, Repr

/-- What a job entry holds beside its objects (R383, R406, R407). -/
structure Job where
  /-- APPLY_LNC, plus 1. -/
  applyAt : Nat := 0
  /-- The bound context, plus 1. -/
  bound : Nat := 0
  /-- Tick of the fault, plus 1. -/
  faultAt : Nat := 0
  /-- Tick of the teardown, plus 1, and whether its record is suppressed (R453). -/
  tearAt : Nat := 0
  quiet : Bool := false
  /-- Ring that takes the JOB_TORN_DOWN record (log entry 20). -/
  ring : Nat := 0
deriving DecidableEq, Repr

/-- A fence of a context that waits (R391): requests it covers, by number. -/
structure Fence where
  ctx : Nat
  covers : List Nat
  /-- Task, plus 1, whose signal waits, or run, plus 1, of the ATOMIC node whose issue it stops. -/
  task : Nat := 0
  run : Nat := 0
deriving DecidableEq, Repr

/-- A running ATOMIC node (R386): its list, next entry, the invocation's context, its task, plus 1, its node. -/
structure AtomicRun where
  addr : Nat
  count : Nat
  next : Nat := 0
  ctx : Nat := 0
  task : Nat := 0
  node : Nat := 0
deriving DecidableEq, Repr

/-- What the fabric unit holds. -/
structure FabricState where
  links : Table Link := []
  jobs : Table Job := []
  /-- Outstanding requests by request number; next number. -/
  requests : Table Request := []
  nextRequest : Nat := 0
  /-- Requests that wait at the source for room (R400), oldest first, with their numbers. -/
  waiting : List (Nat × Request) := []
  /-- Next tag by job entry × 4096 + home (R400). -/
  tags : Table Nat := []
  /-- Replay tables by job entry × 4096 + source node (R402). -/
  replays : Table Replay := []
  fences : List Fence := []
  /-- Running ATOMIC nodes by run: 512 × task + rank. -/
  atomics : Table AtomicRun := []
  /-- Tick of the last heartbeat of each peer, plus 1, and of the last heartbeats sent (R404). -/
  heard : Table Nat := []
  heartbeatAt : Nat := 0
  /-- Nodes declared dead (R405). -/
  dead : List Nat := []
  /-- Source bytes of moves that have arrived, by move number, and moves whose data came poisoned (R369). -/
  staged : Table (Table Byte) := []
  tainted : List Nat := []
  /-- Lines held under NCRO, by job entry and node and line (R399). -/
  ncro : Table (List Byte) := []
  /-- Quad lines held shared on this chip, by the same key (R397). -/
  shared : Table (List Byte) := []
  /-- Home directory: nodes that hold each local line shared, by context × 2³⁵ + line; nodes asked to drop it that have not
  answered (R397, R398). -/
  sharers : Table (List Nat) := []
  dropping : Table (List Nat) := []
  /-- Stores held until the sharers of their line have acknowledged (R398). -/
  held : List Packet := []
deriving DecidableEq, Repr

/-! Sync objects (ch. 14). -/

/-- A waiter of an object (R415): LNC at which the wait began, context, descriptor sequence, task number plus 1 (0 for a proxy
waiter), wait entry, units, and for a proxy waiter its node, job entry and proxy ID. -/
structure Waiter where
  since : Nat
  ctx : Nat
  seq : Nat
  task : Nat
  entry : Nat
  count : Nat
  node : Nat := 0
  job : Nat := 0
  proxy : Nat := 0
deriving DecidableEq, Repr

/-- A physical sync object (R410, R411, R420, R423). -/
structure SyncObj where
  owner : Nat
  vid : Nat
  /-- 0 semaphore, 1 barrier, 2 event. -/
  kind : Nat
  /-- Class of the creating context (R85). -/
  klass : Nat
  hold : Bool := false
  /-- Initial count of a semaphore, or P of a barrier. -/
  initial : Nat := 0
  /-- Count, arrived, or 0 UNSET and 1 SET. -/
  value : Nat := 0
  generation : Nat := 0
  overflow : Bool := false
  /-- Holding contexts and their units, at most eight. -/
  holders : List (Nat × Nat) := []
  waiters : List Waiter := []
  abandoned : Bool := false
  /-- A proxy: job entry, home node, home physical ID, plus 1 in the first; 0 for an object of this chip. -/
  remoteJob : Nat := 0
  homeNode : Nat := 0
  homeId : Nat := 0
  /-- What the home last answered of its object: holders and state (R428). -/
  homeHolders : Nat := 0
  homeState : Nat := 0
  /-- Job entry, node and proxy ID of each proxy that has reached the object (R421). -/
  proxies : List (Nat × Nat × Nat) := []
deriving DecidableEq, Repr

/-- One job's part on this chip as the stalemate detector sees it (R425, R427). -/
structure Quiet where
  /-- Tick since which the part is quiescent, plus 1. -/
  since : Nat := 0
  reported : Bool := false
  /-- Declared, or halted by rank 0 (R426). -/
  declared : Bool := false
  frozen : Bool := false
  /-- SYNC_SIGNAL and SYNC_GRANT sent and received. -/
  sent : Nat := 0
  received : Nat := 0
  /-- Signals queued while frozen: object, context, count. -/
  queued : List (Nat × Nat × Nat) := []
  /-- Waits of proxies that arrived while frozen: object and waiter. -/
  heldWaits : List (Nat × Waiter) := []
  /-- Rank 0: reports held (rank, sent, received), confirmations, tick of the QUERY plus 1. -/
  reports : List (Nat × Nat × Nat) := []
  confirms : List Nat := []
  queriedAt : Nat := 0
deriving DecidableEq, Repr

/-- What the sync unit holds. -/
structure SyncState where
  /-- Physical objects by ID, 0 to 65,535 (R411); reset none. -/
  objects : Table SyncObj := []
  /-- Contexts that the stalemate detector has halted (R426); reset none. -/
  halted : List Nat := []
  /-- Detector state by job entry, 64 + c for a single context c; reset none. -/
  quiet : Table Quiet := []
  /-- Wait-graph records, oldest first, at most 4 (R428); reset none. -/
  records : List (List Byte) := []
deriving DecidableEq, Repr

/-! Power, clocks and heat (ch. 17). -/

/-- What the power controller holds beside its objects. -/
structure PowerState where
  /-- VR_ALERT_N is low, and the tick of its last rising edge, plus 1 (R505, R507); reset false, 0. -/
  vrAlert : Bool := false
  vrClearAt : Nat := 0
  /-- The causes over-limit and thermal of the lowest state (R505); reset false. -/
  overLimit : Bool := false
  hot : Bool := false
  /-- Burst is disarmed (R501); reset false. -/
  burstOff : Bool := false
  /-- Watts by which heat has lowered the active limit, and whether an interval under R513 is running; reset 0. -/
  cut : Nat := 0
  throttling : Bool := false
  /-- Tick since which every sensor reads below THROTTLE_TEMP (R507), plus 1; reset 0. -/
  coolSince : Nat := 0
  /-- The input is out of its limits (R491), and the thermal trip has latched (R514); reset false. -/
  inputOff : Bool := false
  /-- The input has fallen below 30 V and AON has stopped (R492); reset false. -/
  off : Bool := false
  trip : Bool := false
  /-- Tick of the last turn-on of a domain, plus 1 (R495); reset 0. -/
  lastOn : Nat := 0
  /-- Ticks of the last raise and the last reduction of duty on each rail, plus 1 (R499); reset 0. -/
  raisedAt : Table Nat := []
  reducedAt : Table Nat := []
  /-- Microjoules below one millijoule per account, 514 the total (R515); reset 0. -/
  energy : Table Nat := []
  /-- Package power of the last 50 intervals of 1 µs in W, newest first (R501); watts summed over the present millisecond and its
  intervals (PKG_POWER); reset empty, 0. -/
  samples : List Nat := []
  msSum : Nat := 0
  msCount : Nat := 0
  /-- Intervals of 1 µs since power-on, and those of the last 100 ms whose 50 µs average exceeded POWER_CAP, as runs of a first
  interval and a length, newest first (R501); reset 0, none. -/
  intervals : Nat := 0
  bursts : List (Nat × Nat) := []
  /-- Tick since which, plus 1, the 50 µs average: exceeds the active limit with every BE and TEMPO tile at 1/16 (R505); lies at or below 80 %
  of it (R507); exceeds POWER_CAP, or does not (R508); reset 0. -/
  overSince : Nat := 0
  calmSince : Nat := 0
  capOverSince : Nat := 0
  capOkSince : Nat := 0
  /-- Tick of the last step of R513, plus 1; tick since which some sensor reads above 105 °C, plus 1 (R505, R513); reset 0. -/
  steppedAt : Nat := 0
  hotSince : Nat := 0
deriving DecidableEq, Repr

/-! Reliability (ch. 18). -/

/-- An error-log entry (R526). -/
structure LogEntry where
  lnc : Nat := 0
  seq : Nat := 0
  klass : Nat := 0
  unit : Nat := 0
  code : Nat := 0
  ptile : Option Nat := none
  cluster : Nat := 15
  function : Nat := 0x3FF
  partition : Option Nat := none
  cell : Option Nat := none
  count : Nat := 1
  detail : Nat := 0
  /-- Tick of detection (R525). -/
  tick : Nat := 0
deriving DecidableEq, Repr

/-- A promotion in progress (R529): the spare, the tick at which the page copy ends, the partition that
held the tile at D, and the unit whose errors retired it. -/
structure Promotion where
  spare : Nat
  doneAt : Nat
  part : Nat
  unit : Nat
deriving DecidableEq, Repr

/-- A state copy in progress (R538): job entry, rank, local VA, length, bytes asked for and bytes written. -/
structure CopyRun where
  job : Nat
  rank : Nat
  va : Nat
  length : Nat
  asked : Nat := 0
  written : Nat := 0
deriving DecidableEq, Repr

/-- A firmware switch of one cluster (0 to 7) or of chip control (8) (R542): the core being switched, 0 passing, 1 restarting,
2 passed its self-check; the LNC from which the next frame boundary counts: S in phase 0, that of the self-check in phase 2. -/
structure FwSwitch where
  core : Nat := 0
  phase : Nat := 0
  checkAt : Nat := 0
deriving DecidableEq, Repr

/-- What the reliability unit holds. -/
structure ReliaState where
  /-- The error log, oldest first, at most 1,024 entries; next SEQ (R525, R526); reset empty, 1. -/
  log : List LogEntry := []
  logSeq : Nat := 1
  /-- The persistent log, oldest first, at most 256 entries, and the tick of its last write, plus 1 (R525); reset empty. -/
  plog : List LogEntry := []
  plogAt : Nat := 0
  /-- Tick of the last heartbeat of CT0 and CT1 (R524); cores declared hung; LNC at which each restarted core passed its
  self-check, plus 1; reset 0, none, 0. -/
  ctBeat : Table Nat := []
  ctHung : List Nat := []
  ctCheck : Table Nat := []
  /-- Cores that the power controller restarts because both hang (R524); reset none. -/
  ctRestarts : List Nat := []
  /-- Ticks of the last HEALTH_UPDATE and LIVENESS_TICK, plus 1 (R534, R537); reset 0. -/
  healthAt : Nat := 0
  livenessAt : Nat := 0
  /-- Errors of the last 24 h: tick, tile (or 512), kind (0 corrected, 1 contained, 2 hang, 3 residue or watchdog) (R528, R534); reset none. -/
  recent : List (Nat × Nat × Nat) := []
  /-- Tick since which the score lies high enough for a better HEALTH_LEVEL, plus 1 (R534); reset 0. -/
  betterSince : Nat := 0
  /-- Clusters under recovery: tick of the partition error, plus 1 (R522); reset none. -/
  recovering : Table Nat := []
  /-- Clusters whose recovery is a CLUSTER_RESET (R547, R550); reset none. -/
  resetting : List Nat := []
  /-- Promotions by retired tile (R529); reset none. -/
  promotions : Table Promotion := []
  copy : Option CopyRun := none
  /-- LNCs of FW_SWITCH_LNC that wait, plus 1, by cluster or 8 (R542); switches that run; clusters and chip control (8) that run the
  staged bundle; the LNC last named, plus 1; reset none. -/
  switches : Table Nat := []
  switching : Table FwSwitch := []
  switched : List Nat := []
  switchLast : Nat := 0
deriving DecidableEq, Repr

/-! Reset and start-up (ch. 19). -/

/-- What reset and start-up hold beside their objects. -/
structure BootState where
  /-- Tick of P or C, from which the start-up table runs (R556); reset 0. -/
  from' : Nat := 0
  /-- A chip reset that waits for its instant: cause plus 1, and the LNC of C where known, plus 1 (R548); reset 0. -/
  asked : Nat := 0
  instant : Nat := 0
  /-- PERST_N is low, and the tick of its deassertion (R557); reset true, 0. -/
  perst : Bool := true
  perstAt : Nat := 0
  /-- The PCI Express link is in L0 (R557); reset false. -/
  link : Bool := false
  /-- VF Enable of the SR-IOV capability (R431, R455); reset false. -/
  vfEnable : Bool := false
deriving DecidableEq, Repr

/-! The security root (ch. 20). -/

/-- An SPDM exchange (R571, R572): 0 nothing, 1 version, 2 capabilities, 3 algorithms negotiated; and its secure session:
0 none, 1 handshake, 2 established. -/
structure SpdmState where
  phase : Nat := 0
  session : Nat := 0
deriving DecidableEq, Repr

/-- An IDE stream (R457): the keys programmed, by key set, direction and sub-stream, and those that have been told to go. -/
structure IdeStream where
  keys : List (Nat × List Byte) := []
  going : List Nat := []
deriving DecidableEq, Repr

/-- What the security root holds. -/
structure SecState where
  /-- The images of bank sets A (0) and B (1), once written or read by the ROM (R541, R564); reset none. -/
  banks : Table (List FwImage) := []
  /-- Active bank set (R564); reset 0. -/
  bank : Nat := 0
  /-- Running images: 1 AON, 2 CONTROL, 48 + n CONDUCTOR and 64 + n ENGINE of cluster n (R564, R573); reset none. -/
  running : Table FwImage := []
  /-- The bundle that is staged and not switched (R541); reset none. -/
  staged : List FwImage := []
  /-- The bank set that holds it (R541); reset 0. -/
  stagedBank : Nat := 0
  /-- Image type of a rollback advance that runs (R566), and bundles that wait for it; reset 0, none. -/
  advancing : Nat := 0
  waiting : List (List FwImage) := []
  /-- OWNER_SIGN_REQUIRED (R567); reset false. -/
  ownerSign : Bool := false
  /-- A debug token accepted and not yet in effect, debug unlocked (R575); reset false. -/
  token : Bool := false
  unlocked : Bool := false
  /-- The alias key is being derived again; how many derivations have completed; responses held (R570); reset false, 0. -/
  deriving' : Bool := false
  /-- Private seed of the alias key in force, whose digest ALIAS_KEY_ID holds (R103, R570); reset empty. -/
  aliasNow : List Byte := []
  derivations : Nat := 0
  held : List (SpdmChannel × Nat × List Byte) := []
  /-- SPDM exchanges by channel: function, 1024 + HDP session, 2048 the window (R572); reset none. -/
  spdm : Table SpdmState := []
  /-- SPDM_RESPONSE of each exchange over HDP or the window (R572); reset empty. -/
  responses : Table (List Byte) := []
  /-- IDE streams by stream ID (R457); reset none. -/
  ide : Table IdeStream := []
deriving DecidableEq, Repr

/-! The whole state. -/

/-- The state of the block. -/
structure State where
  /-- The commands that wait, first in first out; reset empty. -/
  pending : List Instr := []
  /-- Everything the device has sent out, newest first (the model's own record); reset empty. -/
  out : List Emit := []
  /-- The model's counter for free values, read and advanced by a step (log entry 10); reset 0, DESIGN CHOICE. -/
  free : Nat := 0
  time : TimeBase := {}
  dict : DictState := {}
  /-- Tile positions by physical tile number, 0 to 511 (R9). -/
  tiles : Table Tile := []
  /-- Tasks by the model's task number; reset none. -/
  tasks : Table Task := []
  nextTask : Nat := 0
  /-- Partitions 0 to 63 (R64). -/
  parts : Table Part := []
  /-- Radio bookings per stagger window, and starts admitted per window (R91 to R93), by window number LNC / 4. -/
  booked : Table Nat := []
  admitted : Table Nat := []
  /-- Tick at which each running cluster PLL locks (R58); reset 0. -/
  plls : Table Nat := []
  mem : MemState := {}
  fabric : FabricState := {}
  sync : SyncState := {}
  rings : Table Ring := []
  funcs : Table Func := []
  kernels : Table Kernel := []
  models : ModelState := {}
  radio : RadioState := {}
  ports : PortState := {}
  power : PowerState := {}
  relia : ReliaState := {}
  boot : BootState := {}
  sec : SecState := {}
deriving DecidableEq, Repr

/-- The machine right after reset: the instant of a power-on, before the ROM runs (R554, R556). -/
def State.reset : State := {}

end Sys2Proof.Machine
end

