-- ==== Sys2Proof/Machine/Objects.lean ====
section
/-! DEFINITION. The object dictionary's tables (R460 to R465, R477): every object of the spec's tables with its type,
access, default and range, and a name for every register's key. -/

set_option linter.unusedVariables false

namespace Sys2Proof.Machine

/-- The key of a chip-scope object in the register file. -/
def key (index sub : Nat) : Nat := index * 256 + sub
/-- The key of an object of function `f`'s window (R465). -/
def funcKey (f index sub : Nat) : Nat := f * 16777216 + index * 256 + sub

/-- The types of R461. -/
inductive ObjType where
  | bool | u8 | u16 | u32 | u64 | i32 | i64 | fx32 | time80 | str | domain
deriving DecidableEq, Repr

/-- The access codes of R463. -/
inductive ObjAccess where
  | ro | rw | wo | rwp
deriving DecidableEq, Repr

/-- The Range column (R462). `own` ranges name a rule of their own and are checked by ownRange. -/
inductive Range where
  | any
  | within (lo hi : Int)
  | step (lo hi by' : Int)
  | orElse (lo hi other : Int)
  | oneOf (vs : List Int)
  | own
deriving DecidableEq, Repr

/-- One line of a dictionary table: the first index, how many indices the family has, the subindex, type, access, default,
range, and the largest length of a STR or DOMAIN. -/
structure ObjDef where
  base : Nat
  count : Nat
  sub : Nat
  ty : ObjType
  acc : ObjAccess
  dflt : Int
  range : Range
  maxLen : Nat
deriving DecidableEq, Repr


/-- Part 0 of the object tables. -/
def objects0 : List ObjDef := [
  ⟨0x2000, 1, 0x00, .time80, .ro, 0, .any, 0⟩,
  ⟨0x2000, 1, 0x01, .u32, .ro, 0, .any, 0⟩,
  ⟨0x2000, 1, 0x02, .u64, .ro, 0, .any, 0⟩,
  ⟨0x2001, 1, 0x00, .u8, .ro, 0, .within 0 3, 0⟩,
  ⟨0x2001, 1, 0x01, .bool, .ro, 0, .any, 0⟩,
  ⟨0x2001, 1, 0x02, .u32, .ro, 0, .any, 0⟩,
  ⟨0x2001, 1, 0x03, .bool, .ro, 0, .any, 0⟩,
  ⟨0x2002, 1, 0x00, .u8, .rwp, 1, .within 0 4, 0⟩,
  ⟨0x2002, 1, 0x01, .u8, .rwp, 0, .within 0 63, 0⟩,
  ⟨0x2002, 1, 0x02, .u8, .rwp, 0, .within 0 1, 0⟩,
  ⟨0x2002, 1, 0x03, .u8, .rwp, 0, .within 0 63, 0⟩,
  ⟨0x2002, 1, 0x04, .u8, .rwp, 0, .within 0 63, 0⟩,
  ⟨0x2003, 1, 0x00, .u64, .rw, 27487790694, .within 0x664C2F838 0x66809D495, 0⟩,
  ⟨0x2003, 1, 0x01, .bool, .rw, 1, .any, 0⟩,
  ⟨0x2003, 1, 0x02, .u32, .rwp, 100, .within 1 1000, 0⟩,
  ⟨0x2003, 1, 0x03, .u32, .rwp, 1000, .within 50 1000000000, 0⟩,
  ⟨0x2003, 1, 0x04, .i64, .wo, 0, .within (-1000000000000000000) 1000000000000000000, 0⟩,
  ⟨0x2004, 1, 0x00, .i64, .ro, 0, .any, 0⟩,
  ⟨0x2004, 1, 0x01, .fx32, .ro, 0, .any, 0⟩,
  ⟨0x2005, 1, 0x00, .u8, .rwp, 24, .within 24 43, 0⟩,
  ⟨0x2005, 1, 0x01, .u8, .rwp, 128, .within 0 255, 0⟩,
  ⟨0x2006, 1, 0x00, .time80, .wo, 0, .any, 0⟩,
  ⟨0x2100, 8, 0x00, .time80, .rw, 0, .any, 0⟩,
  ⟨0x2100, 8, 0x01, .u64, .rw, 0, .within 0 18446744073709551615, 0⟩,
  ⟨0x2100, 8, 0x02, .u32, .rw, 100, .own, 0⟩,
  ⟨0x2100, 8, 0x03, .u32, .rw, 0, .any, 0⟩,
  ⟨0x2100, 8, 0x04, .bool, .rw, 0, .any, 0⟩,
  ⟨0x2100, 8, 0x05, .bool, .rw, 0, .any, 0⟩,
  ⟨0x2100, 8, 0x06, .u32, .ro, 0, .any, 0⟩,
  ⟨0x2110, 5, 0x00, .bool, .rw, 0, .any, 0⟩]

/-- Part 1 of the object tables. -/
def objects1 : List ObjDef := [
  ⟨0x2110, 5, 0x01, .u8, .rw, 0, .within 0 2, 0⟩,
  ⟨0x2110, 5, 0x02, .time80, .ro, 0, .any, 0⟩,
  ⟨0x2110, 5, 0x03, .u8, .ro, 0, .within 0 16, 0⟩,
  ⟨0x2110, 5, 0x04, .bool, .rw, 0, .any, 0⟩,
  ⟨0x2200, 1, 0x00, .u32, .rwp, 50000, .within 25000 1000000, 0⟩,
  ⟨0x4001, 1, 0x00, .u32, .rwp, 2000, .step 250 20000 50, 0⟩,
  ⟨0x4001, 1, 0x01, .u32, .rwp, 5000, .within 1000 1000000, 0⟩,
  ⟨0x4002, 1, 0x00, .u32, .rwp, 500000, .within 50000 10000000, 0⟩,
  ⟨0x4002, 1, 0x01, .u32, .rwp, 2000, .within 1650 1000000, 0⟩,
  ⟨0x4004, 1, 0x00, .u64, .ro, 0, .any, 0⟩,
  ⟨0x4100, 64, 0x00, .u8, .ro, 0, .within 0 2, 0⟩,
  ⟨0x4100, 64, 0x01, .u16, .rw, 0, .within 0 512, 0⟩,
  ⟨0x4100, 64, 0x02, .u16, .ro, 0, .within 0 480, 0⟩,
  ⟨0x4100, 64, 0x03, .u8, .rw, 255, .any, 0⟩,
  ⟨0x4100, 64, 0x04, .u16, .wo, 0, .within 0 480, 0⟩,
  ⟨0x4100, 64, 0x05, .u64, .wo, 0, .any, 0⟩,
  ⟨0x4100, 64, 0x06, .u8, .ro, 0, .any, 0⟩,
  ⟨0x4100, 64, 0x07, .u64, .rw, 0, .any, 0⟩,
  ⟨0x4100, 64, 0x08, .u16, .rw, 0, .within 0 4096, 0⟩,
  ⟨0x4100, 64, 0x09, .u16, .rwp, 256, .within 0 512, 0⟩,
  ⟨0x4400, 513, 0x00, .u16, .rwp, 100, .within 0 1000, 0⟩,
  ⟨0x4400, 513, 0x01, .u32, .rwp, 0, .within 0 4000000000, 0⟩,
  ⟨0xA000, 513, 0x00, .u64, .ro, 0, .any, 0⟩,
  ⟨0xA000, 513, 0x01, .u64, .ro, 0, .any, 0⟩,
  ⟨0xA000, 513, 0x02, .u64, .ro, 0, .any, 0⟩,
  ⟨0xA000, 513, 0x03, .u64, .ro, 0, .any, 0⟩,
  ⟨0xA000, 513, 0x04, .u64, .ro, 0, .any, 0⟩,
  ⟨0xA000, 513, 0x05, .u64, .ro, 0, .any, 0⟩,
  ⟨0xA000, 513, 0x06, .u64, .ro, 0, .any, 0⟩,
  ⟨0xA000, 513, 0x07, .u64, .ro, 0, .any, 0⟩]

/-- Part 2 of the object tables. -/
def objects2 : List ObjDef := [
  ⟨0xA000, 513, 0x08, .u64, .ro, 0, .any, 0⟩,
  ⟨0xA000, 513, 0x09, .u64, .ro, 0, .any, 0⟩,
  ⟨0xA000, 513, 0x0A, .u64, .wo, 0, .any, 0⟩,
  ⟨0xA000, 513, 0x0B, .domain, .ro, 0, .any, 192⟩,
  ⟨0xA000, 513, 0x0C, .bool, .rw, 0, .any, 0⟩,
  ⟨0xA000, 513, 0x0D, .bool, .rwp, 1, .any, 0⟩,
  ⟨0x4010, 1, 0x00, .bool, .rwp, 0, .any, 0⟩,
  ⟨0x4010, 1, 0x01, .u32, .ro, 0, .any, 0⟩,
  ⟨0x4010, 1, 0x02, .u16, .ro, 256, .any, 0⟩,
  ⟨0x4100, 64, 0x0A, .u8, .rwp, 50, .within 10 80, 0⟩,
  ⟨0x4700, 1, 0x00, .u32, .rwp, 50000, .within 0 10000000, 0⟩,
  ⟨0x4700, 1, 0x01, .u64, .ro, 0, .any, 0⟩,
  ⟨0x4800, 256, 0x00, .u8, .ro, 0, .within 0 4, 0⟩,
  ⟨0x4800, 256, 0x01, .u16, .rw, 65535, .orElse 0 512 0xFFFF, 0⟩,
  ⟨0x4800, 256, 0x02, .u8, .ro, 0, .within 0 63, 0⟩,
  ⟨0x4800, 256, 0x03, .u16, .ro, 0, .within 1 4096, 0⟩,
  ⟨0x4800, 256, 0x04, .u16, .ro, 0, .within 1 480, 0⟩,
  ⟨0x4800, 256, 0x05, .u16, .ro, 65535, .orElse 0 255 0xFFFF, 0⟩,
  ⟨0x4800, 256, 0x06, .domain, .ro, 0, .any, 64⟩,
  ⟨0x4800, 256, 0x07, .u64, .ro, 0, .any, 0⟩,
  ⟨0x4800, 256, 0x08, .u64, .ro, 0, .any, 0⟩,
  ⟨0x4800, 256, 0x09, .u64, .ro, 0, .any, 0⟩,
  ⟨0x4800, 256, 0x0A, .u64, .ro, 0, .any, 0⟩,
  ⟨0x4800, 256, 0x0B, .u64, .ro, 0, .any, 0⟩,
  ⟨0x4800, 256, 0x0C, .u64, .ro, 0, .any, 0⟩,
  ⟨0x4800, 256, 0x0D, .u64, .ro, 0, .any, 0⟩,
  ⟨0x5400, 256, 0x01, .u8, .rw, 0, .within 0 7, 0⟩,
  ⟨0x5400, 256, 0x02, .u8, .rw, 1, .within 0 3, 0⟩,
  ⟨0x5400, 256, 0x03, .u16, .rw, 100, .within 5 400, 0⟩,
  ⟨0x5400, 256, 0x04, .u8, .rw, 4, .within 1 64, 0⟩]

/-- Part 3 of the object tables. -/
def objects3 : List ObjDef := [
  ⟨0x5400, 256, 0x05, .u8, .rw, 68, .any, 0⟩,
  ⟨0x5400, 256, 0x06, .u16, .ro, 0, .within 20 1200, 0⟩,
  ⟨0x5400, 256, 0x07, .u32, .rw, 0, .step 0 9999950 50, 0⟩,
  ⟨0x5400, 256, 0x08, .u32, .rw, 0, .any, 0⟩,
  ⟨0x5400, 256, 0x09, .u32, .rw, 0, .any, 0⟩,
  ⟨0x5400, 256, 0x0A, .u32, .rw, 0, .own, 0⟩,
  ⟨0x5400, 256, 0x0B, .u8, .rw, 0, .within 0 1, 0⟩,
  ⟨0x5400, 256, 0x0C, .domain, .rw, 0, .any, 65536⟩,
  ⟨0x5400, 256, 0x0D, .u16, .rw, 64, .within 16 512, 0⟩,
  ⟨0x5400, 256, 0x0E, .u64, .ro, 0, .any, 0⟩,
  ⟨0x5400, 256, 0x00, .u8, .ro, 0, .within 0 4, 0⟩,
  ⟨0x5400, 256, 0x10, .u8, .wo, 0, .within 1 7, 0⟩,
  ⟨0x5400, 256, 0x11, .u32, .rw, 0, .within 0 1048575, 0⟩,
  ⟨0x5400, 256, 0x12, .u8, .ro, 0, .any, 0⟩,
  ⟨0x5400, 256, 0x13, .u8, .rw, 0, .within 0 63, 0⟩,
  ⟨0x5400, 256, 0x14, .domain, .rw, 0, .any, 1048576⟩,
  ⟨0x5400, 256, 0x15, .u16, .rwp, 20, .within 1 1280, 0⟩,
  ⟨0x5400, 256, 0x16, .u16, .rw, 0, .within 0 4095, 0⟩,
  ⟨0x5400, 256, 0x17, .u8, .rw, 0, .within 0 255, 0⟩,
  ⟨0x5400, 256, 0x18, .u32, .rw, 0, .within 0 0xFFFFF, 0⟩,
  ⟨0x5400, 256, 0x19, .u64, .ro, 0, .any, 0⟩,
  ⟨0x5400, 256, 0x1A, .u64, .ro, 0, .any, 0⟩,
  ⟨0x5400, 256, 0x1B, .u64, .ro, 0, .any, 0⟩,
  ⟨0x5400, 256, 0x1C, .u8, .ro, 0, .within 0 1, 0⟩,
  ⟨0x6400, 1024, 0x00, .u64, .ro, 0, .any, 0⟩,
  ⟨0x6400, 1024, 0x01, .u64, .ro, 0, .any, 0⟩,
  ⟨0x6400, 1024, 0x02, .u64, .ro, 0, .any, 0⟩,
  ⟨0x6400, 1024, 0x03, .u64, .ro, 0, .any, 0⟩,
  ⟨0x6400, 1024, 0x04, .u64, .ro, 0, .any, 0⟩,
  ⟨0x6400, 1024, 0x05, .u64, .ro, 0, .any, 0⟩]

/-- Part 4 of the object tables. -/
def objects4 : List ObjDef := [
  ⟨0x6400, 1024, 0x06, .u64, .ro, 0, .any, 0⟩,
  ⟨0x6400, 1024, 0x07, .u64, .ro, 0, .any, 0⟩,
  ⟨0x6400, 1024, 0x08, .u64, .ro, 0, .any, 0⟩,
  ⟨0x6400, 1024, 0x09, .u64, .ro, 0, .any, 0⟩,
  ⟨0x6400, 1024, 0x0A, .u64, .ro, 0, .any, 0⟩,
  ⟨0x6400, 1024, 0x0B, .u64, .ro, 0, .any, 0⟩,
  ⟨0x6400, 1024, 0x0C, .u64, .ro, 0, .any, 0⟩,
  ⟨0x6400, 1024, 0x0D, .u64, .ro, 0, .any, 0⟩,
  ⟨0x6400, 1024, 0x0E, .u64, .ro, 0, .any, 0⟩,
  ⟨0x6400, 1024, 0x0F, .u64, .ro, 0, .any, 0⟩,
  ⟨0x6400, 1024, 0x10, .u64, .ro, 0, .any, 0⟩,
  ⟨0x6400, 1024, 0x11, .u64, .ro, 0, .any, 0⟩,
  ⟨0x6400, 1024, 0x12, .u64, .ro, 0, .any, 0⟩,
  ⟨0x6400, 1024, 0x13, .u64, .ro, 0, .any, 0⟩,
  ⟨0x6400, 1024, 0x14, .u64, .ro, 0, .any, 0⟩,
  ⟨0x6400, 1024, 0x15, .u64, .ro, 0, .any, 0⟩,
  ⟨0x6400, 1024, 0x16, .u64, .ro, 0, .any, 0⟩,
  ⟨0x6400, 1024, 0x17, .u64, .ro, 0, .any, 0⟩,
  ⟨0x6400, 1024, 0x18, .u64, .ro, 0, .any, 0⟩,
  ⟨0x6400, 1024, 0x19, .u64, .ro, 0, .any, 0⟩,
  ⟨0x6400, 1024, 0x1A, .u64, .ro, 0, .any, 0⟩,
  ⟨0x6400, 1024, 0x1B, .u64, .ro, 0, .any, 0⟩,
  ⟨0x6400, 1024, 0x1C, .u64, .ro, 0, .any, 0⟩,
  ⟨0x6400, 1024, 0x1D, .u64, .ro, 0, .any, 0⟩,
  ⟨0x6400, 1024, 0x1E, .u64, .ro, 0, .any, 0⟩,
  ⟨0x6400, 1024, 0x1F, .u64, .ro, 0, .any, 0⟩,
  ⟨0x6400, 1024, 0x20, .u32, .ro, 0, .any, 0⟩,
  ⟨0x6400, 1024, 0x21, .u32, .ro, 0, .any, 0⟩,
  ⟨0x6400, 1024, 0x22, .u64, .ro, 0, .any, 0⟩,
  ⟨0x6400, 1024, 0x23, .u64, .ro, 0, .any, 0⟩]

/-- Part 5 of the object tables. -/
def objects5 : List ObjDef := [
  ⟨0x6400, 1024, 0x24, .bool, .wo, 0, .any, 0⟩,
  ⟨0x6400, 1024, 0x25, .i64, .ro, 0, .any, 0⟩,
  ⟨0x6000, 64, 0x00, .u8, .rwp, 0, .within 0 4, 0⟩,
  ⟨0x6000, 64, 0x01, .u8, .ro, 0, .any, 0⟩,
  ⟨0x6000, 64, 0x02, .u64, .rwp, 0, .within 0 0xFFFFFFFFFFFF, 0⟩,
  ⟨0x6000, 64, 0x03, .u8, .rwp, 0, .within 0 2, 0⟩,
  ⟨0x6000, 64, 0x04, .u16, .rwp, 17476, .own, 0⟩,
  ⟨0x6000, 64, 0x05, .u16, .rw, 65535, .any, 0⟩,
  ⟨0x6000, 64, 0x06, .u32, .rw, 100, .own, 0⟩,
  ⟨0x6000, 64, 0x07, .u32, .rw, 65536, .within 9236 16777216, 0⟩,
  ⟨0x6000, 64, 0x08, .u32, .rwp, 0, .own, 0⟩,
  ⟨0x6000, 64, 0x09, .u32, .rwp, 0, .own, 0⟩,
  ⟨0x6000, 64, 0x0A, .u32, .rwp, 0, .own, 0⟩,
  ⟨0x6000, 64, 0x0B, .u32, .rwp, 0, .own, 0⟩,
  ⟨0x6000, 64, 0x0C, .u32, .rwp, 0, .own, 0⟩,
  ⟨0x6000, 64, 0x0D, .u32, .rwp, 73888, .within 73888 16777216, 0⟩,
  ⟨0x6000, 64, 0x0E, .u32, .rwp, 73888, .within 73888 16777216, 0⟩,
  ⟨0x6000, 64, 0x0F, .u32, .rwp, 73888, .within 73888 16777216, 0⟩,
  ⟨0x6000, 64, 0x10, .u32, .rwp, 73888, .within 73888 16777216, 0⟩,
  ⟨0x6000, 64, 0x11, .u32, .rwp, 73888, .within 73888 16777216, 0⟩,
  ⟨0x6000, 64, 0x12, .u32, .rwp, 9236, .within 9236 1048576, 0⟩,
  ⟨0x6000, 64, 0x13, .u32, .rwp, 9236, .within 9236 1048576, 0⟩,
  ⟨0x6000, 64, 0x14, .u32, .rwp, 9236, .within 9236 1048576, 0⟩,
  ⟨0x6000, 64, 0x15, .u32, .rwp, 9236, .within 9236 1048576, 0⟩,
  ⟨0x6000, 64, 0x16, .u32, .rwp, 9236, .within 9236 1048576, 0⟩,
  ⟨0x6000, 64, 0x17, .u32, .rwp, 9236, .within 9236 1048576, 0⟩,
  ⟨0x6000, 64, 0x18, .u32, .rwp, 9236, .within 9236 1048576, 0⟩,
  ⟨0x6000, 64, 0x19, .u32, .rwp, 9236, .within 9236 1048576, 0⟩,
  ⟨0x6000, 64, 0x1A, .u32, .rwp, 64, .within 1 1048576, 0⟩,
  ⟨0x6000, 64, 0x1B, .u32, .rwp, 50, .within 1 1000000, 0⟩]

/-- Part 6 of the object tables. -/
def objects6 : List ObjDef := [
  ⟨0x6000, 64, 0x1C, .u64, .ro, 0, .any, 0⟩,
  ⟨0x6000, 64, 0x1D, .u64, .ro, 0, .any, 0⟩,
  ⟨0x6000, 64, 0x1E, .u64, .ro, 0, .any, 0⟩,
  ⟨0x6200, 256, 0x00, .domain, .rw, 0, .any, 32⟩,
  ⟨0x6200, 256, 0x01, .u64, .ro, 0, .any, 0⟩,
  ⟨0x6100, 256, 0x00, .u8, .rw, 0, .within 0 63, 0⟩,
  ⟨0x6100, 256, 0x01, .u32, .rw, 0, .any, 0⟩,
  ⟨0x6100, 256, 0x02, .u16, .rw, 0, .any, 0⟩,
  ⟨0x6100, 256, 0x03, .u16, .rw, 0, .any, 0⟩,
  ⟨0x6100, 256, 0x04, .u16, .rw, 0, .any, 0⟩,
  ⟨0x6100, 256, 0x05, .u16, .rw, 1028, .own, 0⟩,
  ⟨0x6100, 256, 0x06, .u8, .rw, 1, .oneOf [0, 1, 4], 0⟩,
  ⟨0x6100, 256, 0x07, .u8, .rw, 9, .oneOf [8, 9, 12, 14, 16], 0⟩,
  ⟨0x6100, 256, 0x08, .bool, .rw, 0, .any, 0⟩,
  ⟨0x6100, 256, 0x09, .u32, .rw, 0, .any, 0⟩,
  ⟨0x6100, 256, 0x0A, .u32, .rw, 0, .any, 0⟩,
  ⟨0x6100, 256, 0x0B, .u32, .rw, 0, .any, 0⟩,
  ⟨0x6100, 256, 0x0C, .u32, .rw, 0, .any, 0⟩,
  ⟨0x6100, 256, 0x0D, .u32, .rw, 0, .any, 0⟩,
  ⟨0x6100, 256, 0x0E, .u32, .rw, 0, .own, 0⟩,
  ⟨0x6100, 256, 0x0F, .bool, .rw, 0, .any, 0⟩,
  ⟨0x6100, 256, 0x10, .u32, .rw, 0, .within 0 60000, 0⟩,
  ⟨0x6100, 256, 0x11, .i64, .ro, 0, .any, 0⟩,
  ⟨0x6100, 256, 0x12, .u64, .ro, 0, .any, 0⟩,
  ⟨0x6100, 256, 0x13, .u64, .ro, 0, .any, 0⟩,
  ⟨0x6100, 256, 0x14, .u64, .ro, 0, .any, 0⟩,
  ⟨0x6100, 256, 0x15, .u64, .ro, 0, .any, 0⟩,
  ⟨0x6100, 256, 0x16, .u64, .ro, 0, .any, 0⟩,
  ⟨0x6100, 256, 0x17, .u64, .ro, 0, .any, 0⟩,
  ⟨0x4100, 64, 0x0B, .u16, .rw, 0, .within 0 0x7FFF, 0⟩]

/-- Part 7 of the object tables. -/
def objects7 : List ObjDef := [
  ⟨0x7000, 1, 0x00, .u8, .rwp, 16, .oneOf [8, 16], 0⟩,
  ⟨0x7000, 1, 0x01, .u8, .rwp, 64, .oneOf [32, 40, 48, 56, 64], 0⟩,
  ⟨0x7000, 1, 0x02, .u8, .ro, 0, .oneOf [32, 64, 128], 0⟩,
  ⟨0x7000, 1, 0x04, .u64, .ro, 0, .any, 0⟩,
  ⟨0x7000, 1, 0x05, .u8, .ro, 0, .any, 0⟩,
  ⟨0x7000, 1, 0x06, .u32, .rwp, 4096, .within 0 65536, 0⟩,
  ⟨0x7000, 1, 0x07, .u32, .ro, 0, .any, 0⟩,
  ⟨0x7001, 1, 0x00, .u32, .rwp, 60, .within 10 86400, 0⟩,
  ⟨0x7001, 1, 0x01, .u32, .rwp, 86400, .within 3600 604800, 0⟩,
  ⟨0x7010, 16, 0x00, .u64, .ro, 0, .any, 0⟩,
  ⟨0x7010, 16, 0x01, .u64, .ro, 0, .any, 0⟩,
  ⟨0x7010, 16, 0x02, .u64, .ro, 0, .any, 0⟩,
  ⟨0x7010, 16, 0x03, .u64, .wo, 0, .any, 0⟩,
  ⟨0x7010, 16, 0x04, .u8, .ro, 0, .any, 0⟩,
  ⟨0x7800, 513, 0x00, .u32, .rw, 0, .within 0 1048576, 0⟩,
  ⟨0x7800, 513, 0x01, .u32, .ro, 0, .any, 0⟩,
  ⟨0x7300, 1, 0x00, .u16, .rwp, 65535, .orElse 0 4095 0xFFFF, 0⟩,
  ⟨0x7300, 1, 0x01, .u64, .rwp, 0, .any, 0⟩,
  ⟨0x7300, 1, 0x02, .u8, .ro, 0, .any, 0⟩,
  ⟨0x7300, 1, 0x03, .u16, .rwp, 34997, .any, 0⟩,
  ⟨0x7300, 1, 0x04, .u32, .rwp, 10000, .within 1000 1000000, 0⟩,
  ⟨0x7300, 1, 0x05, .u8, .rwp, 10, .within 3 255, 0⟩,
  ⟨0x7300, 1, 0x06, .u32, .rwp, 200000, .within 20000 250000, 0⟩,
  ⟨0x7300, 1, 0x07, .u32, .rwp, 100, .within 10 10000, 0⟩,
  ⟨0x7300, 1, 0x08, .domain, .rw, 0, .any, 16384⟩,
  ⟨0x7300, 1, 0x09, .u32, .rwp, 1950837, .own, 0⟩,
  ⟨0x7300, 1, 0x0A, .u64, .ro, 0, .any, 0⟩,
  ⟨0x7301, 1, 0x00, .domain, .ro, 0, .any, 512⟩,
  ⟨0x7301, 1, 0x01, .u16, .wo, 0, .within 0 4095, 0⟩,
  ⟨0x7301, 1, 0x02, .u64, .ro, 0, .any, 0⟩]

/-- Part 8 of the object tables. -/
def objects8 : List ObjDef := [
  ⟨0x7320, 64, 0x00, .u8, .rwp, 0, .within 0 7, 0⟩,
  ⟨0x7320, 64, 0x01, .u8, .ro, 0, .any, 0⟩,
  ⟨0x7320, 64, 0x02, .u16, .ro, 65535, .any, 0⟩,
  ⟨0x7320, 64, 0x03, .u64, .rwp, 0, .within 0 0xFFFFFFFFFFFF, 0⟩,
  ⟨0x7320, 64, 0x04, .u64, .ro, 0, .any, 0⟩,
  ⟨0x7320, 64, 0x05, .u64, .ro, 0, .any, 0⟩,
  ⟨0x7400, 64, 0x00, .u16, .rw, 65535, .within 0 4094, 0⟩,
  ⟨0x7400, 64, 0x01, .u8, .rw, 1, .within 0 1, 0⟩,
  ⟨0x7400, 64, 0x02, .u16, .rw, 0, .within 0 512, 0⟩,
  ⟨0x7400, 64, 0x03, .u16, .rw, 0, .within 0 4095, 0⟩,
  ⟨0x7400, 64, 0x04, .u16, .rw, 1, .within 1 4096, 0⟩,
  ⟨0x7400, 64, 0x05, .domain, .rw, 0, .any, 8192⟩,
  ⟨0x7400, 64, 0x06, .u64, .wo, 0, .any, 0⟩,
  ⟨0x7400, 64, 0x07, .u8, .ro, 0, .within 0 4, 0⟩,
  ⟨0x7400, 64, 0x08, .bool, .wo, 0, .any, 0⟩,
  ⟨0x7400, 64, 0x09, .u8, .ro, 0, .within 0 4, 0⟩,
  ⟨0x7400, 64, 0x0A, .domain, .rw, 0, .any, 64⟩,
  ⟨0x7400, 64, 0x0B, .bool, .wo, 0, .any, 0⟩,
  ⟨0x7400, 64, 0x0C, .u64, .ro, 0, .any, 0⟩,
  ⟨0x7400, 64, 0x0D, .u64, .ro, 0, .any, 0⟩,
  ⟨0x4900, 1, 0x00, .u32, .ro, 65536, .within 0 65536, 0⟩,
  ⟨0x4900, 1, 0x01, .u32, .rwp, 10, .within 1 10000, 0⟩,
  ⟨0x4900, 1, 0x02, .u64, .ro, 0, .any, 0⟩,
  ⟨0x4900, 1, 0x03, .domain, .ro, 0, .any, 4096⟩,
  ⟨0x4A00, 513, 0x00, .u32, .rw, 4096, .within 0 65536, 0⟩,
  ⟨0x4A00, 513, 0x01, .u32, .ro, 0, .any, 0⟩,
  ⟨0x4A00, 513, 0x02, .u64, .ro, 0, .any, 0⟩,
  ⟨0x1010, 1, 0x00, .u16, .rw, 0, .within 0 512, 0⟩,
  ⟨0xB000, 1, 0x00, .u8, .ro, 0, .within 0 2, 0⟩,
  ⟨0xB000, 1, 0x01, .bool, .rw, 0, .any, 0⟩]

/-- Part 9 of the object tables. -/
def objects9 : List ObjDef := [
  ⟨0xB100, 64, 0x00, .u64, .rw, 0, .step 0 18446744073709551615 4096, 0⟩,
  ⟨0xB100, 64, 0x01, .u32, .rw, 256, .own, 0⟩,
  ⟨0xB100, 64, 0x02, .u8, .rw, 0, .within 0 4, 0⟩,
  ⟨0xB100, 64, 0x03, .u32, .rw, 100000, .step 0 1000000 1000, 0⟩,
  ⟨0xB100, 64, 0x04, .u8, .rw, 0, .within 0 63, 0⟩,
  ⟨0xB100, 64, 0x05, .u16, .rw, 0, .own, 0⟩,
  ⟨0xB100, 64, 0x06, .u16, .rw, 1, .within 1 256, 0⟩,
  ⟨0xB100, 64, 0x07, .u32, .rw, 0, .within 0 1000000, 0⟩,
  ⟨0xB100, 64, 0x08, .u8, .ro, 0, .any, 0⟩,
  ⟨0xB100, 64, 0x09, .u64, .ro, 0, .any, 0⟩,
  ⟨0xB100, 64, 0x0A, .u64, .ro, 0, .any, 0⟩,
  ⟨0xB200, 16, 0x00, .bool, .rw, 0, .any, 0⟩,
  ⟨0xB200, 16, 0x01, .u8, .rw, 1, .within 0 1, 0⟩,
  ⟨0xB200, 16, 0x02, .u32, .rw, 0, .within 0 1048575, 0⟩,
  ⟨0x1000, 1, 0x00, .str, .ro, 0, .any, 255⟩,
  ⟨0x1000, 1, 0x01, .u8, .ro, 0, .any, 0⟩,
  ⟨0x1000, 1, 0x02, .str, .ro, 0, .any, 16⟩,
  ⟨0x1000, 1, 0x03, .u32, .ro, 0, .any, 0⟩,
  ⟨0x1000, 1, 0x04, .u32, .ro, 0, .any, 0⟩,
  ⟨0x1001, 1, 0x00, .u8, .rwp, 1, .within 0 3, 0⟩,
  ⟨0x1001, 1, 0x01, .u64, .ro, 0, .within 0 0xFFFFFFFFFFFF, 0⟩,
  ⟨0x1001, 1, 0x02, .u32, .rwp, 0, .any, 0⟩,
  ⟨0x1001, 1, 0x03, .u32, .rwp, 4294901760, .own, 0⟩,
  ⟨0x1001, 1, 0x04, .u32, .rwp, 0, .any, 0⟩,
  ⟨0x1001, 1, 0x05, .u16, .rwp, 47000, .within 1024 65535, 0⟩,
  ⟨0x1001, 1, 0x06, .u8, .ro, 0, .any, 0⟩,
  ⟨0x1002, 1, 0x00, .u8, .ro, 0, .within 0 8, 0⟩,
  ⟨0x1002, 1, 0x01, .u32, .rwp, 60, .within 10 3600, 0⟩,
  ⟨0x1002, 1, 0x02, .u64, .ro, 0, .any, 0⟩,
  ⟨0x1002, 1, 0x03, .u64, .ro, 0, .any, 0⟩]

/-- Part 10 of the object tables. -/
def objects10 : List ObjDef := [
  ⟨0x1020, 1, 0x00, .u8, .ro, 0, .within 0 64, 0⟩,
  ⟨0x1020, 1, 0x01, .domain, .ro, 0, .any, 1456⟩,
  ⟨0x1030, 1, 0x00, .u32, .ro, 0, .any, 0⟩,
  ⟨0x1030, 1, 0x01, .u64, .ro, 0, .any, 0⟩,
  ⟨0x1030, 1, 0x02, .u16, .ro, 0, .any, 0⟩,
  ⟨0x1030, 1, 0x03, .u64, .ro, 0, .any, 0⟩,
  ⟨0x1040, 1, 0x00, .domain, .rwp, 0, .any, 65536⟩,
  ⟨0x1040, 1, 0x01, .u8, .ro, 0, .within 0 1, 0⟩,
  ⟨0x1040, 1, 0x02, .u32, .ro, 0, .any, 0⟩,
  ⟨0x1040, 1, 0x03, .domain, .ro, 0, .any, 64⟩,
  ⟨0x9100, 16, 0x00, .domain, .rwp, 0, .any, 32⟩,
  ⟨0x9100, 16, 0x01, .u8, .rwp, 0, .within 0 3, 0⟩,
  ⟨0x3000, 1, 0x00, .u32, .ro, 0, .any, 0⟩,
  ⟨0x3000, 1, 0x01, .u32, .rwp, 1600, .within 400 2000, 0⟩,
  ⟨0x3000, 1, 0x02, .u32, .rwp, 0, .within 0 1600, 0⟩,
  ⟨0x3000, 1, 0x03, .bool, .ro, 0, .any, 0⟩,
  ⟨0x3000, 1, 0x04, .u32, .ro, 0, .any, 0⟩,
  ⟨0x3000, 1, 0x05, .u8, .ro, 0, .within 0 2, 0⟩,
  ⟨0x3000, 1, 0x06, .bool, .rw, 0, .any, 0⟩,
  ⟨0x3000, 1, 0x07, .u32, .ro, 0, .within 0 100000, 0⟩,
  ⟨0x3000, 1, 0x08, .bool, .rwp, 1, .any, 0⟩,
  ⟨0x3000, 1, 0x09, .u32, .ro, 0, .any, 0⟩,
  ⟨0x3000, 1, 0x0A, .u32, .ro, 0, .any, 0⟩,
  ⟨0x3000, 1, 0x0B, .u64, .ro, 0, .any, 0⟩,
  ⟨0x3000, 1, 0x0C, .u8, .ro, 0, .any, 0⟩,
  ⟨0x3000, 1, 0x0D, .u8, .ro, 0, .any, 0⟩,
  ⟨0x3000, 1, 0x0E, .u64, .ro, 0, .any, 0⟩,
  ⟨0x3001, 1, 0x00, .u32, .rwp, 1193046, .own, 0⟩,
  ⟨0x3010, 1, 0x00, .u64, .ro, 0, .any, 0⟩,
  ⟨0x3010, 1, 0x01, .bool, .rwp, 1, .any, 0⟩]

/-- Part 11 of the object tables. -/
def objects11 : List ObjDef := [
  ⟨0x3100, 20, 0x00, .u32, .ro, 0, .any, 0⟩,
  ⟨0x3100, 20, 0x01, .u32, .ro, 0, .any, 0⟩,
  ⟨0x3100, 20, 0x02, .u64, .ro, 0, .any, 0⟩,
  ⟨0x3100, 20, 0x03, .bool, .wo, 0, .any, 0⟩,
  ⟨0x3030, 1, 0x00, .fx32, .ro, 0, .any, 0⟩,
  ⟨0x3030, 1, 0x01, .u8, .rwp, 102, .within 85 104, 0⟩,
  ⟨0x3030, 1, 0x02, .u64, .ro, 0, .any, 0⟩,
  ⟨0x3040, 1, 0x00, .u8, .ro, 0, .within 0 2, 0⟩,
  ⟨0x3040, 1, 0x01, .u8, .ro, 0, .any, 0⟩,
  ⟨0x8000, 1, 0x00, .u64, .ro, 0, .any, 0⟩,
  ⟨0x8000, 1, 0x01, .u64, .ro, 0, .any, 0⟩,
  ⟨0x8000, 1, 0x02, .u64, .ro, 0, .any, 0⟩,
  ⟨0x8000, 1, 0x03, .u8, .ro, 0, .within 0 18, 0⟩,
  ⟨0x8000, 1, 0x04, .u32, .rwp, 2000, .within 100 100000, 0⟩,
  ⟨0x8000, 1, 0x05, .u32, .rwp, 64, .within 1 1000000, 0⟩,
  ⟨0x8001, 1, 0x00, .u16, .ro, 1000, .within 0 1000, 0⟩,
  ⟨0x8001, 1, 0x01, .u8, .ro, 0, .within 0 2, 0⟩,
  ⟨0x8001, 1, 0x02, .bool, .ro, 0, .any, 0⟩,
  ⟨0x8002, 1, 0x00, .u64, .ro, 0, .any, 0⟩,
  ⟨0x8010, 8, 0x00, .u8, .ro, 4, .within 0 4, 0⟩,
  ⟨0x8010, 8, 0x01, .u64, .ro, 0, .any, 0⟩,
  ⟨0x8010, 8, 0x02, .u32, .ro, 0, .any, 0⟩,
  ⟨0x8020, 1, 0x00, .domain, .ro, 0, .any, 32⟩,
  ⟨0x8100, 1, 0x00, .u16, .ro, 0, .within 0 1024, 0⟩,
  ⟨0x8100, 1, 0x01, .domain, .ro, 0, .any, 32⟩,
  ⟨0x8100, 1, 0x02, .u64, .ro, 0, .any, 0⟩,
  ⟨0x8100, 1, 0x03, .domain, .ro, 0, .any, 8192⟩,
  ⟨0x8100, 1, 0x04, .u64, .ro, 0, .any, 0⟩,
  ⟨0x8200, 1, 0x00, .u8, .rw, 0, .within 0 63, 0⟩,
  ⟨0x8200, 1, 0x01, .u16, .rw, 0, .within 0 4095, 0⟩]

/-- Part 12 of the object tables. -/
def objects12 : List ObjDef := [
  ⟨0x8200, 1, 0x02, .u64, .rw, 0, .any, 0⟩,
  ⟨0x8200, 1, 0x03, .u64, .rw, 0, .step 256 8796093022208 256, 0⟩,
  ⟨0x8200, 1, 0x04, .bool, .wo, 0, .any, 0⟩,
  ⟨0x8200, 1, 0x05, .u8, .ro, 0, .any, 0⟩,
  ⟨0x8200, 1, 0x06, .u64, .ro, 0, .any, 0⟩,
  ⟨0x8200, 1, 0x07, .domain, .ro, 0, .any, 64⟩,
  ⟨0x8300, 1, 0x00, .bool, .wo, 0, .any, 0⟩,
  ⟨0x8300, 1, 0x01, .u8, .ro, 0, .any, 0⟩,
  ⟨0x8400, 1, 0x00, .domain, .wo, 0, .any, 16777216⟩,
  ⟨0x8400, 1, 0x01, .u32, .ro, 0, .any, 0⟩,
  ⟨0x8400, 1, 0x02, .u8, .ro, 0, .any, 0⟩,
  ⟨0x8410, 9, 0x00, .u64, .wo, 0, .any, 0⟩,
  ⟨0x8500, 1, 0x00, .u8, .ro, 0, .any, 0⟩,
  ⟨0x8500, 1, 0x01, .bool, .wo, 0, .within 1 1, 0⟩,
  ⟨0x8500, 1, 0x02, .u8, .wo, 0, .within 0 7, 0⟩,
  ⟨0x8500, 1, 0x03, .u8, .wo, 0, .within 9 63, 0⟩,
  ⟨0x8500, 1, 0x04, .u16, .wo, 0, .within 0 511, 0⟩,
  ⟨0x8500, 1, 0x05, .u8, .ro, 0, .any, 0⟩,
  ⟨0x8500, 1, 0x06, .u8, .ro, 0, .within 0 3, 0⟩,
  ⟨0x8500, 1, 0x07, .u64, .ro, 0, .any, 0⟩,
  ⟨0x9000, 1, 0x00, .domain, .ro, 0, .any, 64⟩,
  ⟨0x9000, 1, 0x01, .u8, .ro, 0, .any, 0⟩,
  ⟨0x9000, 1, 0x02, .domain, .ro, 0, .any, 32⟩,
  ⟨0x9000, 1, 0x03, .domain, .ro, 0, .any, 32⟩,
  ⟨0x9000, 1, 0x04, .domain, .ro, 0, .any, 8192⟩,
  ⟨0x9000, 1, 0x05, .u8, .ro, 0, .within 0 1, 0⟩,
  ⟨0x9002, 1, 0x00, .u8, .wo, 0, .within 1 4, 0⟩,
  ⟨0x9002, 1, 0x01, .u16, .ro, 0, .within 0 256, 0⟩,
  ⟨0x9002, 1, 0x02, .u16, .ro, 0, .within 0 256, 0⟩,
  ⟨0x9002, 1, 0x03, .u16, .ro, 0, .within 0 256, 0⟩]

/-- Part 13 of the object tables. -/
def objects13 : List ObjDef := [
  ⟨0x9002, 1, 0x04, .u16, .ro, 0, .within 0 256, 0⟩,
  ⟨0x9002, 1, 0x05, .u8, .ro, 0, .any, 0⟩,
  ⟨0x9010, 4, 0x00, .domain, .ro, 0, .any, 32⟩,
  ⟨0x9020, 1, 0x00, .domain, .wo, 0, .any, 128⟩,
  ⟨0x9020, 1, 0x01, .u32, .ro, 0, .any, 0⟩,
  ⟨0x9020, 1, 0x02, .u8, .ro, 0, .any, 0⟩,
  ⟨0x9030, 1, 0x00, .domain, .wo, 0, .any, 192⟩,
  ⟨0x9030, 1, 0x01, .u8, .ro, 0, .any, 0⟩,
  ⟨0x9040, 1, 0x00, .domain, .wo, 0, .any, 4096⟩,
  ⟨0x9040, 1, 0x01, .domain, .ro, 0, .any, 4096⟩,
  ⟨0x9050, 1, 0x00, .domain, .ro, 0, .any, 64⟩,
  ⟨0x9050, 1, 0x01, .domain, .ro, 0, .any, 16384⟩,
  ⟨0x6040, 1, 0x00, .u8, .rwp, 240, .any, 0⟩]

/-- The chip overhead accounts (R101). -/
def objectsOverhead : List ObjDef := [
  ⟨0xA201, 1, 0x00, .u64, .ro, 0, .any, 0⟩,
  ⟨0xA201, 1, 0x01, .u64, .ro, 0, .any, 0⟩,
  ⟨0xA201, 1, 0x02, .u64, .ro, 0, .any, 0⟩,
  ⟨0xA201, 1, 0x03, .u64, .ro, 0, .any, 0⟩,
  ⟨0xA201, 1, 0x04, .u64, .ro, 0, .any, 0⟩,
  ⟨0xA201, 1, 0x05, .u64, .ro, 0, .any, 0⟩,
  ⟨0xA201, 1, 0x06, .u64, .ro, 0, .any, 0⟩,
  ⟨0xA201, 1, 0x07, .u64, .ro, 0, .any, 0⟩,
  ⟨0xA201, 1, 0x08, .u64, .ro, 0, .any, 0⟩,
  ⟨0xA201, 1, 0x09, .u64, .ro, 0, .any, 0⟩]

/-- Every object of the dictionary (R477). -/
def objectTable : List ObjDef :=
  objects0 ++ objects1 ++ objects2 ++ objects3 ++ objects4 ++ objects5 ++ objects6 ++ objects7 ++ objects8 ++ objects9 ++ objects10 ++ objects11 ++ objects12 ++ objects13 ++ objectsOverhead


namespace Reg

/-- STC_NOW 0x2000:00 (R57). -/
def stcNow : Nat := key 0x2000 0x00

/-- STC_FRAC 0x2000:01 (R57). -/
def stcFrac : Nat := key 0x2000 0x01

/-- LNC_NOW 0x2000:02 (R57). -/
def lncNow : Nat := key 0x2000 0x02

/-- TIME_STATE 0x2001:00 (R57). -/
def timeState : Nat := key 0x2001 0x00

/-- STEP_DONE 0x2001:01 (R57). -/
def stepDone : Nat := key 0x2001 0x01

/-- STEPS_REFUSED 0x2001:02 (R57). -/
def stepsRefused : Nat := key 0x2001 0x02

/-- BENCH_GRADE 0x2001:03 (R57). -/
def benchGrade : Nat := key 0x2001 0x03

/-- TIME_SOURCE 0x2002:00 (R57). -/
def timeSource : Nat := key 0x2002 0x00

/-- PTP_PORT 0x2002:01 (R57). -/
def ptpPort : Nat := key 0x2002 0x01

/-- FREQ_SOURCE 0x2002:02 (R57). -/
def freqSource : Nat := key 0x2002 0x02

/-- SYNCE_PORT 0x2002:03 (R57). -/
def syncePort : Nat := key 0x2002 0x03

/-- ZFL_UPSTREAM 0x2002:04 (R57). -/
def zflUpstream : Nat := key 0x2002 0x04

/-- INCREMENT 0x2003:00 (R57). -/
def increment : Nat := key 0x2003 0x00

/-- SERVO_ENABLE 0x2003:01 (R57). -/
def servoEnable : Nat := key 0x2003 0x01

/-- SLEW_LIMIT 0x2003:02 (R57). -/
def slewLimit : Nat := key 0x2003 0x02

/-- STEP_THRESHOLD 0x2003:03 (R57). -/
def stepThreshold : Nat := key 0x2003 0x03

/-- STEP_REQUEST 0x2003:04 (R57). -/
def stepRequest : Nat := key 0x2003 0x04

/-- SOURCE_OFFSET 0x2004:00 (R57). -/
def sourceOffset : Nat := key 0x2004 0x00

/-- FREQ_ADJ 0x2004:01 (R57). -/
def freqAdj : Nat := key 0x2004 0x01

/-- PTP_DOMAIN 0x2005:00 (R57). -/
def ptpDomain : Nat := key 0x2005 0x00

/-- PTP_PRIORITY2 0x2005:01 (R57). -/
def ptpPriority2 : Nat := key 0x2005 0x01

/-- PPS_TOD 0x2006:00 (R57). -/
def ppsTod : Nat := key 0x2006 0x00

/-- TT_START 0x2100+n:00 (R57). -/
def ttStart (n : Nat) : Nat := key (0x2100 + n) 0x00

/-- TT_PERIOD 0x2100+n:01 (R57). -/
def ttPeriod (n : Nat) : Nat := key (0x2100 + n) 0x01

/-- TT_WIDTH 0x2100+n:02 (R57). -/
def ttWidth (n : Nat) : Nat := key (0x2100 + n) 0x02

/-- TT_COUNT 0x2100+n:03 (R57). -/
def ttCount (n : Nat) : Nat := key (0x2100 + n) 0x03

/-- TT_ARM 0x2100+n:04 (R57). -/
def ttArm (n : Nat) : Nat := key (0x2100 + n) 0x04

/-- TT_POLARITY 0x2100+n:05 (R57). -/
def ttPolarity (n : Nat) : Nat := key (0x2100 + n) 0x05

/-- TT_EMITTED 0x2100+n:06 (R57). -/
def ttEmitted (n : Nat) : Nat := key (0x2100 + n) 0x06

/-- TC_ENABLE 0x2110+n:00 (R57). -/
def tcEnable (n : Nat) : Nat := key (0x2110 + n) 0x00

/-- TC_EDGE 0x2110+n:01 (R57). -/
def tcEdge (n : Nat) : Nat := key (0x2110 + n) 0x01

/-- TC_POP 0x2110+n:02 (R57). -/
def tcPop (n : Nat) : Nat := key (0x2110 + n) 0x02

/-- TC_DEPTH 0x2110+n:03 (R57). -/
def tcDepth (n : Nat) : Nat := key (0x2110 + n) 0x03

/-- TC_OVERFLOW 0x2110+n:04 (R57). -/
def tcOverflow (n : Nat) : Nat := key (0x2110 + n) 0x04

/-- PLL_HORIZON 0x2200:00 (R57). -/
def pllHorizon : Nat := key 0x2200 0x00

/-- PREEMPT_LEAD 0x4001:00 (R105). -/
def preemptLead : Nat := key 0x4001 0x00

/-- MIN_BORROW_GAP 0x4001:01 (R105). -/
def minBorrowGap : Nat := key 0x4001 0x01

/-- BE_SLICE 0x4002:00 (R105). -/
def beSlice : Nat := key 0x4002 0x00

/-- DELAY_REPORT 0x4002:01 (R105). -/
def delayReport : Nat := key 0x4002 0x01

/-- STAGGER_DEFERRALS 0x4004:00 (R105). -/
def staggerDeferrals : Nat := key 0x4004 0x00

/-- KIND 0x4100+p:00 (R105). -/
def partKind (n : Nat) : Nat := key (0x4100 + n) 0x00

/-- OWNER 0x4100+p:01 (R105). -/
def partOwner (n : Nat) : Nat := key (0x4100 + n) 0x01

/-- TILES 0x4100+p:02 (R105). -/
def partTiles (n : Nat) : Nat := key (0x4100 + n) 0x02

/-- CLUSTER_MASK 0x4100+p:03 (R105). -/
def partClusterMask (n : Nat) : Nat := key (0x4100 + n) 0x03

/-- RESIZE_TILES 0x4100+p:04 (R105). -/
def partResizeTiles (n : Nat) : Nat := key (0x4100 + n) 0x04

/-- RESIZE_LNC 0x4100+p:05 (R105). -/
def partResizeLnc (n : Nat) : Nat := key (0x4100 + n) 0x05

/-- RESIZE_STATUS 0x4100+p:06 (R105). -/
def partResizeStatus (n : Nat) : Nat := key (0x4100 + n) 0x06

/-- CONSENT_LNC 0x4100+p:07 (R105). -/
def partConsentLnc (n : Nat) : Nat := key (0x4100 + n) 0x07

/-- RESERVED_SLOTS 0x4100+p:08 (R105). -/
def partReservedSlots (n : Nat) : Nat := key (0x4100 + n) 0x08

/-- LOAN_PAGES 0x4100+p:09 (R105). -/
def partLoanPages (n : Nat) : Nat := key (0x4100 + n) 0x09

/-- BE_WEIGHT 0x4400+f:00 (R105). -/
def beWeight (n : Nat) : Nat := key (0x4400 + n) 0x00

/-- BE_MAX_WAIT 0x4400+f:01 (R105). -/
def beMaxWait (n : Nat) : Nat := key (0x4400 + n) 0x01

/-- Counters 0xA000+f:00 (R105). -/
def accCounter (n : Nat) (k : Nat) : Nat := key (0xA000 + n) (0x00 + k)

/-- SNAP_REQUEST 0xA000+f:0A (R105). -/
def accSnapRequest (n : Nat) : Nat := key (0xA000 + n) 0x0A

/-- SNAP_READ 0xA000+f:0B (R105). -/
def accSnapRead (n : Nat) : Nat := key (0xA000 + n) 0x0B

/-- SNAP_LOST 0xA000+f:0C (R105). -/
def accSnapLost (n : Nat) : Nat := key (0xA000 + n) 0x0C

/-- SIGN_ENABLE 0xA000+f:0D (R105). -/
def accSignEnable (n : Nat) : Nat := key (0xA000 + n) 0x0D

/-- DETERMINISM_MODE 0x4010:00 (R229). -/
def determinismMode : Nat := key 0x4010 0x00

/-- FORBIDDEN_REFUSALS 0x4010:01 (R229). -/
def forbiddenRefusals : Nat := key 0x4010 0x01

/-- CATALOGUE_VERSION 0x4010:02 (R229). -/
def catalogueVersion : Nat := key 0x4010 0x02

/-- SWAP_SHARE 0x4100+p:0A (R262). -/
def partSwapShare (n : Nat) : Nat := key (0x4100 + n) 0x0A

/-- MONITOR_MARGIN 0x4700:00 (R262). -/
def monitorMargin : Nat := key 0x4700 0x00

/-- FLAG_FALLS 0x4700:01 (R262). -/
def flagFalls : Nat := key 0x4700 0x01

/-- SLOT_STATE 0x4800+m:00 (R262). -/
def slotState (n : Nat) : Nat := key (0x4800 + n) 0x00

/-- OWNER 0x4800+m:01 (R262). -/
def slotOwner (n : Nat) : Nat := key (0x4800 + n) 0x01

/-- PARTITION 0x4800+m:02 (R262). -/
def slotPartition (n : Nat) : Nat := key (0x4800 + n) 0x02

/-- BATCH 0x4800+m:03 (R262). -/
def slotBatch (n : Nat) : Nat := key (0x4800 + n) 0x03

/-- TILES 0x4800+m:04 (R262). -/
def slotTiles (n : Nat) : Nat := key (0x4800 + n) 0x04

/-- FALLBACK_SLOT 0x4800+m:05 (R262). -/
def slotFallbackSlot (n : Nat) : Nat := key (0x4800 + n) 0x05

/-- MANIFEST_DIGEST 0x4800+m:06 (R262). -/
def slotManifestDigest (n : Nat) : Nat := key (0x4800 + n) 0x06

/-- WEIGHT_BYTES 0x4800+m:07 (R262). -/
def slotWeightBytes (n : Nat) : Nat := key (0x4800 + n) 0x07

/-- INVOCATIONS 0x4800+m:08 (R262). -/
def slotInvocations (n : Nat) : Nat := key (0x4800 + n) 0x08

/-- SLOT_FLAG_FALLS 0x4800+m:09 (R262). -/
def slotFlagFalls (n : Nat) : Nat := key (0x4800 + n) 0x09

/-- FALLBACK_SERVED 0x4800+m:0A (R262). -/
def slotFallbackServed (n : Nat) : Nat := key (0x4800 + n) 0x0A

/-- GATE_DROPPED 0x4800+m:0B (R262). -/
def slotGateDropped (n : Nat) : Nat := key (0x4800 + n) 0x0B

/-- GATE_REROUTED 0x4800+m:0C (R262). -/
def slotGateRerouted (n : Nat) : Nat := key (0x4800 + n) 0x0C

/-- SERVICE_SUM 0x4800+m:0D (R262). -/
def slotServiceSum (n : Nat) : Nat := key (0x4800 + n) 0x0D

/-- CLUSTER 0x5400+c:01 (R295). -/
def cellCluster (n : Nat) : Nat := key (0x5400 + n) 0x01

/-- NUMEROLOGY 0x5400+c:02 (R295). -/
def cellNumerology (n : Nat) : Nat := key (0x5400 + n) 0x02

/-- BANDWIDTH 0x5400+c:03 (R295). -/
def cellBandwidth (n : Nat) : Nat := key (0x5400 + n) 0x03

/-- PATHS 0x5400+c:04 (R295). -/
def cellPaths (n : Nat) : Nat := key (0x5400 + n) 0x04

/-- LAYERS 0x5400+c:05 (R295). -/
def cellLayers (n : Nat) : Nat := key (0x5400 + n) 0x05

/-- UNITS 0x5400+c:06 (R295). -/
def cellUnits (n : Nat) : Nat := key (0x5400 + n) 0x06

/-- FRAME_OFFSET 0x5400+c:07 (R295). -/
def cellFrameOffset (n : Nat) : Nat := key (0x5400 + n) 0x07

/-- T1A_MAX 0x5400+c:08 (R295). -/
def cellT1aMax (n : Nat) : Nat := key (0x5400 + n) 0x08

/-- TA4_MAX 0x5400+c:09 (R295). -/
def cellTa4Max (n : Nat) : Nat := key (0x5400 + n) 0x09

/-- EXTRA_LEAD 0x5400+c:0A (R295). -/
def cellExtraLead (n : Nat) : Nat := key (0x5400 + n) 0x0A

/-- RU_CATEGORY 0x5400+c:0B (R295). -/
def cellRuCategory (n : Nat) : Nat := key (0x5400 + n) 0x0B

/-- PREC_TABLE 0x5400+c:0C (R295). -/
def cellPrecTable (n : Nat) : Nat := key (0x5400 + n) 0x0C

/-- SOFTBUF_PAGES 0x5400+c:0D (R295). -/
def cellSoftbufPages (n : Nat) : Nat := key (0x5400 + n) 0x0D

/-- PDUS_DROPPED 0x5400+c:0E (R295). -/
def cellPdusDropped (n : Nat) : Nat := key (0x5400 + n) 0x0E

/-- CELL_STATE 0x5400+c:00 (R325). -/
def cellState (n : Nat) : Nat := key (0x5400 + n) 0x00

/-- CELL_CMD 0x5400+c:10 (R325). -/
def cellCmd (n : Nat) : Nat := key (0x5400 + n) 0x10

/-- CMD_FRAME 0x5400+c:11 (R325). -/
def cellCmdFrame (n : Nat) : Nat := key (0x5400 + n) 0x11

/-- CMD_STATUS 0x5400+c:12 (R325). -/
def cellCmdStatus (n : Nat) : Nat := key (0x5400 + n) 0x12

/-- EVENT_RING 0x5400+c:13 (R325). -/
def cellEventRing (n : Nat) : Nat := key (0x5400 + n) 0x13

/-- HOLD_SOURCE 0x5400+c:14 (R325). -/
def cellHoldSource (n : Nat) : Nat := key (0x5400 + n) 0x14

/-- MISSED_LIMIT 0x5400+c:15 (R325). -/
def cellMissedLimit (n : Nat) : Nat := key (0x5400 + n) 0x15

/-- MOVE_PEER 0x5400+c:16 (R325). -/
def cellMovePeer (n : Nat) : Nat := key (0x5400 + n) 0x16

/-- MOVE_CELL 0x5400+c:17 (R325). -/
def cellMoveCell (n : Nat) : Nat := key (0x5400 + n) 0x17

/-- MOVE_H 0x5400+c:18 (R325). -/
def cellMoveH (n : Nat) : Nat := key (0x5400 + n) 0x18

/-- HELD_SLOTS 0x5400+c:19 (R325). -/
def cellHeldSlots (n : Nat) : Nat := key (0x5400 + n) 0x19

/-- MISSED_ORDERS 0x5400+c:1A (R325). -/
def cellMissedOrders (n : Nat) : Nat := key (0x5400 + n) 0x1A

/-- RERUNS 0x5400+c:1B (R325). -/
def cellReruns (n : Nat) : Nat := key (0x5400 + n) 0x1B

/-- CONDUCTOR 0x5400+c:1C (R325). -/
def cellConductor (n : Nat) : Nat := key (0x5400 + n) 0x1C

/-- DEPTH_BIN0 to DEPTH_BIN15 0x6400+n:00 (R352). -/
def telDepthBin (n : Nat) (k : Nat) : Nat := key (0x6400 + n) (0x00 + k)

/-- DELAY_BIN0 to DELAY_BIN15 0x6400+n:10 (R352). -/
def telDelayBin (n : Nat) (k : Nat) : Nat := key (0x6400 + n) (0x10 + k)

/-- DEPTH_MAX 0x6400+n:20 (R352). -/
def telDepthMax (n : Nat) : Nat := key (0x6400 + n) 0x20

/-- DELAY_MAX 0x6400+n:21 (R352). -/
def telDelayMax (n : Nat) : Nat := key (0x6400 + n) 0x21

/-- FRAMES 0x6400+n:22 (R352). -/
def telFrames (n : Nat) : Nat := key (0x6400 + n) 0x22

/-- BYTES 0x6400+n:23 (R352). -/
def telBytes (n : Nat) : Nat := key (0x6400 + n) 0x23

/-- CLEAR 0x6400+n:24 (R352). -/
def telClear (n : Nat) : Nat := key (0x6400 + n) 0x24

/-- CREDIT 0x6400+n:25 (R352). -/
def telCredit (n : Nat) : Nat := key (0x6400 + n) 0x25

/-- PORT_MODE 0x6000+p:00 (R353). -/
def portMode (n : Nat) : Nat := key (0x6000 + n) 0x00

/-- PORT_STATUS 0x6000+p:01 (R353). -/
def portStatus (n : Nat) : Nat := key (0x6000 + n) 0x01

/-- MAC_ADDR 0x6000+p:02 (R353). -/
def portMacAddr (n : Nat) : Nat := key (0x6000 + n) 0x02

/-- PMD 0x6000+p:03 (R353). -/
def portPmd (n : Nat) : Nat := key (0x6000 + n) 0x03

/-- EAXC_WIDTHS 0x6000+p:04 (R353). -/
def portEaxcWidths (n : Nat) : Nat := key (0x6000 + n) 0x04

/-- DEFAULT_RING 0x6000+p:05 (R353). -/
def portDefaultRing (n : Nat) : Nat := key (0x6000 + n) 0x05

/-- DEFAULT_RATE 0x6000+p:06 (R353). -/
def portDefaultRate (n : Nat) : Nat := key (0x6000 + n) 0x06

/-- DEFAULT_BURST 0x6000+p:07 (R353). -/
def portDefaultBurst (n : Nat) : Nat := key (0x6000 + n) 0x07

/-- IDLE_SLOPE_Q8 to _Q12 0x6000+p:08 (R353). -/
def portIdleSlope (n : Nat) (k : Nat) : Nat := key (0x6000 + n) (0x08 + k)

/-- HI_CREDIT_Q8 to _Q12 0x6000+p:0D (R353). -/
def portHiCredit (n : Nat) (k : Nat) : Nat := key (0x6000 + n) (0x0D + k)

/-- QUANTUM_Q0 to _Q7 0x6000+p:12 (R353). -/
def portQuantum (n : Nat) (k : Nat) : Nat := key (0x6000 + n) (0x12 + k)

/-- DEPTH_UNIT 0x6000+p:1A (R353). -/
def portDepthUnit (n : Nat) : Nat := key (0x6000 + n) 0x1A

/-- DELAY_UNIT 0x6000+p:1B (R353). -/
def portDelayUnit (n : Nat) : Nat := key (0x6000 + n) 0x1B

/-- RX_UNMATCHED 0x6000+p:1C (R353). -/
def portRxUnmatched (n : Nat) : Nat := key (0x6000 + n) 0x1C

/-- RX_BAD 0x6000+p:1D (R353). -/
def portRxBad (n : Nat) : Nat := key (0x6000 + n) 0x1D

/-- LINK_DISCARDS 0x6000+p:1E (R353). -/
def portLinkDiscards (n : Nat) : Nat := key (0x6000 + n) 0x1E

/-- HOST_FLOW 0x6200+h:00 (R353). -/
def flowHostFlow (n : Nat) : Nat := key (0x6200 + n) 0x00

/-- HOST_POLICED 0x6200+h:01 (R353). -/
def flowHostPoliced (n : Nat) : Nat := key (0x6200 + n) 0x01

/-- FH_PORT 0x6100+c:00 (R355). -/
def bindFhPort (n : Nat) : Nat := key (0x6100 + n) 0x00

/-- VLAN_TAG 0x6100+c:01 (R355). -/
def bindVlanTag (n : Nat) : Nat := key (0x6100 + n) 0x01

/-- EAXC_DL 0x6100+c:02 (R355). -/
def bindEaxcDl (n : Nat) : Nat := key (0x6100 + n) 0x02

/-- EAXC_UL 0x6100+c:03 (R355). -/
def bindEaxcUl (n : Nat) : Nat := key (0x6100 + n) 0x03

/-- EAXC_PRACH 0x6100+c:04 (R355). -/
def bindEaxcPrach (n : Nat) : Nat := key (0x6100 + n) 0x04

/-- STREAMS 0x6100+c:05 (R355). -/
def bindStreams (n : Nat) : Nat := key (0x6100 + n) 0x05

/-- COMP_METHOD 0x6100+c:06 (R355). -/
def bindCompMethod (n : Nat) : Nat := key (0x6100 + n) 0x06

/-- IQ_WIDTH 0x6100+c:07 (R355). -/
def bindIqWidth (n : Nat) : Nat := key (0x6100 + n) 0x07

/-- COMP_HDR_MODE 0x6100+c:08 (R355). -/
def bindCompHdrMode (n : Nat) : Nat := key (0x6100 + n) 0x08

/-- T1A_MIN_UP 0x6100+c:09 (R355). -/
def bindT1aMinUp (n : Nat) : Nat := key (0x6100 + n) 0x09

/-- TCP_ADV_DL 0x6100+c:0A (R355). -/
def bindTcpAdvDl (n : Nat) : Nat := key (0x6100 + n) 0x0A

/-- T1A_MIN_CP_DL 0x6100+c:0B (R355). -/
def bindT1aMinCpDl (n : Nat) : Nat := key (0x6100 + n) 0x0B

/-- T1A_MIN_CP_UL 0x6100+c:0C (R355). -/
def bindT1aMinCpUl (n : Nat) : Nat := key (0x6100 + n) 0x0C

/-- T1A_MAX_CP_UL 0x6100+c:0D (R355). -/
def bindT1aMaxCpUl (n : Nat) : Nat := key (0x6100 + n) 0x0D

/-- TA4_MIN 0x6100+c:0E (R355). -/
def bindTa4Min (n : Nat) : Nat := key (0x6100 + n) 0x0E

/-- SEND_CHINFO 0x6100+c:0F (R355). -/
def bindSendChinfo (n : Nat) : Nat := key (0x6100 + n) 0x0F

/-- DELAY_MEAS_PERIOD 0x6100+c:10 (R355). -/
def bindDelayMeasPeriod (n : Nat) : Nat := key (0x6100 + n) 0x10

/-- RU_DELAY 0x6100+c:11 (R355). -/
def bindRuDelay (n : Nat) : Nat := key (0x6100 + n) 0x11

/-- UL_EARLY 0x6100+c:12 (R355). -/
def bindUlEarly (n : Nat) : Nat := key (0x6100 + n) 0x12

/-- UL_LATE 0x6100+c:13 (R355). -/
def bindUlLate (n : Nat) : Nat := key (0x6100 + n) 0x13

/-- DL_LATE 0x6100+c:14 (R355). -/
def bindDlLate (n : Nat) : Nat := key (0x6100 + n) 0x14

/-- POLICED 0x6100+c:15 (R355). -/
def bindPoliced (n : Nat) : Nat := key (0x6100 + n) 0x15

/-- SEQ_GAPS 0x6100+c:16 (R355). -/
def bindSeqGaps (n : Nat) : Nat := key (0x6100 + n) 0x16

/-- HELD_DROPS 0x6100+c:17 (R355). -/
def bindHeldDrops (n : Nat) : Nat := key (0x6100 + n) 0x17

/-- CACHE_WAYS 0x4100+p:0B (R376). -/
def partCacheWays (n : Nat) : Nat := key (0x4100 + n) 0x0B

/-- GDDR7_DEVICES 0x7000:00 (R376). -/
def gddr7Devices : Nat := key 0x7000 0x00

/-- GDDR7_RATE 0x7000:01 (R376). -/
def gddr7Rate : Nat := key 0x7000 0x01

/-- GDDR7_DENSITY 0x7000:02 (R376). -/
def gddr7Density : Nat := key 0x7000 0x02

/-- GDDR7_DATA_BYTES 0x7000:04 (R376). -/
def gddr7DataBytes : Nat := key 0x7000 0x04

/-- TRAIN_STATUS 0x7000:05 (R376). -/
def trainStatus : Nat := key 0x7000 0x05

/-- RADIO_GDDR7_PAGES 0x7000:06 (R376). -/
def radioGddr7Pages : Nat := key 0x7000 0x06

/-- RETIRED_PAGES 0x7000:07 (R376). -/
def retiredPages : Nat := key 0x7000 0x07

/-- SRAM_SCRUB_PERIOD 0x7001:00 (R376). -/
def sramScrubPeriod : Nat := key 0x7001 0x00

/-- GDDR7_SCRUB_PERIOD 0x7001:01 (R376). -/
def gddr7ScrubPeriod : Nat := key 0x7001 0x01

/-- CRC_RETRIES 0x7010+d:00 (R376). -/
def gdevCrcRetries (n : Nat) : Nat := key (0x7010 + n) 0x00

/-- CORRECTED 0x7010+d:01 (R376). -/
def gdevCorrected (n : Nat) : Nat := key (0x7010 + n) 0x01

/-- UNCORRECTABLE 0x7010+d:02 (R376). -/
def gdevUncorrectable (n : Nat) : Nat := key (0x7010 + n) 0x02

/-- RETRAIN_LNC 0x7010+d:03 (R376). -/
def gdevRetrainLnc (n : Nat) : Nat := key (0x7010 + n) 0x03

/-- RETRAIN_STATUS 0x7010+d:04 (R376). -/
def gdevRetrainStatus (n : Nat) : Nat := key (0x7010 + n) 0x04

/-- GDDR7_QUOTA 0x7800+f:00 (R376). -/
def fnqGddr7Quota (n : Nat) : Nat := key (0x7800 + n) 0x00

/-- GDDR7_USED 0x7800+f:01 (R376). -/
def fnqGddr7Used (n : Nat) : Nat := key (0x7800 + n) 0x01

/-- NODE_ID 0x7300:00 (R409). -/
def nodeId : Nat := key 0x7300 0x00

/-- QUAD_PEERS 0x7300:01 (R409). -/
def quadPeers : Nat := key 0x7300 0x01

/-- QUAD_STATUS 0x7300:02 (R409). -/
def quadStatus : Nat := key 0x7300 0x02

/-- FABRIC_ETHERTYPE 0x7300:03 (R409). -/
def fabricEthertype : Nat := key 0x7300 0x03

/-- HB_PERIOD 0x7300:04 (R409). -/
def hbPeriod : Nat := key 0x7300 0x04

/-- HB_MISS 0x7300:05 (R409). -/
def hbMiss : Nat := key 0x7300 0x05

/-- REQ_TIMEOUT 0x7300:06 (R409). -/
def reqTimeout : Nat := key 0x7300 0x06

/-- TEARDOWN_TIMEOUT 0x7300:07 (R409). -/
def teardownTimeout : Nat := key 0x7300 0x07

/-- ROUTES 0x7300:08 (R409). -/
def routes : Nat := key 0x7300 0x08

/-- VC_PCP 0x7300:09 (R409). -/
def vcPcp : Nat := key 0x7300 0x09

/-- NO_JOB_DROPS 0x7300:0A (R409). -/
def noJobDrops : Nat := key 0x7300 0x0A

/-- DEAD_SET 0x7301:00 (R409). -/
def deadSet : Nat := key 0x7301 0x00

/-- READMIT 0x7301:01 (R409). -/
def readmit : Nat := key 0x7301 0x01

/-- DEAD_DECLARED 0x7301:02 (R409). -/
def deadDeclared : Nat := key 0x7301 0x02

/-- LINK_MODE 0x7320+L:00 (R409). -/
def linkMode (n : Nat) : Nat := key (0x7320 + n) 0x00

/-- LINK_STATUS 0x7320+L:01 (R409). -/
def linkStatus (n : Nat) : Nat := key (0x7320 + n) 0x01

/-- LINK_PEER 0x7320+L:02 (R409). -/
def linkPeer (n : Nat) : Nat := key (0x7320 + n) 0x02

/-- MAC_ADDR 0x7320+L:03 (R409). -/
def linkMacAddr (n : Nat) : Nat := key (0x7320 + n) 0x03

/-- FLIT_REPLAYS 0x7320+L:04 (R409). -/
def linkFlitReplays (n : Nat) : Nat := key (0x7320 + n) 0x04

/-- RETRAINS 0x7320+L:05 (R409). -/
def linkRetrains (n : Nat) : Nat := key (0x7320 + n) 0x05

/-- JOB_ID 0x7400+j:00 (R409). -/
def jobId (n : Nat) : Nat := key (0x7400 + n) 0x00

/-- JOB_CLASS 0x7400+j:01 (R409). -/
def jobClass (n : Nat) : Nat := key (0x7400 + n) 0x01

/-- JOB_OWNER 0x7400+j:02 (R409). -/
def jobOwner (n : Nat) : Nat := key (0x7400 + n) 0x02

/-- RANK 0x7400+j:03 (R409). -/
def jobRank (n : Nat) : Nat := key (0x7400 + n) 0x03

/-- CHIPS 0x7400+j:04 (R409). -/
def jobChips (n : Nat) : Nat := key (0x7400 + n) 0x04

/-- RANK_MAP 0x7400+j:05 (R409). -/
def jobRankMap (n : Nat) : Nat := key (0x7400 + n) 0x05

/-- APPLY_LNC 0x7400+j:06 (R409). -/
def jobApplyLnc (n : Nat) : Nat := key (0x7400 + n) 0x06

/-- JOB_STATE 0x7400+j:07 (R409). -/
def jobState (n : Nat) : Nat := key (0x7400 + n) 0x07

/-- TEARDOWN 0x7400+j:08 (R409). -/
def jobTeardown (n : Nat) : Nat := key (0x7400 + n) 0x08

/-- FAULT_CAUSE 0x7400+j:09 (R409). -/
def jobFaultCause (n : Nat) : Nat := key (0x7400 + n) 0x09

/-- NCRO_WINDOWS 0x7400+j:0A (R409). -/
def jobNcroWindows (n : Nat) : Nat := key (0x7400 + n) 0x0A

/-- NCRO_DROP 0x7400+j:0B (R409). -/
def jobNcroDrop (n : Nat) : Nat := key (0x7400 + n) 0x0B

/-- REPLAYED 0x7400+j:0C (R409). -/
def jobReplayed (n : Nat) : Nat := key (0x7400 + n) 0x0C

/-- RETRIES 0x7400+j:0D (R409). -/
def jobRetries (n : Nat) : Nat := key (0x7400 + n) 0x0D

/-- SYNC_FREE 0x4900:00 (R429). -/
def syncFree : Nat := key 0x4900 0x00

/-- STALEMATE_WINDOW 0x4900:01 (R429). -/
def stalemateWindow : Nat := key 0x4900 0x01

/-- STALEMATES 0x4900:02 (R429). -/
def stalemates : Nat := key 0x4900 0x02

/-- STALEMATE_RECORD 0x4900:03 (R429). -/
def stalemateRecord : Nat := key 0x4900 0x03

/-- SYNC_QUOTA 0x4A00+f:00 (R429). -/
def sqSyncQuota (n : Nat) : Nat := key (0x4A00 + n) 0x00

/-- SYNC_USED 0x4A00+f:01 (R429). -/
def sqSyncUsed (n : Nat) : Nat := key (0x4A00 + n) 0x01

/-- DIRTY_COUNT 0x4A00+f:02 (R429). -/
def sqDirtyCount (n : Nat) : Nat := key (0x4A00 + n) 0x02

/-- WINDOW_FUNCTION 0x1010:00 (R459). -/
def windowFunction : Nat := key 0x1010 0x00

/-- FUNCTION_STATE 0xB000:00 (R459). -/
def functionState (f : Nat) : Nat := funcKey f 0xB000 0x00

/-- FUNCTION_ENABLE 0xB000:01 (R459). -/
def functionEnable (f : Nat) : Nat := funcKey f 0xB000 0x01

/-- RING_BASE 0xB100+r:00 (R459). -/
def ringBase (f : Nat) (n : Nat) : Nat := funcKey f (0xB100 + n) 0x00

/-- RING_SIZE 0xB100+r:01 (R459). -/
def ringSize (f : Nat) (n : Nat) : Nat := funcKey f (0xB100 + n) 0x01

/-- RING_KIND 0xB100+r:02 (R459). -/
def ringKind (f : Nat) (n : Nat) : Nat := funcKey f (0xB100 + n) 0x02

/-- FETCH_PERIOD 0xB100+r:03 (R459). -/
def ringFetchPeriod (f : Nat) (n : Nat) : Nat := funcKey f (0xB100 + n) 0x03

/-- COMPLETION_RING 0xB100+r:04 (R459). -/
def ringCompletionRing (f : Nat) (n : Nat) : Nat := funcKey f (0xB100 + n) 0x04

/-- MSIX_VECTOR 0xB100+r:05 (R459). -/
def ringMsixVector (f : Nat) (n : Nat) : Nat := funcKey f (0xB100 + n) 0x05

/-- MOD_COUNT 0xB100+r:06 (R459). -/
def ringModCount (f : Nat) (n : Nat) : Nat := funcKey f (0xB100 + n) 0x06

/-- MOD_TIME 0xB100+r:07 (R459). -/
def ringModTime (f : Nat) (n : Nat) : Nat := funcKey f (0xB100 + n) 0x07

/-- RING_STATUS 0xB100+r:08 (R459). -/
def ringStatus (f : Nat) (n : Nat) : Nat := funcKey f (0xB100 + n) 0x08

/-- FETCHES_SKIPPED 0xB100+r:09 (R459). -/
def ringFetchesSkipped (f : Nat) (n : Nat) : Nat := funcKey f (0xB100 + n) 0x09

/-- RX_NO_BUFFER 0xB100+r:0A (R459). -/
def ringRxNoBuffer (f : Nat) (n : Nat) : Nat := funcKey f (0xB100 + n) 0x0A

/-- CTX_ENABLE 0xB200+x:00 (R459). -/
def ctxEnable (f : Nat) (n : Nat) : Nat := funcKey f (0xB200 + n) 0x00

/-- CTX_CLASS 0xB200+x:01 (R459). -/
def ctxClass (f : Nat) (n : Nat) : Nat := funcKey f (0xB200 + n) 0x01

/-- CTX_PASID 0xB200+x:02 (R459). -/
def ctxPasid (f : Nat) (n : Nat) : Nat := funcKey f (0xB200 + n) 0x02

/-- PART_NAME 0x1000:00 (R478). -/
def partName : Nat := key 0x1000 0x00

/-- SILICON_REV 0x1000:01 (R478). -/
def siliconRev : Nat := key 0x1000 0x01

/-- SERIAL 0x1000:02 (R478). -/
def serial : Nat := key 0x1000 0x02

/-- FW_VERSION 0x1000:03 (R478). -/
def fwVersion : Nat := key 0x1000 0x03

/-- BOOT_COUNT 0x1000:04 (R478). -/
def bootCount : Nat := key 0x1000 0x04

/-- MG_MODE 0x1001:00 (R478). -/
def mgMode : Nat := key 0x1001 0x00

/-- MG_MAC 0x1001:01 (R478). -/
def mgMac : Nat := key 0x1001 0x01

/-- MG_IPV4 0x1001:02 (R478). -/
def mgIpv4 : Nat := key 0x1001 0x02

/-- MG_NETMASK 0x1001:03 (R478). -/
def mgNetmask : Nat := key 0x1001 0x03

/-- MG_GATEWAY 0x1001:04 (R478). -/
def mgGateway : Nat := key 0x1001 0x04

/-- HDP_PORT 0x1001:05 (R478). -/
def hdpPort : Nat := key 0x1001 0x05

/-- MG_LINK 0x1001:06 (R478). -/
def mgLink : Nat := key 0x1001 0x06

/-- SESSIONS_OPEN 0x1002:00 (R478). -/
def sessionsOpen : Nat := key 0x1002 0x00

/-- SESSION_IDLE 0x1002:01 (R478). -/
def sessionIdle : Nat := key 0x1002 0x01

/-- AUTH_FAILURES 0x1002:02 (R478). -/
def authFailures : Nat := key 0x1002 0x02

/-- FRAMES_DROPPED 0x1002:03 (R478). -/
def framesDropped : Nat := key 0x1002 0x03

/-- NOTIFY_DEPTH 0x1020:00 (R478). -/
def notifyDepth : Nat := key 0x1020 0x00

/-- NOTIFY_POP 0x1020:01 (R478). -/
def notifyPop : Nat := key 0x1020 0x01

/-- STORE_USED 0x1030:00 (R478). -/
def storeUsed : Nat := key 0x1030 0x00

/-- STORE_COMMITS 0x1030:01 (R478). -/
def storeCommits : Nat := key 0x1030 0x01

/-- ENDURANCE_WARNINGS 0x1030:02 (R478). -/
def enduranceWarnings : Nat := key 0x1030 0x02

/-- RATE_REFUSALS 0x1030:03 (R478). -/
def rateRefusals : Nat := key 0x1030 0x03

/-- BOOK_SCRIPT 0x1040:00 (R478). -/
def bookScript : Nat := key 0x1040 0x00

/-- BOOK_STATUS 0x1040:01 (R478). -/
def bookStatus : Nat := key 0x1040 0x01

/-- BOOK_FAIL_ITEM 0x1040:02 (R478). -/
def bookFailItem : Nat := key 0x1040 0x02

/-- BOOK_DIGEST 0x1040:03 (R478). -/
def bookDigest : Nat := key 0x1040 0x03

/-- PEER_KEY 0x9100+k:00 (R489). -/
def peerKey (n : Nat) : Nat := key (0x9100 + n) 0x00

/-- PEER_ROLE 0x9100+k:01 (R489). -/
def peerRole (n : Nat) : Nat := key (0x9100 + n) 0x01

/-- PKG_POWER 0x3000:00 (R516). -/
def pkgPower : Nat := key 0x3000 0x00

/-- POWER_CAP 0x3000:01 (R516). -/
def powerCap : Nat := key 0x3000 0x01

/-- RADIO_FLOOR 0x3000:02 (R516). -/
def radioFloor : Nat := key 0x3000 0x02

/-- CAP_UNMET 0x3000:03 (R516). -/
def capUnmet : Nat := key 0x3000 0x03

/-- CAP_EXCESS 0x3000:04 (R516). -/
def capExcess : Nat := key 0x3000 0x04

/-- POWER_STATE 0x3000:05 (R516). -/
def powerState : Nat := key 0x3000 0x05

/-- FORCE_LOWEST 0x3000:06 (R516). -/
def forceLowest : Nat := key 0x3000 0x06

/-- BURST_USED 0x3000:07 (R516). -/
def burstUsed : Nat := key 0x3000 0x07

/-- BURST_ENABLE 0x3000:08 (R516). -/
def burstEnable : Nat := key 0x3000 0x08

/-- VIN 0x3000:09 (R516). -/
def vin : Nat := key 0x3000 0x09

/-- IIN 0x3000:0A (R516). -/
def iin : Nat := key 0x3000 0x0A

/-- LOWEST_ENTRIES 0x3000:0B (R516). -/
def lowestEntries : Nat := key 0x3000 0x0B

/-- ALERT_CAUSE 0x3000:0C (R516). -/
def alertCause : Nat := key 0x3000 0x0C

/-- POWER_STATUS 0x3000:0D (R516). -/
def powerStatus : Nat := key 0x3000 0x0D

/-- ENERGY_TOTAL 0x3000:0E (R516). -/
def energyTotal : Nat := key 0x3000 0x0E

/-- SHARE_ORDER 0x3001:00 (R516). -/
def shareOrder : Nat := key 0x3001 0x00

/-- DOMAIN_ON 0x3010:00 (R516). -/
def domainOn : Nat := key 0x3010 0x00

/-- PX_ENABLE 0x3010:01 (R516). -/
def pxEnable : Nat := key 0x3010 0x01

/-- RAIL_CURRENT 0x3100+n:00 (R516). -/
def railCurrent (n : Nat) : Nat := key (0x3100 + n) 0x00

/-- RAIL_MAX_50US 0x3100+n:01 (R516). -/
def railMax50us (n : Nat) : Nat := key (0x3100 + n) 0x01

/-- GOVERNOR_ACTS 0x3100+n:02 (R516). -/
def railGovernorActs (n : Nat) : Nat := key (0x3100 + n) 0x02

/-- RAIL_CLEAR 0x3100+n:03 (R516). -/
def railClear (n : Nat) : Nat := key (0x3100 + n) 0x03

/-- TJ_MAX 0x3030:00 (R516). -/
def tjMax : Nat := key 0x3030 0x00

/-- THROTTLE_TEMP 0x3030:01 (R516). -/
def throttleTemp : Nat := key 0x3030 0x01

/-- THERMAL_THROTTLES 0x3030:02 (R516). -/
def thermalThrottles : Nat := key 0x3030 0x02

/-- KEEPING_LOCK 0x3040:00 (R516). -/
def keepingLock : Nat := key 0x3040 0x00

/-- PLL_RUNNING 0x3040:01 (R516). -/
def pllRunning : Nat := key 0x3040 0x01

/-- CORRECTED, CONTAINED, PARTITION_ERRORS 0x8000:00 (R544). -/
def errCount (k : Nat) : Nat := key 0x8000 (0x00 + k)

/-- FATAL 0x8000:03 (R544). -/
def fatal : Nat := key 0x8000 0x03

/-- TILE_WATCHDOG 0x8000:04 (R544). -/
def tileWatchdog : Nat := key 0x8000 0x04

/-- SRAM_CE_LIMIT 0x8000:05 (R544). -/
def sramCeLimit : Nat := key 0x8000 0x05

/-- HEALTH_SCORE 0x8001:00 (R544). -/
def healthScore : Nat := key 0x8001 0x00

/-- HEALTH_LEVEL 0x8001:01 (R544). -/
def healthLevel : Nat := key 0x8001 0x01

/-- DEGRADED 0x8001:02 (R544). -/
def degraded : Nat := key 0x8001 0x02

/-- LIVENESS 0x8002:00 (R544). -/
def liveness : Nat := key 0x8002 0x00

/-- SPARES_LEFT 0x8010+n:00 (R544). -/
def clusSparesLeft (n : Nat) : Nat := key (0x8010 + n) 0x00

/-- RETIRED_MAP 0x8010+n:01 (R544). -/
def clusRetiredMap (n : Nat) : Nat := key (0x8010 + n) 0x01

/-- PROMOTIONS 0x8010+n:02 (R544). -/
def clusPromotions (n : Nat) : Nat := key (0x8010 + n) 0x02

/-- EVENT_LAST 0x8020:00 (R544). -/
def eventLast : Nat := key 0x8020 0x00

/-- LOG_DEPTH 0x8100:00 (R544). -/
def logDepth : Nat := key 0x8100 0x00

/-- LOG_POP 0x8100:01 (R544). -/
def logPop : Nat := key 0x8100 0x01

/-- LOG_LOST 0x8100:02 (R544). -/
def logLost : Nat := key 0x8100 0x02

/-- PLOG 0x8100:03 (R544). -/
def plog : Nat := key 0x8100 0x03

/-- PLOG_SKIPPED 0x8100:04 (R544). -/
def plogSkipped : Nat := key 0x8100 0x04

/-- COPY_JOB 0x8200:00 (R544). -/
def copyJob : Nat := key 0x8200 0x00

/-- COPY_RANK 0x8200:01 (R544). -/
def copyRank : Nat := key 0x8200 0x01

/-- COPY_VA 0x8200:02 (R544). -/
def copyVa : Nat := key 0x8200 0x02

/-- COPY_LENGTH 0x8200:03 (R544). -/
def copyLength : Nat := key 0x8200 0x03

/-- COPY_START 0x8200:04 (R544). -/
def copyStart : Nat := key 0x8200 0x04

/-- COPY_STATUS 0x8200:05 (R544). -/
def copyStatus : Nat := key 0x8200 0x05

/-- COPY_BYTES 0x8200:06 (R544). -/
def copyBytes : Nat := key 0x8200 0x06

/-- COPY_DIGEST 0x8200:07 (R544). -/
def copyDigest : Nat := key 0x8200 0x07

/-- SELFTEST 0x8300:00 (R544). -/
def selftest : Nat := key 0x8300 0x00

/-- SELFTEST_STATUS 0x8300:01 (R544). -/
def selftestStatus : Nat := key 0x8300 0x01

/-- FW_IMAGE 0x8400:00 (R544). -/
def fwImage : Nat := key 0x8400 0x00

/-- FW_STAGED 0x8400:01 (R544). -/
def fwStaged : Nat := key 0x8400 0x01

/-- FW_STATUS 0x8400:02 (R544). -/
def fwStatus : Nat := key 0x8400 0x02

/-- FW_SWITCH_LNC 0x8410+n:00 (R544). -/
def fwswFwSwitchLnc (n : Nat) : Nat := key (0x8410 + n) 0x00

/-- STARTUP_STAGE 0x8500:00 (R561). -/
def startupStage : Nat := key 0x8500 0x00

/-- CHIP_RESET 0x8500:01 (R561). -/
def chipReset : Nat := key 0x8500 0x01

/-- CLUSTER_RESET 0x8500:02 (R561). -/
def clusterReset : Nat := key 0x8500 0x02

/-- PARTITION_RESET 0x8500:03 (R561). -/
def partitionReset : Nat := key 0x8500 0x03

/-- TILE_RESET 0x8500:04 (R561). -/
def tileReset : Nat := key 0x8500 0x04

/-- RESET_STATUS 0x8500:05 (R561). -/
def resetStatus : Nat := key 0x8500 0x05

/-- LAST_RESET 0x8500:06 (R561). -/
def lastReset : Nat := key 0x8500 0x06

/-- READY_LNC 0x8500:07 (R561). -/
def readyLnc : Nat := key 0x8500 0x07

/-- VENDOR_KEY_HASH 0x9000:00 (R578). -/
def vendorKeyHash : Nat := key 0x9000 0x00

/-- SECURITY_STATE 0x9000:01 (R578). -/
def securityState : Nat := key 0x9000 0x01

/-- ALIAS_KEY_ID 0x9000:02 (R578). -/
def aliasKeyId : Nat := key 0x9000 0x02

/-- DEVICEID_KEY 0x9000:03 (R578). -/
def deviceidKey : Nat := key 0x9000 0x03

/-- CERT_CHAIN 0x9000:04 (R578). -/
def certChain : Nat := key 0x9000 0x04

/-- BOOT_BANK 0x9000:05 (R578). -/
def bootBank : Nat := key 0x9000 0x05

/-- ROLLBACK_ADVANCE 0x9002:00 (R578). -/
def rollbackAdvance : Nat := key 0x9002 0x00

/-- ROLLBACK_COUNT 0x9002:01 (R578). -/
def rollbackCount (k : Nat) : Nat := key 0x9002 (0x01 + k)

/-- ROLLBACK_STATUS 0x9002:05 (R578). -/
def rollbackStatus : Nat := key 0x9002 0x05

/-- OWNER_KEY 0x9010+k:00 (R578). -/
def okeyOwnerKey (n : Nat) : Nat := key (0x9010 + n) 0x00

/-- OWNER_CMD 0x9020:00 (R578). -/
def ownerCmd : Nat := key 0x9020 0x00

/-- OWNER_NONCE 0x9020:01 (R578). -/
def ownerNonce : Nat := key 0x9020 0x01

/-- OWNER_STATUS 0x9020:02 (R578). -/
def ownerStatus : Nat := key 0x9020 0x02

/-- DEBUG_UNLOCK 0x9030:00 (R578). -/
def debugUnlock : Nat := key 0x9030 0x00

/-- DEBUG_STATUS 0x9030:01 (R578). -/
def debugStatus : Nat := key 0x9030 0x01

/-- SPDM_REQUEST 0x9040:00 (R578). -/
def spdmRequest : Nat := key 0x9040 0x00

/-- SPDM_RESPONSE 0x9040:01 (R578). -/
def spdmResponse : Nat := key 0x9040 0x01

/-- FUNC_MEAS 0x9050:00 (R578). -/
def funcMeas (f : Nat) : Nat := funcKey f 0x9050 0x00

/-- FUNC_MEAS_LOG 0x9050:01 (R578). -/
def funcMeasLog (f : Nat) : Nat := funcKey f 0x9050 0x01

/-- LANE_GROUPS 0x6040:00 (R468). -/
def laneGroups : Nat := key 0x6040 0x00

/-- Chip overhead counter k, 0xA201 (R101). -/
def overhead (k : Nat) : Nat := key 0xA201 k

end Reg

end Sys2Proof.Machine
end

