-- ==== Sys2Proof/Machine/Table.lean ====
section
/-! DEFINITION. The operations of the sparse table: one read, one write, which keep the canonical form. `d` is what an
unlisted key reads as. -/

set_option linter.unusedVariables false

namespace Sys2Proof.Table

variable {α : Type}

/-- What key `k` holds. -/
def get (d : α) (t : Table α) (k : Nat) : α :=
  match t with
  | [] => d
  | (i, v) :: r => if i = k then v else get d r k

/-- Whether key `k` is listed. -/
def has (t : Table α) (k : Nat) : Bool := t.any (fun p => p.1 == k)

/-- What key `k` lists, if it lists anything. -/
def find? (t : Table α) (k : Nat) : Option α :=
  match t with
  | [] => none
  | (i, v) :: r => if i = k then some v else find? r k

/-- Remove key `k`. -/
def erase (t : Table α) (k : Nat) : Table α :=
  match t with
  | [] => []
  | (i, v) :: r => if i = k then r else (i, v) :: erase r k

/-- List `v` at key `k`, in its place in the rising order. -/
def insert (t : Table α) (k : Nat) (v : α) : Table α :=
  match t with
  | [] => [(k, v)]
  | (i, w) :: r => if i = k then (k, v) :: r else if k < i then (k, v) :: (i, w) :: r else (i, w) :: insert r k v

/-- Write `v` at key `k`: the value an unlisted key reads as removes the entry. -/
def put [DecidableEq α] (d : α) (t : Table α) (k : Nat) (v : α) : Table α :=
  if v = d then erase t k else insert t k v

/-- Change what key `k` holds. -/
def upd [DecidableEq α] (d : α) (t : Table α) (k : Nat) (f : α → α) : Table α := put d t k (f (get d t k))

/-- Map every listed value; an entry whose new value is what an unlisted key reads as leaves the list. -/
def mapVals [DecidableEq α] (d : α) (t : Table α) (f : Nat → α → α) : Table α :=
  List.filter (fun e => decide (e.2 ≠ d)) (t.map (fun p => (p.1, f p.1 p.2)))

/-- Keep the entries that satisfy `p`. -/
def keep (t : Table α) (p : Nat → α → Bool) : Table α := List.filter (fun e => p e.1 e.2) t

/-- The least number from `n` on that `t` does not list, searched over the length of `t`. -/
def freeKey (t : Table α) (n : Nat) : Nat :=
  match t with
  | [] => n
  | (i, _) :: r => if i < n then freeKey r n else if i = n then freeKey r (n + 1) else n

/-- Keys strictly rising, each above `lo` (all, when `lo` is none). -/
def rising (lo : Option Nat) (t : Table α) : Bool :=
  match t with
  | [] => true
  | (i, _) :: r => (match lo with | none => true | some l => decide (l < i)) && rising (some i) r

/-- The canonical form: keys strictly rising and no value equal to what its key reads as when unlisted. -/
def wfBy [DecidableEq α] (d : Nat → α) (t : Table α) : Bool :=
  rising none t && t.all (fun p => decide (p.2 ≠ d p.1))

/-- The canonical form of a table whose unlisted keys all read `d`. -/
def wf [DecidableEq α] (d : α) (t : Table α) : Bool := wfBy (fun _ => d) t

end Sys2Proof.Table

namespace Sys2Proof

/-! Byte order and fields, said once (R109, R441, R461: byte k holds bits [8k+7:8k]). -/

/-- Bits [hi:lo] of `n`. -/
def bits (n hi lo : Nat) : Nat := n / 2 ^ lo % 2 ^ (hi + 1 - lo)

/-- Bit `i` of `n`. -/
def bit (n i : Nat) : Bool := n / 2 ^ i % 2 == 1

/-- The first `k` bytes of `n`, least significant first. -/
def bytesOf (k n : Nat) : List Byte :=
  match k with
  | 0 => []
  | k + 1 => BitVec.ofNat 8 n :: bytesOf k (n / 256)

/-- The number that little-endian bytes spell. -/
def natOf (bs : List Byte) : Nat :=
  match bs with
  | [] => 0
  | b :: r => b.toNat + 256 * natOf r

/-- The signed value of the low `w` bits of `n`. -/
def signed (w n : Nat) : Int := if n % 2 ^ w < 2 ^ (w - 1) then (n % 2 ^ w : Nat) else (n % 2 ^ w : Nat) - (2 ^ w : Nat)

/-- Two's complement of `v` in `w` bits. -/
def unsigned (w : Nat) (v : Int) : Nat := (v % (2 ^ w : Nat)).toNat

/-- Ceiling of a division. -/
def ceilDiv (a b : Nat) : Nat := (a + b - 1) / b

/-- Add one to a counter of `w` bits that wraps (R52). -/
def wrapAdd (w a b : Nat) : Nat := (a + b) % 2 ^ w

/-- Replace element `i` of a list (no change when `i` is past the end). -/
def setAt {α : Type} (l : List α) (i : Nat) (v : α) : List α :=
  match l, i with
  | [], _ => []
  | _ :: r, 0 => v :: r
  | a :: r, i + 1 => a :: setAt r i v

/-- `n` copies of zero bytes. -/
def zeros (n : Nat) : List Byte := List.replicate n 0

/-- Padded with zero bytes, or cut, to exactly `n` bytes. -/
def fit (n : Nat) (bs : List Byte) : List Byte := (bs ++ zeros (n - bs.length)).take n

end Sys2Proof
end

