-- ==== Sys2Proof/Machine/Ops.lean ====
section
/-! DEFINITION. The named operations over State that every meaning uses: registers, output, tiles, tasks, time. -/

set_option linter.unusedVariables false

namespace Sys2Proof.Machine

/-! Registers (R460 to R463). -/

/-- The dictionary line of an index and subindex, if the object exists (R467 step 1). -/
def findObj (index sub : Nat) : Option ObjDef :=
  objectTable.find? (fun o => decide (o.base ≤ index) && decide (index < o.base + o.count) && o.sub == sub)

/-- What an unlisted register reads: the default of its table; KIND follows the partition number (R64, R460). -/
def regDefault (k : Nat) : Int :=
  let index := k / 256 % 65536
  let sub := k % 256
  if index / 64 = 0x4100 / 64 ∧ sub = 0 then
    (if index = 0x4100 then 0 else if index ≤ 0x4108 then 1 else 2)
  else match findObj index sub with
    | some o => o.dflt
    | none => 0

/-- What an unlisted STR or DOMAIN holds: the facts fixed at manufacture (R478, R563), else nothing. -/
def regDefaultBytes (k : Nat) : List Byte :=
  if k = Reg.partName then [0x5A, 0x4B, 0x39, 0x36, 0x30]
  else if k = Reg.serial then Config.serial
  else if k = Reg.vendorKeyHash then Config.vendorKeyHash
  else []

/-- The value of a number object. -/
def State.reg (s : State) (k : Nat) : Int := Table.get (regDefault k) s.dict.regs k
/-- The value of a number object that is not negative. -/
def State.regN (s : State) (k : Nat) : Nat := (s.reg k).toNat
/-- Set a number object. -/
def State.setReg (s : State) (k : Nat) (v : Int) : State :=
  { s with dict := { s.dict with regs := Table.put (regDefault k) s.dict.regs k v } }
/-- Add to a counter object, which wraps at 64 bits only. -/
def State.bump (s : State) (k : Nat) (by' : Nat) : State := s.setReg k ((s.reg k + by') % 18446744073709551616)
/-- The bytes of a STR or DOMAIN object. -/
def State.blob (s : State) (k : Nat) : List Byte := Table.get (regDefaultBytes k) s.dict.blobs k
/-- Set a STR or DOMAIN object. -/
def State.setBlob (s : State) (k : Nat) (bs : List Byte) : State :=
  { s with dict := { s.dict with blobs := Table.put (regDefaultBytes k) s.dict.blobs k bs } }

/-! The frequency reference (R45, R511). -/

/-- The reference that FREQ_SOURCE selects is there as far as the device sees: the port or link that gives the recovered clock is not down. -/
def State.referenceThere (s : State) : Bool :=
  let p := s.regN Reg.syncePort
  s.reg Reg.freqSource != 1 || (Table.get {} s.ports.ports p).up == 2 || (Table.get {} s.fabric.links p).up == 2
/-- A port or link has gone down: the reference is lost where it gave the recovered clock. -/
def State.clockGone (s : State) : State := if !s.referenceThere ∧ s.reg Reg.keepingLock = 0 then s.setReg Reg.keepingLock 1 else s

/-! Output and free values. -/

/-- Send something out. -/
def State.emit (s : State) (e : Emit) : State := { s with out := e :: s.out }
/-- Advance the counter of free values (log entry 10). -/
def State.fresh (s : State) : State := { s with free := s.free + 1 }

/-! Time (R26, glossary: launch count). -/

/-- Nanoseconds since the epoch. -/
def Stc.nsTotal (t : Stc) : Nat := t.sec * 1000000000 + t.ns
/-- The STC as the number of a TIME80 (R27 map). -/
def Stc.time80 (t : Stc) : Nat := t.sec * 4294967296 + t.ns
/-- The STC at a nanosecond count, with no fraction. -/
def Stc.ofNs (n : Nat) : Stc := { sec := n / 1000000000, ns := n % 1000000000 }
/-- TIME80 number of a nanosecond count. -/
def time80OfNs (n : Nat) : Nat := (Stc.ofNs n).time80
/-- Nanosecond count of a TIME80 number. -/
def nsOfTime80 (t : Nat) : Nat := t / 4294967296 * 1000000000 + t % 1073741824
/-- Present nanoseconds since the epoch. -/
def State.nowNs (s : State) : Nat := s.time.stc.nsTotal
/-- The present launch count. -/
def State.lnc (s : State) : Nat := s.nowNs / Config.quantumNs
/-- Whether `n` ns of keeping-clock time lie between tick `since` and now (a tick is 6.4 ns, R510). -/
def State.passed (s : State) (since n : Nat) : Bool := decide (5 * n ≤ 32 * (s.time.ticks - since)) && decide (since ≤ s.time.ticks)

/-- R50: how a 32-bit count X compares with the present N. -/
inductive Due where
  | now
  | future (d : Nat)
  | past (d : Nat)
deriving DecidableEq, Repr

/-- R50. -/
def dueOf (x n : Nat) : Due :=
  let d := (x + 4294967296 - n % 4294967296) % 4294967296
  if d = 0 then .now else if d < 2147483648 then .future d else .past (4294967296 - d)

/-- The 64-bit launch count that a 32-bit field means now: the present count for past and due fields (R50, R51). -/
def State.extend (s : State) (x : Nat) : Nat := match dueOf x s.lnc with | .future d => s.lnc + d | _ => s.lnc

/-! Tiles (R9, R10). -/

/-- Tile position `n`. -/
def State.tile (s : State) (n : Nat) : Tile := Table.get {} s.tiles n
/-- Set tile position `n`. -/
def State.setTile (s : State) (n : Nat) (t : Tile) : State := { s with tiles := Table.put {} s.tiles n t }
/-- Change tile position `n`. -/
def State.updTile (s : State) (n : Nat) (f : Tile → Tile) : State := s.setTile n (f (s.tile n))
/-- Cluster of a physical tile number (glossary). -/
def clusterOf (tile : Nat) : Nat := tile / 64
/-- Partition `p`. -/
def State.part (s : State) (p : Nat) : Part := Table.get {} s.parts p
/-- Set partition `p` and its TILES object (R105). -/
def State.setPart (s : State) (p : Nat) (q : Part) : State :=
  ({ s with parts := Table.put {} s.parts p q }).setReg (Reg.partTiles p) q.tiles.length
/-- The partition that holds a physical tile, if any. -/
def State.partOf (s : State) (tile : Nat) : Option Nat := (List.find? (fun (e : Nat × Part) => e.2.tiles.contains tile) s.parts).map (fun e => e.1)
/-- Whether a tile is a radio tile (R64: partitions 1 to 8). -/
def State.isRadio (s : State) (tile : Nat) : Bool :=
  match s.partOf tile with | some p => decide (1 ≤ p ∧ p ≤ 8) | none => false

/-! Tasks. -/

/-- Task number `n`. -/
def State.task (s : State) (n : Nat) : Task := Table.get {} s.tasks n
/-- Whether task `n` is listed. -/
def State.hasTask (s : State) (n : Nat) : Bool := Table.has s.tasks n
/-- Set task `n`. -/
def State.setTask (s : State) (n : Nat) (t : Task) : State := { s with tasks := Table.insert s.tasks n t }
/-- Change task `n`. -/
def State.updTask (s : State) (n : Nat) (f : Task → Task) : State := s.setTask n (f (s.task n))
/-- Remove task `n`. -/
def State.dropTask (s : State) (n : Nat) : State := { s with tasks := Table.erase s.tasks n }
/-- List a new task; its number is the counter's. -/
def State.addTask (s : State) (t : Task) : State :=
  { s with tasks := Table.insert s.tasks s.nextTask t, nextTask := s.nextTask + 1 }

/-! Contexts (R432): number 16 × f + x. -/

/-- Function of a context number. -/
def ctxFunc (c : Nat) : Nat := c / 16
/-- Whether a context is enabled. -/
def State.ctxOn (s : State) (c : Nat) : Bool := s.regN (Reg.ctxEnable (c / 16) (c % 16)) == 1
/-- Class of a context: 0 TEMPO, 1 BE. -/
def State.ctxClassOf (s : State) (c : Nat) : Nat := s.regN (Reg.ctxClass (c / 16) (c % 16))
/-- Key of ring r of function f in State.rings. -/
def ringKey (f r : Nat) : Nat := f * 64 + r
/-- Ring r of function f. -/
def State.ring (s : State) (f r : Nat) : Ring := Table.get {} s.rings (ringKey f r)
/-- Set ring r of function f. -/
def State.setRing (s : State) (f r : Nat) (g : Ring) : State := { s with rings := Table.put {} s.rings (ringKey f r) g }
/-- What function f holds. -/
def State.func (s : State) (f : Nat) : Func := Table.get {} s.funcs f
/-- Set what function f holds. -/
def State.setFunc (s : State) (f : Nat) (g : Func) : State := { s with funcs := Table.put {} s.funcs f g }

/-- Release a tile from its task: its live state is discarded (R196, R198). -/
def Tile.freed (t : Tile) : Tile := { t with task := 0, rank := 0, ctx := 0, atPoint := true, live := {}, wait := .none, preempt := false, switching := 0, sincePoint := 0 }

/-- Free the tiles of a list that task `n` holds now. -/
def State.freeTiles (s : State) (n : Nat) (ts : List Nat) : State :=
  ts.foldl (fun a p => if (a.tile p).task = n + 1 then a.updTile p Tile.freed else a) s

/-- The sticky flags of every rank of task `n`, on its tiles and saved, join the task's (R117). -/
def State.joinFlags (s : State) (n : Nat) : State :=
  let k := s.task n
  let lives := ((k.tiles.map s.tile).filter (fun t => t.task == n + 1)).map (fun t => t.live) ++ k.saves.map (fun e => e.2)
  s.setTask n { k with
    invalid := k.invalid || lives.any (fun l => l.vs.invalid)
    saturated := k.saturated || lives.any (fun l => l.vs.saturated) }

/-- The exit every meaning takes. -/
abbrev Out := Host.Outcome State Fault Refusal

/-- An event that occurs only under its condition: otherwise the state stays (log entry 5). -/
def State.when (s : State) (c : Bool) (t : State) : State := if c then t else s

end Sys2Proof.Machine
end

