-- ==== Sys2Proof/Machine/PortBase.lean ====
section
/-! DEFINITION. The egress side of a fronthaul port (R343, R345 to R347, R351): credits over time, frames entering a queue, frames
discarded with their link, and the maxima. -/

set_option linter.unusedVariables false

namespace Sys2Proof.Machine

/-- Mb/s of a port mode (R327); a port that is off is taken at 800 Gb/s for its limits (log entry 36). -/
def portRate (mode : Nat) : Nat := match mode with | 1 => 100000 | 2 => 200000 | 3 => 400000 | _ => 800000
/-- Port `p` beside its objects. -/
def State.port (s : State) (p : Nat) : Port := Table.get {} s.ports.ports p
/-- Set it. -/
def State.setPort (s : State) (p : Nat) (x : Port) : State := { s with ports := { s.ports with ports := Table.put {} s.ports.ports p x } }
/-- The port reads UP. -/
def State.portUp (s : State) (p : Nat) : Bool := (s.port p).up == 2
/-- The port goes down (0), trains (1) or comes up (2), and PORT_STATUS tells it; its recovered clock goes with it (R45). -/
def State.setPortUp (s : State) (p v : Nat) : State := ((s.setPort p { s.port p with up := v }).setReg (Reg.portStatus p) v).clockGone
/-- Its rate in Mb/s. -/
def State.rateOf (s : State) (p : Nat) : Nat := portRate (s.regN (Reg.portMode p))
/-- Frames of an egress queue, oldest first. -/
def Port.queue (x : Port) (q : Nat) : List (Nat × TxFrame) := Table.get [] x.queues q
/-- Index of the telemetry of queue q of port p (R352). -/
def telIndex (p q : Nat) : Nat := 16 * p + q
/-- Bytes of a frame with preamble, delimiter and gap: len of R346. -/
def TxFrame.len (f : TxFrame) : Nat := f.length + 20
/-- Serialisation time of a frame in ns at a rate in Mb/s. -/
def TxFrame.serialNs (f : TxFrame) (rate : Nat) : Nat := ceilDiv (8000 * f.len) rate

/-! Credits (R346), in 1/625 bit: a slope of x Mb/s gives 4x of them in a tick of 6.4 ns. -/

/-- Credit after `n` ticks in one status: 2 the queue's frame is on the wire, 1 it waits, 0 it is empty. -/
def creditAfter (c : Int) (status rate slope hi n : Nat) : Int :=
  let up : Int := c + 4 * slope * n
  let v : Int := match status with
    | 2 => c - 4 * ((rate : Int) - slope) * n
    | 1 => up
    | _ => if 0 < c then 0 else min 0 up
  min v (625 * hi)

/-- Credit of queue q (8 to 12) at the present tick: the frame on the wire ends at busyUntil. -/
def State.creditUnits (s : State) (p q : Nat) : Int :=
  let x := s.port p
  let c := Table.get 0 x.credit q
  let rate := s.rateOf p
  let slope := s.regN (Reg.portIdleSlope p (q - 8))
  let hi := s.regN (Reg.portHiCredit p (q - 8))
  let now := s.time.ticks
  let status := if (x.queue q).isEmpty then 0 else 1
  if x.sending = q + 1 then
    let wire := min now x.busyUntil - x.creditAt
    let c := creditAfter c 2 rate slope hi wire
    if now < x.busyUntil then c else creditAfter c status rate slope hi (now - max x.busyUntil x.creditAt)
  else creditAfter c status rate slope hi (now - x.creditAt)

/-- CREDIT in bits (R352). -/
def State.creditNow (s : State) (p q : Nat) : Int := if 8 ≤ q ∧ q ≤ 12 then s.creditUnits p q / 625 else 0

/-- Bring the credits of a port to the present tick. -/
def State.portSync (s : State) (p : Nat) : State :=
  let x := s.port p
  let credit := [8, 9, 10, 11, 12].foldl (fun t q => Table.put 0 t q (s.creditUnits p q)) x.credit
  s.setPort p { x with credit := credit, creditAt := s.time.ticks }

/-! Maxima (R351). -/

/-- Depth of a queue in bytes. -/
def Port.depth (x : Port) (q : Nat) : Nat := ((x.queue q).map (fun e => e.2.length)).sum
/-- Head-of-line delay in ns. -/
def State.headDelay (s : State) (p q : Nat) : Nat := match (s.port p).queue q with | [] => 0 | e :: _ => (s.time.ticks - e.1) * 32 / 5
/-- The maxima follow an enqueue or a dequeue. -/
def State.trackMax (s : State) (p q : Nat) : State :=
  let d := (s.port p).depth q
  let h := s.headDelay p q
  let i := telIndex p q
  let s := if s.reg (Reg.telDepthMax i) < d then s.setReg (Reg.telDepthMax i) (min d 4294967295 : Nat) else s
  if s.reg (Reg.telDelayMax i) < h then s.setReg (Reg.telDelayMax i) (min h 4294967295 : Nat) else s

/-! Enqueueing. -/

/-- A frame that leaves or is discarded: the write-back of a host frame that asked for one (R444). -/
def State.noteWriteBack (s : State) (f : TxFrame) (status time tick : Nat) : State :=
  if f.stamp then { s with ports := { s.ports with done := s.ports.done ++ [{ func := f.func, ring := f.ring, slot := f.ringSlot, stamp := true, status := status, time := time, tick := tick }] } }
  else s

/-- A frame is discarded with its link (R343, R347). -/
def State.linkDiscard (s : State) (p : Nat) (f : TxFrame) : State := (s.bump (Reg.portLinkDiscards p) 1).noteWriteBack f 1 0 s.time.ticks

/-- The place of a radio frame among frames of its tick: ascending cell number (R339). -/
def insertFrame (l : List (Nat × TxFrame)) (e : Nat × TxFrame) : List (Nat × TxFrame) :=
  match l with
  | [] => [e]
  | x :: r => if x.1 = e.1 ∧ (x.2.kind = 1 ∨ x.2.kind = 2) ∧ (e.2.kind = 1 ∨ e.2.kind = 2) ∧ e.2.cell < x.2.cell then e :: x :: r else x :: insertFrame r e

/-- A frame enters egress queue q of port p; it is discarded where the port is not up (R343). -/
def State.enqueue (s : State) (p q : Nat) (f : TxFrame) : State :=
  if !s.portUp p then s.linkDiscard p f
  else
    let s := s.portSync p
    let x := s.port p
    let first := (x.queue q).isEmpty
    let x := { x with queues := Table.put [] x.queues q (insertFrame (x.queue q) (s.time.ticks, f)) }
    let x := if first && decide (q < 8) then { x with deficit := Table.put 0 x.deficit q 0, active := x.active ++ [q], fresh := x.fresh ++ [q] } else x
    (s.setPort p x).trackMax p q

/-- Replace the frames of a queue; an emptied round-robin queue leaves the turn with no deficit (R346). -/
def State.setQueue (s : State) (p q : Nat) (l : List (Nat × TxFrame)) : State :=
  let s := s.portSync p
  let x := { s.port p with queues := Table.put [] (s.port p).queues q l }
  let x := if l.isEmpty then { x with deficit := Table.put 0 x.deficit q 0, active := x.active.filter (fun a => a != q), fresh := x.fresh.filter (fun a => a != q) } else x
  (s.setPort p x).trackMax p q

/-- A port goes down (R343): its queued frames are discarded and counted; one that has begun is neither queued nor counted (log entry 37). -/
def State.portFlush (s : State) (p : Nat) : State :=
  let s := s.portSync p
  let x := s.port p
  let s := x.queues.foldl (fun s (e : Nat × List (Nat × TxFrame)) => e.2.foldl (fun s f => s.linkDiscard p f.2) s) s
  s.setPort p { s.port p with queues := [], active := [], fresh := [], deficit := [], sending := 0 }

end Sys2Proof.Machine
end

