-- ==== Sys2Proof/Machine/Dict.lean ====
section
/-! DEFINITION. The dictionary's own rules (R460 to R474): who sees what under which index, the checks of R467 that need no
other chapter, values and their bytes, the persistent store. -/

set_option linter.unusedVariables false

namespace Sys2Proof.Machine

/-! Status codes (R490). -/
namespace Status
/-- OK. -/
def ok : Nat := 0
/-- NO_OBJECT. -/
def noObject : Nat := 1
/-- NO_SUBINDEX. -/
def noSubindex : Nat := 2
/-- ACCESS_DENIED. -/
def accessDenied : Nat := 3
/-- READ_ONLY. -/
def readOnly : Nat := 4
/-- WRITE_ONLY. -/
def writeOnly : Nat := 5
/-- TYPE_MISMATCH. -/
def typeMismatch : Nat := 6
/-- RANGE. -/
def range : Nat := 7
/-- REFUSED. -/
def refused : Nat := 8
/-- LNC_REQUIRED. -/
def lncRequired : Nat := 9
/-- LNC_RANGE. -/
def lncRange : Nat := 10
/-- PENDING. -/
def pending : Nat := 11
/-- RATE_LIMITED. -/
def rateLimited : Nat := 12
/-- ENDURANCE_EXHAUSTED. -/
def enduranceExhausted : Nat := 13
/-- STORE_FAULT. -/
def storeFault : Nat := 14
/-- BUSY. -/
def busy : Nat := 15
/-- NOT_SUPPORTED. -/
def notSupported : Nat := 16
/-- SEGMENT_ERROR. -/
def segmentError : Nat := 17
/-- AUTH_FAILED. -/
def authFailed : Nat := 32
/-- SESSION_UNKNOWN. -/
def sessionUnknown : Nat := 33
/-- SESSION_LIMIT. -/
def sessionLimit : Nat := 34
/-- SUBSCRIPTION_LIMIT. -/
def subscriptionLimit : Nat := 35
end Status

/-! Accessors (R464 to R466). -/

/-- A number for each accessor: 0 the PF0 window, n the window of VF n, 1024 + k session k. -/
def Accessor.holder (a : Accessor) : Nat := match a with | .pf0 => 0 | .vf n => n | .hdp h => 1024 + h.session

/-- An entry of an association list. -/
def assoc {α : Type} (l : List (Nat × α)) (k : Nat) : Option α := Table.find? l k
/-- The session of an accessor. -/
def State.session (s : State) (k : Nat) : Option Session := assoc s.dict.sessions k
/-- Set a session. -/
def State.setSession (s : State) (k : Nat) (x : Session) : State := { s with dict := { s.dict with sessions := Table.insert s.dict.sessions k x } }

/-- The function whose window the accessor sees (R465, R466). -/
def State.windowOf (s : State) (a : Accessor) : Nat :=
  match a with
  | .pf0 => s.regN Reg.windowFunction
  | .vf n => n
  | .hdp h => match s.session h.session with | some x => x.windowFunction | none => 0

/-- The k-th number below `n` that satisfies `p`, in ascending order (R465). -/
def kth (n : Nat) (p : Nat → Bool) (k : Nat) : Option Nat := ((List.range n).filter p)[k]?

/-- What an index names for an accessor: the underlying index and the function of a function-window object; none where an
alias has no object (R465). -/
def State.resolve (s : State) (a : Accessor) (index : Nat) : Option (Nat × Nat) :=
  let f := s.windowOf a
  if index < 0xB300 ∨ index > 0xBFFF then some (index, f)
  else if index = 0xB300 then some (0xA000 + f, f)
  else if index = 0xB301 then some (0x4400 + f, f)
  else if index = 0xB302 then some (0x7800 + f, f)
  else if index = 0xB303 then some (0x4A00 + f, f)
  else if 0xB400 ≤ index ∧ index ≤ 0xB43E then
    (kth 64 (fun p => decide (p ≥ 1) && s.reg (Reg.partOwner p) == f) (index - 0xB400)).map (fun p => (0x4100 + p, f))
  else if 0xB500 ≤ index ∧ index ≤ 0xB5FF then
    (kth 256 (fun m => s.reg (Reg.slotOwner m) == f) (index - 0xB500)).map (fun m => (0x4800 + m, f))
  else if 0xB600 ≤ index ∧ index ≤ 0xB63F then
    (kth 64 (fun j => s.reg (Reg.jobOwner j) == f) (index - 0xB600)).map (fun j => (0x7400 + j, f))
  else if 0xB700 ≤ index ∧ index ≤ 0xB7FF then
    (kth 256 (fun c => s.reg (Reg.partOwner (1 + s.regN (Reg.cellCluster c))) == f) (index - 0xB700)).map (fun c => (0x5400 + c, f))
  else if 0xB800 ≤ index ∧ index ≤ 0xB8FF then
    (kth 256 (fun c => s.reg (Reg.partOwner (1 + s.regN (Reg.cellCluster c))) == f) (index - 0xB800)).map (fun c => (0x6100 + c, f))
  else none

/-- Objects kept once per function (R465, R578): rings, contexts, function state, FUNC_MEAS. -/
def perFunction (index : Nat) : Bool := index = 0xB000 || (0xB100 ≤ index && index ≤ 0xB13F) || (0xB200 ≤ index && index ≤ 0xB20F) || index = 0x9050
/-- The register key of an underlying object. -/
def objKey (index sub f : Nat) : Nat := if perFunction index then funcKey f index sub else key index sub

/-- An index that some table defines (R477). -/
def indexExists (index : Nat) : Bool := objectTable.any (fun o => decide (o.base ≤ index) && decide (index < o.base + o.count))
/-- An index that holds a persistent entry (R470). -/
def hasEntry (index : Nat) : Bool :=
  objectTable.any (fun o => decide (o.base ≤ index) && decide (index < o.base + o.count) && o.acc == .rwp)

/-- Steps 1 and 2 of R467 that reads share: the object an accessor reaches, or a status. The persistence objects :FD and :FE
of an index with an entry are read-only (R471). -/
def State.reach (s : State) (a : Accessor) (index sub : Nat) : Except Nat (Nat × Nat × ObjDef) :=
  if index ≥ 0xF000 then .error (if s.dict.vendorOpen then Status.noObject else Status.accessDenied)
  else match s.resolve a index with
  | none => .error Status.noObject
  | some (u, f) =>
    if !indexExists u then .error Status.noObject
    else
      let o := if hasEntry u && sub = 0xFE then some ⟨u, 1, sub, .u32, .ro, 0, .any, 0⟩
               else if hasEntry u && sub = 0xFD then some ⟨u, 1, sub, .u16, .ro, 0, .any, 0⟩
               else findObj u sub
      match o with
      | none => .error Status.noSubindex
      | some o =>
        let denied := match a with
          | .pf0 => false
          | .vf _ => decide (index < 0xB000 ∨ index > 0xBFFF)
          | .hdp h => match s.session h.session with
            | some x => x.role != 3 && decide (0x9000 ≤ u ∧ u ≤ 0x9FFF)
            | none => true
        if denied then .error Status.accessDenied else .ok (u, f, o)

/-- Whether a function may write an object of its window: the owning chapter's word (R105, R262, R376, R429, R434, R453, R459,
R489). Numbers are the underlying index and subindex. -/
def vfMayWrite (u sub : Nat) : Bool :=
  if 0x4100 ≤ u ∧ u ≤ 0x413F then sub == 7
  else if 0x4400 ≤ u ∧ u ≤ 0x4600 then sub == 1
  else if 0x7800 ≤ u ∧ u ≤ 0x7A00 then false
  else if 0x4A00 ≤ u ∧ u ≤ 0x4C00 then false
  else if 0x4800 ≤ u ∧ u ≤ 0x48FF then false
  else if 0x7400 ≤ u ∧ u ≤ 0x743F then false
  else if u = 0xB000 then false
  else true

/-- The rest of step 2 of R467 for a write: rights of R464 and the restrictions of single objects. -/
def State.mayWrite (s : State) (a : Accessor) (index u sub f : Nat) (o : ObjDef) : Nat :=
  let consent := decide (0x4100 ≤ u ∧ u ≤ 0x413F) && sub == 7
  match a with
  | .vf _ => if o.acc == .ro then Status.readOnly else if vfMayWrite u sub then Status.ok else Status.accessDenied
  | .pf0 =>
    if o.acc == .ro then Status.readOnly
    -- only the owning function writes CONSENT_LNC, through its window (R68, R105)
    else if consent && !(decide (index ≥ 0xB000) && f == 0) then Status.accessDenied else Status.ok
  | .hdp h =>
    match s.session h.session with
    | none => Status.accessDenied
    | some x =>
      if x.role == 1 then Status.accessDenied
      else if o.acc == .ro then Status.readOnly
      else if x.role == 2 && o.acc == .rwp then Status.readOnly
      else if x.role == 2 && decide (0x8500 = u) then Status.accessDenied
      else if consent then Status.accessDenied
      else if u = 0xB000 then Status.accessDenied
      else Status.ok

/-! Values (R461, R462). -/

/-- Bytes of a fixed-size type; 0 for STR and DOMAIN. -/
def ObjType.size (t : ObjType) : Nat :=
  match t with
  | .bool => 1 | .u8 => 1 | .u16 => 2 | .u32 => 4 | .u64 => 8 | .i32 => 4 | .i64 => 8 | .fx32 => 4 | .time80 => 10
  | .str => 0 | .domain => 0
/-- STR and DOMAIN. -/
def ObjType.isBytes (t : ObjType) : Bool := t == .str || t == .domain
/-- The number that the type reads in `v`'s bits. -/
def ObjType.norm (t : ObjType) (v : Int) : Int :=
  match t with
  | .i32 => signed 32 (unsigned 32 v)
  | .fx32 => signed 32 (unsigned 32 v)
  | .i64 => signed 64 (unsigned 64 v)
  | _ => (unsigned (8 * t.size) v : Nat)
/-- The type code of R461. -/
def ObjType.code (t : ObjType) : Nat :=
  match t with
  | .bool => 1 | .u8 => 2 | .u16 => 3 | .u32 => 4 | .u64 => 5 | .i32 => 6 | .i64 => 7 | .fx32 => 8 | .time80 => 9
  | .str => 10 | .domain => 11

/-- A number with its reserved fields as they read (R6): TIME80 [31:30], INCREMENT [63:36], VLAN_TAG, QUAD_PEERS. -/
def clearReserved (u sub : Nat) (t : ObjType) (v : Int) : Int :=
  if t == .time80 then ((v.toNat / 4294967296 * 4294967296 + v.toNat % 1073741824 : Nat) : Int)
  else if u = 0x2003 ∧ sub = 0 then v % 68719476736
  else if 0x6100 ≤ u ∧ u ≤ 0x61FF ∧ sub = 1 then ((v.toNat &&& 0x1EFFF : Nat) : Int)
  else if u = 0x7300 ∧ sub = 1 then ((v.toNat &&& 0x7000FFFFFFFFF : Nat) : Int)
  else v

/-- Bits [hi:lo] of a number cleared. -/
def clearBits (n hi lo : Nat) : Nat := n - bits n hi lo * 2 ^ lo
/-- A block with its reserved fields as they read (R6): HOST_FLOW [247:240], [179:176], [143:128], [63:0] (R354). -/
def clearBlock (u sub : Nat) (bs : List Byte) : List Byte :=
  if 0x6200 ≤ u ∧ u ≤ 0x62FF ∧ sub = 0 then
    (bytesOf 32 (clearBits (clearBits (clearBits (clearBits (natOf (fit 32 bs)) 247 240) 179 176) 143 128) 63 0)).take bs.length
  else bs

/-- The value a number object will hold at an LNC: the last of the writes that wait for one no later, else the present one. -/
def State.valueAt (s : State) (k lnc : Nat) : Int :=
  match (s.dict.writes.filter (fun p => p.key == k && decide (p.lnc ≤ lnc))).getLast? with
  | some p => (match p.data with | .num _ v => v | .bytes _ => s.reg k)
  | none => s.reg k
/-- The same, for an object that is not negative. -/
def State.valueAtN (s : State) (k lnc : Nat) : Nat := (s.valueAt k lnc).toNat

/-- Slot length in ns of a numerology (R53). -/
def slotNs (mu : Nat) : Nat := 1000000 / 2 ^ mu
/-- A width and a period of a time output keep R54. -/
def ttFits (width period : Int) : Bool := period == 0 || decide (10 ≤ width ∧ width ≤ period - 10)

/-- Ranges that depend on other objects, as they will stand at the LNC of the write, or on a shape (Range column, R462). -/
def State.ownRange (s : State) (u sub f : Nat) (v : Int) (lnc : Nat) : Bool :=
  let n := v.toNat
  if 0x2100 ≤ u ∧ u ≤ 0x2107 then ttFits v (s.valueAt (key u 1) lnc)
  else if 0x5400 ≤ u ∧ u ≤ 0x54FF then decide (n ≤ 2 * slotNs (s.valueAtN (key u 2) lnc))
  else if 0x6000 ≤ u ∧ u ≤ 0x603F then
    (if sub = 4 then n % 16 + n / 16 % 16 + n / 256 % 16 + n / 4096 == 16
     else if sub = 6 then decide (1 ≤ n ∧ n ≤ portRate (s.valueAtN (key u 0) lnc))
     else decide (((List.range 5).map (fun q => if sub = 8 + q then n else s.valueAtN (key u (8 + q)) lnc)).sum * 5 ≤ portRate (s.valueAtN (key u 0) lnc)))
  else if 0x6100 ≤ u ∧ u ≤ 0x61FF then
    (if sub = 5 then decide (1 ≤ n / 256 ∧ n / 256 ≤ 64 ∧ 1 ≤ n % 256 ∧ n % 256 ≤ 64)
     else decide (v ≤ s.valueAt (Reg.cellTa4Max (u - 0x6100)) lnc))
  else if u = 0x1001 then (List.range 33).any (fun k => n == 4294967296 - 2 ^ (32 - k))
  else if u = 0x7300 then ((List.range 7).map (fun i => n / 8 ^ i % 8)).Nodup && n / 8 ^ 7 == 0
  else if u = 0x3001 then
    n / 16 ^ 5 == 1 && ((List.range 6).map (fun i => n / 16 ^ i % 16)).Nodup && (List.range 6).all (fun i => 1 ≤ n / 16 ^ i % 16 && n / 16 ^ i % 16 ≤ 6)
  else if 0xB100 ≤ u ∧ u ≤ 0xB13F then
    (if sub = 1 then decide (64 ≤ n ∧ n ≤ 65536) && 2 ^ Nat.log2 n == n else decide (n ≤ if f = 0 then 255 else 63))
  else true

/-- Range column (R462). -/
def State.inRange (s : State) (u sub f : Nat) (o : ObjDef) (v : Int) (lnc : Nat) : Bool :=
  (o.ty != .bool || v == 0 || v == 1) &&
  match o.range with
  | .any => true
  | .within lo hi => decide (lo ≤ v ∧ v ≤ hi)
  | .step lo hi d => decide (lo ≤ v ∧ v ≤ hi ∧ v % d = 0)
  | .orElse lo hi x => decide ((lo ≤ v ∧ v ≤ hi) ∨ v = x)
  | .oneOf l => l.contains v
  | .own => s.ownRange u sub f v lnc

/-- Step 3 of R467: the value to hold, or TYPE_MISMATCH or RANGE. -/
def State.checkValue (s : State) (u sub f : Nat) (o : ObjDef) (d : WData) (lnc : Nat) : Except Nat WData :=
  match d with
  | .num size v =>
    if o.ty.isBytes || size != o.ty.size then .error Status.typeMismatch
    else
      let v := clearReserved u sub o.ty (o.ty.norm v)
      if s.inRange u sub f o v lnc then .ok (.num size v) else .error Status.range
  | .bytes bs =>
    if !o.ty.isBytes || decide (o.maxLen < bs.length) || (o.ty == .str && bs.isEmpty) then .error Status.typeMismatch else .ok (.bytes (clearBlock u sub bs))

/-- Objects that take effect only at a named LNC (R468). -/
def needsLnc (u sub : Nat) : Bool :=
  (u == 0x6040 && sub == 0) || (decide (0x6000 ≤ u ∧ u ≤ 0x603F) && sub == 0) || (decide (0x7320 ≤ u ∧ u ≤ 0x735F) && sub == 0)
  || (decide (0x4100 ≤ u ∧ u ≤ 0x413F) && (sub == 1 || sub == 0xB))

/-- The LNC at which a write takes effect (R23): the one it names, else the next quantum. -/
def State.effectLnc (s : State) (lnc : Option Nat) : Nat := match lnc with | none => s.lnc + 1 | some l => s.extend l

/-- Step 4 of R467: the LNC of effect (the next quantum when none is named, R23), or a status. -/
def State.checkLnc (s : State) (u sub k : Nat) (lnc : Option Nat) : Except Nat (Nat × Bool) :=
  let r : Except Nat (Nat × Bool) := match lnc with
    | none => if needsLnc u sub then .error Status.lncRequired else .ok (s.lnc + 1, false)
    | some l => match dueOf (l % 4294967296) s.lnc with
      | .future d => .ok (s.lnc + d, true)
      | _ => .error Status.lncRange
  match r with
  | .error e => .error e
  | .ok x => if s.dict.writes.any (fun p => p.named && p.key == k) then .error Status.pending else .ok x

/-! The persistent store (R470 to R474). -/

/-- Ticks in which the bucket refills one token (60 s). -/
def tokenTicks : Nat := 9375000000
/-- Bookkeeping of an entry. -/
def State.entry (s : State) (u : Nat) : Entry := Table.get {} s.dict.entries u
/-- The bucket now: refilled by powered time, at most 256 tokens (R472). -/
def State.tokensNow (s : State) (u : Nat) : Nat := min (256 * tokenTicks) ((s.entry u).tokens + (s.time.ticks - (s.entry u).last))
/-- The committed value of a key, if it was ever written (R475). -/
def State.committed (s : State) (k : Nat) : Option WData := assoc s.dict.store k

/-- What a key of the store holds: its committed value, its default where it was never written (R475). -/
def State.stored (s : State) (k : Nat) (d : WData) : WData :=
  match s.committed k with
  | some v => v
  | none => match d with | .num size _ => .num size (regDefault k) | .bytes _ => .bytes []

/-- One commit of an entry: token, count, values, STORE_COMMITS, the endurance warning at 9,000,000 (R470, R472, R473). -/
def State.commit (s : State) (u : Nat) (vals : List (Nat × WData)) : State :=
  let e := s.entry u
  let e' : Entry := { commits := e.commits + 1, tokens := s.tokensNow u - tokenTicks, last := s.time.ticks }
  let s := { s with dict := { s.dict with
    entries := Table.put {} s.dict.entries u e'
    store := vals.foldl (fun st (v : Nat × WData) => Table.insert st v.1 v.2) s.dict.store } }
  let s := s.bump Reg.storeCommits 1
  if e'.commits = 9000000 then s.setReg Reg.enduranceWarnings ((s.reg Reg.enduranceWarnings + 1) % 65536) else s

/-- Steps 6 and 7 of R467 for one commit; the refused counts and the refill are kept (R472, R474). -/
def State.tryCommit (s : State) (u : Nat) (vals : List (Nat × WData)) (ok : Bool) : Nat × State :=
  let fresh := vals.filter (fun v => s.stored v.1 v.2 != v.2)
  if fresh.isEmpty then (Status.ok, s)
  else if s.tokensNow u < tokenTicks then (Status.rateLimited, s.bump Reg.rateRefusals 1)
  else if (s.entry u).commits ≥ 10000000 then (Status.enduranceExhausted, s)
  else if !ok then (Status.storeFault, s)
  else (Status.ok, s.commit u fresh)

/-! Cell units (R265, R273), which UNITS reads. -/

/-- A row of R273: FR2, numerology, MHz, paths, downlink layers, uplink layers, hundredths of a unit. -/
def capacityRows : List (Bool × Nat × Nat × Nat × Nat × Nat × Nat) :=
  [(false, 0, 20, 2, 2, 2, 20), (false, 1, 40, 4, 4, 4, 45), (false, 1, 100, 4, 4, 4, 100), (false, 2, 100, 4, 4, 4, 110),
   (false, 1, 100, 8, 8, 4, 180), (true, 3, 400, 2, 2, 2, 300), (false, 1, 100, 32, 8, 8, 600), (false, 1, 100, 64, 16, 8, 1200)]

/-- The weight of a cell in hundredths of a unit, by the first row that covers it (R273); 0 where none does. A cell is FR2 with
μ 3 or above 100 MHz (log entry 54), and then μ is 2 or 3 (R265). -/
def State.unitsOf (s : State) (c : Nat) : Nat :=
  let mu := s.regN (Reg.cellNumerology c)
  let bw := s.regN (Reg.cellBandwidth c)
  let fr2 := decide (mu = 3 ∨ 100 < bw)
  let l := s.regN (Reg.cellLayers c)
  let dl := if bits l 7 4 = 0 then 16 else bits l 7 4
  let ul := bits l 3 0
  if (fr2 && decide (mu < 2)) || ul == 0 then 0
  else match capacityRows.find? (fun r => r.1 == fr2 && decide (mu ≤ r.2.1 ∧ bw ≤ r.2.2.1 ∧ s.regN (Reg.cellPaths c) ≤ r.2.2.2.1
      ∧ dl ≤ r.2.2.2.2.1 ∧ ul ≤ r.2.2.2.2.2.1)) with
    | some r => r.2.2.2.2.2.2
    | none => 0

/-! Bytes of values. -/

/-- The type encoding of a number (R461). -/
def ObjType.bytes (t : ObjType) (v : Int) : List Byte := bytesOf t.size (unsigned (8 * t.size) v)

/-- Bytes of an ASCII string given as numbers. -/
def ascii (l : List Nat) : List Byte := l.map (fun n => BitVec.ofNat 8 n)
/-- cdi0 (R569). -/
def cdi0 : List Byte := Config.hmacSha512 Config.uds (Config.sha512 Config.romImage)
/-- Private seed of the DeviceID key (R569): label ZK-DEVICEID. -/
def deviceSeed : List Byte := (Config.hmacSha512 cdi0 (ascii [0x5A, 0x4B, 0x2D, 0x44, 0x45, 0x56, 0x49, 0x43, 0x45, 0x49, 0x44])).take 32
/-- Some owner key slot is filled (R567). -/
def State.owned (s : State) : Bool := (List.range 4).any (fun k => !(s.blob (Reg.okeyOwnerKey k)).isEmpty)

/-- The first of the writes that wait and whose LNC has come, by LNC and then in order of arrival (R22, R23). INCREMENT without an LNC
waits for the tick (R27). -/
def State.dueWrite (s : State) : Option PendingWrite :=
  (s.dict.writes.filter (fun p => decide (p.lnc ≤ s.lnc) && !(p.key == Reg.increment && !p.named))).foldl
    (fun m p => match m with | none => some p | some x => if p.lnc < x.lnc then some p else some x) none

/-- A value that is only read, without any effect: stored registers, and those computed on the read (R28, R471, R459). -/
def State.peek (s : State) (a : Accessor) (u sub f : Nat) (o : ObjDef) : List Byte :=
  if sub = 0xFE ∧ hasEntry u then o.ty.bytes (s.entry u).commits
  else if sub = 0xFD ∧ hasEntry u then o.ty.bytes (s.tokensNow u / tokenTicks)
  else if u = 0x2000 ∧ sub = 0 then o.ty.bytes s.time.stc.time80
  else if u = 0x1000 ∧ sub = 1 then o.ty.bytes Config.siliconRev
  else if u = 0x1000 ∧ sub = 3 then o.ty.bytes (match Table.find? s.sec.running 2 with | some i => i.version | none => 0)
  else if u = 0x1001 ∧ sub = 1 then o.ty.bytes Config.mgMac
  else if u = 0x1030 ∧ sub = 0 then o.ty.bytes (Config.freeNat s.free)
  else if u = 0x9000 ∧ sub = 1 then o.ty.bytes ((if s.sec.unlocked then 1 else 0) + (if s.sec.ownerSign then 2 else 0) + (if s.owned then 4 else 0) : Nat)
  else if u = 0x9000 ∧ sub = 3 then Config.ed25519Public deviceSeed
  else if u = 0x9000 ∧ sub = 4 then Config.certChain s.sec.derivations
  else if u = 0x9000 ∧ sub = 5 then o.ty.bytes s.sec.bank
  else if 0x5400 ≤ u ∧ u ≤ 0x54FF ∧ sub = 6 then o.ty.bytes (s.unitsOf (u - 0x5400))
  else if 0x6400 ≤ u ∧ u ≤ 0x67FF ∧ sub = 0x25 then o.ty.bytes (s.creditNow ((u - 0x6400) / 16) ((u - 0x6400) % 16))
  else if u = 0x1010 then o.ty.bytes (s.windowOf a)
  else if u = 0x9040 ∧ sub = 1 then Table.get [] s.sec.responses (match a with | .hdp h => 1024 + h.session | _ => 2048)
  else if o.ty.isBytes then s.blob (objKey u sub f)
  else o.ty.bytes (s.reg (objKey u sub f))

end Sys2Proof.Machine
end

