-- ==== Sys2Proof/Machine/CellTime.lean ====
section
/-! DEFINITION. The times of a cell (R53, R276 to R280, R304), and its hold source (R306, R307) as the device reads its bytes. -/

set_option linter.unusedVariables false

namespace Sys2Proof.Machine

/-! Lookups. -/

/-- Cell `c` beside its objects. -/
def State.cell (s : State) (c : Nat) : Cell := Table.get {} s.radio.cells c
/-- Set it. -/
def State.setCell (s : State) (c : Nat) (x : Cell) : State := { s with radio := { s.radio with cells := Table.put {} s.radio.cells c x } }
/-- Change it. -/
def State.updCell (s : State) (c : Nat) (f : Cell → Cell) : State := s.setCell c (f (s.cell c))
/-- CELL_STATE: 0 STOPPED, 1 STARTING, 2 ON_AIR, 3 HOLD, 4 MOVING (R296). -/
def State.cellSt (s : State) (c : Nat) : Nat := s.regN (Reg.cellState c)
/-- Slot `n` of cell `c`. -/
def State.slotWork (s : State) (c n : Nat) : SlotWork := Table.get {} (s.cell c).slots n
/-- Set it. -/
def State.setSlotWork (s : State) (c n : Nat) (w : SlotWork) : State := s.updCell c (fun x => { x with slots := Table.put {} x.slots n w })

/-! Slots and frames (R53). A slot is named by the count of slots of its cell since the epoch. -/

/-- T_slot in ns. -/
def State.slotLen (s : State) (c : Nat) : Nat := slotNs (s.regN (Reg.cellNumerology c))
/-- Slots of a frame, 10 × 2^μ. -/
def State.perFrame (s : State) (c : Nat) : Nat := 10 * 2 ^ s.regN (Reg.cellNumerology c)
/-- t_air of slot `n`. -/
def State.airNs (s : State) (c n : Nat) : Nat := s.regN (Reg.cellFrameOffset c) + n * s.slotLen c
/-- The slot that holds an instant. -/
def State.slotAt (s : State) (c ns : Nat) : Nat := (ns - s.regN (Reg.cellFrameOffset c)) / s.slotLen c
/-- HSFN, SFN and slot number of slot `n`. -/
def State.slotName (s : State) (c n : Nat) : Nat × Nat × Nat :=
  let f := n / s.perFrame c
  (f / 1024 % 1024, f % 1024, n % s.perFrame c)
/-- The first frame boundary at or after an instant. -/
def State.frameFrom (s : State) (c ns : Nat) : Nat :=
  let o := s.regN (Reg.cellFrameOffset c)
  o + 10000000 * ceilDiv (ns - o) 10000000
/-- The next frame boundary with an identity of R299 after the present. -/
def State.frameNamed (s : State) (c id : Nat) : Nat :=
  let o := s.regN (Reg.cellFrameOffset c)
  let k := if s.nowNs < o then 0 else (s.nowNs - o) / 10000000 + 1
  o + 10000000 * (k + (id % 1048576 + 1048576 - k % 1048576) % 1048576)
/-- Order lead beyond t_air of the cut-off: T_slot + X + 20 µs (R278). -/
def State.cutLead (s : State) (c : Nat) : Nat := s.slotLen c + s.regN (Reg.cellExtraLead c) + 20000
/-- Downlink budget 0.4 × T_slot (R276). -/
def State.budgetDl (s : State) (c : Nat) : Nat := s.slotLen c * 2 / 5
/-- PUSCH bound P (R294). -/
def State.boundP (s : State) (c : Nat) : Nat := if s.reg (Reg.cellNumerology c) = 0 then 800000 else 400000
/-- Uplink budget P − Ta4_max − 20 µs (R277). -/
def State.budgetUl (s : State) (c : Nat) : Nat := s.boundP c - s.regN (Reg.cellTa4Max c) - 20000
/-- Downlink launch of slot `n` in ns (R276). -/
def State.launchDl (s : State) (c n : Nat) : Nat := s.airNs c n - s.regN (Reg.cellT1aMax c) - s.budgetDl c
/-- Uplink launch of slot `n` in ns (R277). -/
def State.launchUl (s : State) (c n : Nat) : Nat := s.airNs c n + s.slotLen c + s.regN (Reg.cellTa4Max c)
/-- Release point of slot `n` in ns (R304). -/
def State.releaseNs (s : State) (c n : Nat) : Nat := s.airNs c n - s.regN (Reg.cellT1aMax c)
/-- Start of symbol k of slot `n` (R337); symbols lie T_slot / 14 apart (log entry 34). -/
def State.symbolNs (s : State) (c n k : Nat) : Nat := s.airNs c n + k * s.slotLen c / 14

/-! The hold source (R306, R307). -/

/-- An entry: SLOT_INDEX, PDU_COUNT, LIST_LENGTH, DATA_OFFSET, DATA_LENGTH and its list. -/
structure HoldEntry where
  slotIndex : Nat
  pduCount : Nat
  dataOffset : Nat
  dataLength : Nat
  list : List Byte
deriving DecidableEq, Repr

/-- PERIOD, ENTRIES and LENGTH of the first 8 bytes. -/
def holdHeader (bs : List Byte) : Nat × Nat × Nat :=
  let h := natOf (bs.take 8)
  (bits h 63 56, bits h 47 32, bits h 31 0)

/-- The next `n` entries of the bytes; none where they do not fit. -/
def holdEntries (n : Nat) (bs : List Byte) : Option (List HoldEntry) :=
  match n with
  | 0 => some []
  | n + 1 =>
    let h := natOf (bs.take 16)
    let len := bits h 95 64
    if bs.length < 16 + len then none
    else
      let e : HoldEntry := { slotIndex := bits h 127 112, pduCount := bits h 111 96, dataOffset := bits h 63 32, dataLength := bits h 31 0
                             list := (bs.drop 16).take len }
      match holdEntries n ((bs.drop 16).drop ((len + 7) / 8 * 8)) with
      | some r => some (e :: r)
      | none => none

/-- The entries of a source. -/
def holdSourceEntries (bs : List Byte) : List HoldEntry := (holdEntries (holdHeader bs).2.1 (bs.drop 8)).getD []

/-- `n` PDUs of a hold list: PDCCH, SSB, or PDSCH with PREC_MODE 0, tiling it in multiples of 8 bytes; the rest of the list. -/
def holdPdus (n : Nat) (bs : List Byte) : Option (List Nat × List Byte) :=
  match n with
  | 0 => some ([], bs)
  | n + 1 =>
    let h := natOf (bs.take 8)
    let type := bits h 63 48
    let size := bits h 47 32
    let mode := ((bs.take size).getLast?.getD 0).toNat / 16
    if bs.length < 8 ∨ bs.length < size ∨ size < 8 ∨ size % 8 ≠ 0 then none
    else if ¬(type = 0 ∨ type = 3 ∨ (type = 1 ∧ 24 ≤ size ∧ mode = 0)) then none
    else match holdPdus n (bs.drop size) with
      | some (hs, r) => some (if type = 1 then bits h 31 0 :: hs else hs, r)
      | none => none

/-- Whether 24-byte payload entries fill the bytes: each for a PDSCH of the list, its block within the source. -/
def holdPayloads (n : Nat) (handles : List Nat) (total : Nat) (bs : List Byte) : Bool :=
  match n with
  | 0 => bs.isEmpty
  | n + 1 =>
    let e := natOf (bs.take 24)
    bs.isEmpty || (decide (24 ≤ bs.length) && handles.contains (bits e 191 160) && decide (bits e 159 152 ≤ 1)
      && decide (bits e 63 0 + bits e 127 96 ≤ total) && holdPayloads n handles total (bs.drop 24))

/-- One entry is valid. -/
def HoldEntry.valid (e : HoldEntry) (slots total : Nat) : Bool :=
  decide (e.slotIndex < slots ∧ 1 ≤ e.pduCount ∧ e.pduCount ≤ 64 ∧ e.dataOffset + e.dataLength ≤ total) &&
  match holdPdus e.pduCount e.list with
  | some (hs, r) => holdPayloads (r.length + 1) hs total r
  | none => false

/-- The source is valid (R306): LENGTH is its bytes, no two entries share a SLOT_INDEX (log entry 35). -/
def State.holdValid (s : State) (c : Nat) (bs : List Byte) : Bool :=
  let h := holdHeader bs
  [1, 2, 4, 8, 16].contains h.1 && h.2.2 == bs.length && decide (8 ≤ bs.length) &&
  match holdEntries h.2.1 (bs.drop 8) with
  | some es => es.all (fun e => e.valid (h.1 * s.perFrame c) bs.length) && (es.map (fun e => e.slotIndex)).Nodup
  | none => false

/-- The source has an entry for slot `n` (R307). -/
def State.holdHas (s : State) (c n : Nat) : Bool :=
  let bs := (s.cell c).holdSource
  (holdSourceEntries bs).any (fun e => e.slotIndex == n % ((holdHeader bs).1 * s.perFrame c))

/-- The launch count of the next standing hold launch of a cell (R308), if it has one. -/
def State.nextHoldOf (s : State) (c : Nat) : Option Nat :=
  let bs := (s.cell c).holdSource
  let p := (holdHeader bs).1 * s.perFrame c
  let first := s.slotAt c (s.nowNs + s.regN (Reg.cellT1aMax c) + s.budgetDl c) + 1
  if p = 0 ∨ s.cellSt c = 0 then none
  else (holdSourceEntries bs).foldl (fun m e =>
    let n := s.launchDl c (first + (e.slotIndex + p - first % p) % p) / 50
    match m with | none => some n | some x => some (min x n)) none

/-- The next standing hold launch on a tile: those of the cells of its cluster run on the lowest virtual radio tile (R308). -/
def State.nextHold (s : State) (tile : Nat) : Option Nat :=
  let k := tile / 64
  if (s.part (1 + k)).tiles.head? ≠ some tile then none
  else (List.filter (fun (e : Nat × Cell) => s.regN (Reg.cellCluster e.1) == k) s.radio.cells).foldl (fun m (e : Nat × Cell) =>
    match m, s.nextHoldOf e.1 with | none, x => x | some a, none => some a | some a, some b => some (min a b)) none

end Sys2Proof.Machine
end

