-- ==== Sys2Proof/Machine/Accounts.lean ====
section
/-! DEFINITION. Accounts per function (R101): every charge of the device goes through the operations of this file. Account 513
is chip overhead, index 0xA201. -/

set_option linter.unusedVariables false

namespace Sys2Proof.Machine

/-- The account of chip overhead (R81, R101). -/
def overheadAccount : Nat := 513

/-- Add whole tile-cycles to the pair of counters of a class, 64 tile-cycles and remainder (R101). -/
def State.addCycles (s : State) (f klass cycles : Nat) : State :=
  let total := s.regN (Reg.accCounter f (2 * klass)) * 64 + s.regN (Reg.accCounter f (2 * klass + 1)) + cycles
  (s.setReg (Reg.accCounter f (2 * klass)) ((total / 64 % 18446744073709551616 : Nat) : Int)).setReg (Reg.accCounter f (2 * klass + 1)) ((total % 64 : Nat) : Int)

/-- Move whole tile-cycles from one account to another (R519). -/
def State.moveCycles (s : State) (f g klass cycles : Nat) : State :=
  let total := s.regN (Reg.accCounter f (2 * klass)) * 64 + s.regN (Reg.accCounter f (2 * klass + 1))
  let c := min total cycles
  ((s.setReg (Reg.accCounter f (2 * klass)) (((total - c) / 64 : Nat) : Int)).setReg (Reg.accCounter f (2 * klass + 1)) (((total - c) % 64 : Nat) : Int)).addCycles g klass c

/-- Charge tenths of a tile-cycle to a function in a class (0 TEMPO, 1 BE); the part below one cycle is kept. -/
def State.chargeCycles (s : State) (f klass tenths : Nat) : State :=
  let g := s.func f
  let total := (if klass = 0 then g.restTempo else g.restBe) + tenths
  let g' := if klass = 0 then { g with restTempo := total % 10 } else { g with restBe := total % 10 }
  (s.setFunc f g').addCycles f klass (total / 10)

/-- Exact tile-cycles of a class (R101, R103). -/
def State.cyclesOf (s : State) (f klass : Nat) : Nat :=
  s.regN (Reg.accCounter f (2 * klass)) * 64 + s.regN (Reg.accCounter f (2 * klass + 1))

/-- Charge bytes in 256-byte granules, each charge rounded up (log entry 19): counter 6 GDDR7, 7 fabric, 8 fronthaul. -/
def State.chargeBytes (s : State) (f counter bytes : Nat) : State := s.bump (Reg.accCounter f counter) (ceilDiv bytes 256)

end Sys2Proof.Machine
end

