-- ==== Sys2Proof/Machine/Float.lean ====
section
/-! DEFINITION. Number formats and arithmetic (ch. 4): exact values, decoding of every format (R106, R107), narrowing
(R113 to R116), the exact sum of a step (R119, R120), accumulation (R121, R122, R125), VS FP32 arithmetic (R135), block
exponents (R128 to R133) and the table functions (R210, R211). -/

set_option linter.unusedVariables false

namespace Sys2Proof.Machine

/-! Exact values. -/

/-- A value as the arithmetic sees it: NaN, a signed infinity, or the exact number (−1)^neg × m × 2^e. -/
inductive Num where
  | nan
  | inf (neg : Bool)
  | fin (neg : Bool) (m : Nat) (e : Int)
deriving DecidableEq, Repr

/-- A result code with the sticky flags it sets (R117). -/
structure Res where
  code : Nat
  invalid : Bool := false
  saturated : Bool := false
deriving DecidableEq, Repr

/-- A floating-point format of R106: mantissa bits, exponent bits, bias, the code of the largest finite magnitude, whether
it has infinities, and its canonical NaN if it has one. -/
structure FloatFmt where
  mbits : Nat
  ebits : Nat
  bias : Nat
  maxCode : Nat
  hasInf : Bool
  nanCode : Option Nat
deriving DecidableEq, Repr

/-- FP32 (R106). -/
def fp32 : FloatFmt := ⟨23, 8, 127, 0x7F7FFFFF, true, some 0x7FC00000⟩
/-- FP64, as fabric atomics add it (R387). -/
def fp64 : FloatFmt := ⟨52, 11, 1023, 0x7FEFFFFFFFFFFFFF, true, some 0x7FF8000000000000⟩
/-- BF16 (R106). -/
def bf16 : FloatFmt := ⟨7, 8, 127, 0x7F7F, true, some 0x7FC0⟩
/-- FP16 (R106). -/
def fp16 : FloatFmt := ⟨10, 5, 15, 0x7BFF, true, some 0x7E00⟩
/-- FP8-E4M3 (R106). -/
def e4m3 : FloatFmt := ⟨3, 4, 7, 0x7E, false, some 0x7F⟩
/-- FP8-E5M2 (R106). -/
def e5m2 : FloatFmt := ⟨2, 5, 15, 0x7B, true, some 0x7E⟩
/-- FP4-E2M1 (R106). -/
def e2m1 : FloatFmt := ⟨1, 2, 1, 0x7, false, none⟩

/-- The sign bit's place. -/
def FloatFmt.signBit (f : FloatFmt) : Nat := f.mbits + f.ebits

/-- The value a code encodes (R106, R107, R108): a NaN by its exponent and mantissa alone, subnormals at full value. -/
def decodeFloat (f : FloatFmt) (c : Nat) : Num :=
  let neg := bit c f.signBit
  let mag := c % 2 ^ f.signBit
  let e := mag / 2 ^ f.mbits
  let m := mag % 2 ^ f.mbits
  if f.hasInf && e == 2 ^ f.ebits - 1 then (if m = 0 then .inf neg else .nan)
  else if f.nanCode == some mag && !f.hasInf then .nan
  else if e = 0 then .fin neg m (1 - (f.bias : Int) - f.mbits)
  else .fin neg (m + 2 ^ f.mbits) ((e : Int) - f.bias - f.mbits)

/-- 2^k times m, downwards when k is negative (floor). -/
def scale2 (m : Nat) (k : Int) : Nat := if k ≥ 0 then m * 2 ^ k.toNat else m / 2 ^ (-k).toNat

/-- Narrowing to a floating-point format: truncation toward zero, saturation, special values (R114, R115, R116). -/
def encodeFloat (f : FloatFmt) (x : Num) : Res :=
  match x with
  | .nan => match f.nanCode with
    | some c => { code := c }
    | none => { code := 0, invalid := true }
  | .inf neg =>
    let s := if neg then 2 ^ f.signBit else 0
    if f.hasInf then { code := s + (2 ^ f.ebits - 1) * 2 ^ f.mbits } else { code := s + f.maxCode, saturated := true }
  | .fin neg m e =>
    let s := if neg then 2 ^ f.signBit else 0
    if m = 0 then { code := s } else
    let top : Int := Nat.log2 m + e
    let emin : Int := 1 - (f.bias : Int)
    let ex := if top < emin then emin else top
    let mag := scale2 m (e - (ex - f.mbits)) + (ex - emin).toNat * 2 ^ f.mbits
    if mag > f.maxCode then { code := s + f.maxCode, saturated := true } else { code := s + mag }

/-- The exact integer that a finite value truncates to toward zero, after multiplication by 2^k (R114). -/
def truncInt (x : Num) (k : Int) : Int :=
  match x with
  | .fin neg m e => if neg then -(scale2 m (e + k) : Nat) else (scale2 m (e + k) : Nat)
  | _ => 0

/-- Saturation of an integer to [lo, hi] (R115). -/
def satRange (lo hi x : Int) : Int × Bool := if x > hi then (hi, true) else if x < lo then (lo, true) else (x, false)

/-- Saturation to a signed width. -/
def satBits (w : Nat) (x : Int) : Int × Bool := satRange (-(2 ^ (w - 1) : Nat)) ((2 ^ (w - 1) : Nat) - 1) x

/-- Narrowing of a value times 2^k to a signed integer code of `w` bits (R114 to R116). -/
def encodeInt (w : Nat) (k : Int) (x : Num) : Res :=
  match x with
  | .nan => { code := 0, invalid := true }
  | .inf neg => { code := unsigned w (if neg then -(2 ^ (w - 1) : Nat) else (2 ^ (w - 1) : Nat) - 1), saturated := true }
  | .fin .. => let r := satBits w (truncInt x k); { code := unsigned w r.1, saturated := r.2 }

/-- An exact integer as a value. -/
def numOfInt (z : Int) (e : Int) : Num := .fin (z < 0) z.natAbs e

/-! Arithmetic. -/

/-- Whether a value is zero. -/
def Num.isZero (x : Num) : Bool := match x with | .fin _ 0 _ => true | _ => false
/-- Whether a value is NaN. -/
def Num.isNan (x : Num) : Bool := match x with | .nan => true | _ => false
/-- The negated value. -/
def Num.neg (x : Num) : Num := match x with | .nan => .nan | .inf s => .inf (!s) | .fin s m e => .fin (!s) m e
/-- The sign of a value. -/
def Num.sign (x : Num) : Bool := match x with | .nan => false | .inf s => s | .fin s _ _ => s

/-- The exact sum of two finite values as a signed integer and exponent. -/
def addFin (n1 : Bool) (m1 : Nat) (e1 : Int) (n2 : Bool) (m2 : Nat) (e2 : Int) : Int × Int :=
  let e := if e1 < e2 then e1 else e2
  let a : Int := (m1 * 2 ^ (e1 - e).toNat : Nat)
  let b : Int := (m2 * 2 ^ (e2 - e).toNat : Nat)
  ((if n1 then -a else a) + (if n2 then -b else b), e)

/-- IEEE addition before rounding, and whether it makes a NaN from no NaN (R117, R135): two zeros of one sign keep it,
any other zero sum is +0. -/
def Num.add (x y : Num) : Num × Bool :=
  match x, y with
  | .nan, _ => (.nan, false)
  | _, .nan => (.nan, false)
  | .inf a, .inf b => if a = b then (.inf a, false) else (.nan, true)
  | .inf a, _ => (.inf a, false)
  | _, .inf b => (.inf b, false)
  | .fin n1 m1 e1, .fin n2 m2 e2 =>
    let z := addFin n1 m1 e1 n2 m2 e2
    if z.1 = 0 then (.fin (n1 && n2 && m1 == 0 && m2 == 0) 0 0, false) else (numOfInt z.1 z.2, false)

/-- IEEE multiplication before rounding, and whether it makes a NaN from no NaN (R135: zero times infinity is NaN). -/
def Num.mul (x y : Num) : Num × Bool :=
  match x, y with
  | .nan, _ => (.nan, false)
  | _, .nan => (.nan, false)
  | .inf a, y => if y.isZero then (.nan, true) else (.inf (a != y.sign), false)
  | .fin n m e, .inf b => if m = 0 then (.nan, true) else (.inf (n != b), false)
  | .fin n1 m1 e1, .fin n2 m2 e2 => (.fin (n1 != n2) (m1 * m2) (e1 + e2), false)

/-- The product of a cube or MV step: a zero factor wins over infinity and NaN (R119). -/
def Num.cubeMul (x y : Num) : Num :=
  if x.isZero || y.isZero then .fin false 0 0 else (x.mul y).1

/-- The error-free sum of a step's products: NaN if any product is NaN or both infinities occur (second part: the flag of
R117), infinity if any is infinite, else exact with zero as +0 (R120). -/
def exactSum (ps : List Num) : Num × Bool :=
  if ps.any Num.isNan then (.nan, false)
  else
    let pos := ps.any (fun p => p == .inf false)
    let neg := ps.any (fun p => p == .inf true)
    if pos && neg then (.nan, true) else if pos then (.inf false, false) else if neg then (.inf true, false)
    else
      let z := ps.foldl (fun (a : Int × Int) p => match p with
        | .fin n m e => if m = 0 then a else if a.1 = 0 then ((if n then -(m : Int) else m), e)
                        else addFin (a.1 < 0) a.1.natAbs a.2 n m e
        | _ => a) (0, 0)
      (numOfInt z.1 z.2, false)

/-- One FP32 accumulation of an exact sum: truncated once; an FP32 accumulator never holds −0 (R121, R123). -/
def accumFp32 (acc : Nat) (sum : Num) : Res :=
  let r := (decodeFloat fp32 acc).add sum
  let c := encodeFloat fp32 r.1
  { c with code := if c.code = 0x80000000 then 0 else c.code, invalid := c.invalid || r.2 }

/-- One INT32 accumulation with saturation (R122). -/
def accumInt32 (acc : Int) (sum : Int) : Int × Bool := satBits 32 (acc + sum)

/-- One complex part's accumulation in Q18.30, 48 bits (R125). -/
def accumQ48 (acc : Int) (sum : Int) : Int × Bool := satBits 48 (acc + sum)

/-- FP32 operation of the VS: exact, then truncated (R135). -/
def finishFp32 (r : Num × Bool) : Res := let c := encodeFloat fp32 r.1; { c with invalid := c.invalid || r.2 }
/-- VS FP32 addition (R135). -/
def fp32Add (a b : Nat) : Res := finishFp32 ((decodeFloat fp32 a).add (decodeFloat fp32 b))
/-- VS FP32 subtraction (R135). -/
def fp32Sub (a b : Nat) : Res := finishFp32 ((decodeFloat fp32 a).add (decodeFloat fp32 b).neg)
/-- VS FP32 multiplication (R135). -/
def fp32Mul (a b : Nat) : Res := finishFp32 ((decodeFloat fp32 a).mul (decodeFloat fp32 b))
/-- FP64 addition of a fabric atomic, truncated as R135 (R387). -/
def fp64Add (a b : Nat) : Res :=
  let r := (decodeFloat fp64 a).add (decodeFloat fp64 b)
  let c := encodeFloat fp64 r.1
  { c with invalid := c.invalid || r.2 }

/-- An order of FP32 codes without NaN in which −0 lies below +0 (R188, VMAX and VMIN): the code's rank. -/
def fp32Rank (c : Nat) : Int := if bit c 31 then -((c % 2 ^ 31 : Nat) : Int) - 1 else ((c % 2 ^ 31 : Nat) : Int)
/-- Whether an FP32 code is a NaN. -/
def fp32IsNan (c : Nat) : Bool := (decodeFloat fp32 c).isNan
/-- FP32 maximum (R188). -/
def fp32Max (a b : Nat) : Nat := if fp32IsNan a || fp32IsNan b then 0x7FC00000 else if fp32Rank a ≥ fp32Rank b then a else b
/-- FP32 minimum (R188). -/
def fp32Min (a b : Nat) : Nat := if fp32IsNan a || fp32IsNan b then 0x7FC00000 else if fp32Rank a ≤ fp32Rank b then a else b
/-- FP32 greater-than: false with a NaN, and zeros of either sign are equal (R188, IEEE 754). -/
def fp32Gt (a b : Nat) : Bool :=
  if fp32IsNan a || fp32IsNan b then false
  else if a % 2 ^ 31 = 0 && b % 2 ^ 31 = 0 then false else fp32Rank a > fp32Rank b

/-- The least FP32 code pattern of an integer narrowed toward zero. -/
def fp32OfInt (z : Int) : Res := encodeFloat fp32 (numOfInt z 0)

/-! Formats by code (R170). -/

/-- Element bits of a format code (R106, R170); 0 for reserved codes and BFP. -/
def fmtBits (c : Nat) : Nat :=
  match c with
  | 0 => 32 | 1 => 16 | 2 => 16 | 3 => 8 | 4 => 8 | 5 => 4 | 6 => 8 | 7 => 4 | 8 => 32 | _ => 0

/-- The floating-point format of a code. -/
def fmtFloat (c : Nat) : Option FloatFmt :=
  match c with
  | 0 => some fp32 | 1 => some bf16 | 2 => some fp16 | 3 => some e4m3 | 4 => some e5m2 | 5 => some e2m1 | _ => none

/-- The value of one element of a real format: floats decoded, integers as integers, MXINT8 times 2⁻⁶ (R106, R111). -/
def decodeElem (fmt : Nat) (mx : Bool) (c : Nat) : Num :=
  match fmtFloat fmt with
  | some f => decodeFloat f c
  | none => if fmt = 6 then numOfInt (signed 8 c) (if mx then -6 else 0) else numOfInt (signed 4 c) 0

/-- The value of an E8M0 scale byte (R110). -/
def decodeScale (b : Nat) : Num := if b = 255 then .nan else .fin false 1 ((b : Int) - 127)

/-- An element times its scale: a zero element stays zero whatever the scale (R111, R112). -/
def scaledElem (x : Num) (b : Nat) : Num := if x.isZero then x else (x.mul (decodeScale b)).1

/-- Narrow an FP32 accumulator to a format code (R114 to R116). -/
def narrowFp32 (fmt : Nat) (c : Nat) : Res :=
  match fmtFloat fmt with
  | some f => if fmt = 0 then { code := c } else encodeFloat f (decodeFloat fp32 c)
  | none => if fmt = 6 then encodeInt 8 0 (decodeFloat fp32 c) else encodeInt 4 0 (decodeFloat fp32 c)

/-- Narrow an INT32 accumulator to a format code: code 0 writes INT32 (R114, R115, R215). -/
def narrowInt32 (fmt : Nat) (z : Int) : Res :=
  if fmt = 0 then { code := unsigned 32 z }
  else match fmtFloat fmt with
  | some f => encodeFloat f (numOfInt z 0)
  | none => let r := satBits (if fmt = 6 then 8 else 4) z; { code := unsigned (if fmt = 6 then 8 else 4) r.1, saturated := r.2 }

/-! Fixed point and block exponents. -/

/-- Floor division by 2^k of a signed integer. -/
def shrFloor (x : Int) (k : Nat) : Int := x / (2 ^ k : Nat)

/-- sat16 with its flag (R126, R181). -/
def sat16 (x : Int) : Int × Bool := satBits 16 x

/-- Narrow a 30-fraction-bit code with shift n to a CI16 part (R126, R127, R181). -/
def narrowQ30 (x : Int) (n : Nat) : Int × Bool := sat16 (shrFloor x (15 + n))

/-- Redundant sign bits of a 16-bit part; 0 and −1 count 15 (R200). -/
def redundantSigns (c : Int) : Nat :=
  let m := if c < 0 then (-c - 1).toNat else c.toNat
  if m = 0 then 15 else 14 - Nat.log2 m

/-- The clamp of a block exponent (R128): the exponent, what each part becomes, and whether SATURATED is set, as every clamping to 127
does (R117). -/
def clampExp (e : Int) (parts : List Int) : Int × List Int × Bool :=
  if e > 127 then (127, parts.map (fun c => if c > 0 then 32767 else if c < 0 then -32768 else 0), true)
  else if e < -128 then (-128, parts.map (fun c => shrFloor c (-128 - e).toNat), false)
  else (e, parts, false)

/-- The BFP mantissa width of a WIDTH code (R218). -/
def bfpWidth (w : Nat) : Option Nat :=
  match w with
  | 0 => some 8 | 1 => some 9 | 2 => some 12 | 3 => some 14 | 4 => some 16 | _ => none

/-- Bytes of a BFP block (R131). -/
def bfpBytes (w : Nat) : Nat := 1 + (24 * w + 7) / 8

/-- Unpack one BFP block: 24 CI16 parts and the block exponent (R131, R132). -/
def bfpUnpack (w : Nat) (bs : List Byte) : List Int × Int :=
  let x := (natOf (bs.take 1)) % 16
  let big := (bs.drop 1).foldl (fun n b => n * 256 + b.toNat) 0
  let total := 8 * (bs.length - 1)
  ((List.range 24).map (fun i => signed w (big / 2 ^ (total - w * (i + 1))) * (2 ^ (16 - w) : Nat)), (x : Int) - (16 - w))

/-- Pack 24 CI16 parts with exponent E at width w, and whether SATURATED is set (R133). -/
def bfpPack (w : Nat) (parts : List Int) (e : Int) : List Byte × Bool :=
  let n := (parts.map redundantSigns).foldl min 15
  let s : Int := if 16 - n > w then ((16 - n - w : Nat) : Int) else 0
  let x0 := max 0 (s + e)
  let x := min 15 x0
  let q := parts.map (fun c => satBits w (truncShift c (e - x)))
  let big := q.foldl (fun a m => a * 2 ^ w + unsigned w m.1) 0
  let total := 8 * (bfpBytes w - 1)
  let pay := bytesOf (bfpBytes w - 1) (big * 2 ^ (total - 24 * w))
  (BitVec.ofNat 8 x.toNat :: pay.reverse, decide (x0 > 15) || q.any (fun m => m.2))
where
  /-- floor(c × 2^k). -/
  truncShift (c : Int) (k : Int) : Int := if k ≥ 0 then c * (2 ^ k.toNat : Nat) else shrFloor c (-k).toNat

/-! Table functions (R210, R211). -/

/-- Integer square root by bits from the top: the largest r with r² ≤ n and r < 2^(k). -/
def isqrtBits (n : Nat) (k : Nat) (r : Nat) : Nat :=
  match k with
  | 0 => r
  | k + 1 => let t := r + 2 ^ k; isqrtBits n k (if t * t ≤ n then t else r)

/-- Integer 256th root: floor(n^(1/256)), by eight square roots (each floor of a floor root is the floor of the root). -/
def root256 (n : Nat) (k : Nat) : Nat :=
  let r1 := isqrtBits n (k / 2 + 1) 0
  let r2 := isqrtBits r1 (k / 4 + 1) 0
  let r3 := isqrtBits r2 (k / 8 + 1) 0
  let r4 := isqrtBits r3 (k / 16 + 1) 0
  let r5 := isqrtBits r4 (k / 32 + 1) 0
  let r6 := isqrtBits r5 (k / 64 + 1) 0
  let r7 := isqrtBits r6 (k / 128 + 1) 0
  isqrtBits r7 (k / 256 + 1) 0

/-- EXP2 table entry t[i] = trunc(2^(i/256)), i from 0 to 256: floor(2^(i/256) × 2^23) is the 256th root of 2^(i + 23×256). -/
def exp2Entry (i : Nat) : Nat := (encodeFloat fp32 (.fin false (root256 (2 ^ (i + 5888)) 6145) (-23))).code

/-- RECIP table entry t[i] = trunc(1/(1 + i/256)) = trunc(256/(256+i)). -/
def recipEntry (i : Nat) : Nat := (encodeFloat fp32 (.fin false (2 ^ 48 / (256 + i)) (-40))).code

/-- RSQRT table entry t[i] = trunc(1/√(1 + i/128)) for y from 1 to 4: floor(√(128/(128+i)) × 2^40). -/
def rsqrtEntry (i : Nat) : Nat := (encodeFloat fp32 (.fin false (isqrtBits (2 ^ 87 / (128 + i)) 45 0) (-40))).code

/-- Table interpolation of R210 in FP32: the exact argument offset (y − a) is m × 2^e ≥ 0, segments are 2^−k wide. -/
def interpolate (entry : Nat → Nat) (k : Nat) (m : Nat) (e : Int) : Nat :=
  let i := scale2 m (e + k)
  -- the remainder r = u − i, exact
  let r : Num := if e + k ≥ 0 then .fin false 0 0 else .fin false (m % 2 ^ (-(e + k)).toNat) (e + k)
  let d := (fp32Sub (entry (i + 1)) (entry i)).code
  let p := (finishFp32 ((decodeFloat fp32 d).mul r)).code
  (fp32Add (entry i) p).code

/-- The result v scaled by 2^n, truncated and saturated (R210). -/
def scaleFp32 (neg : Bool) (v : Nat) (n : Int) : Res :=
  match decodeFloat fp32 v with
  | .fin _ m e => encodeFloat fp32 (.fin neg m (e + n))
  | x => encodeFloat fp32 x

/-- EXP2 (R211). -/
def fnExp2 (x : Nat) : Res :=
  match decodeFloat fp32 x with
  | .nan => { code := 0x7FC00000 }
  | .inf false => { code := 0x7F7FFFFF, saturated := true }
  | .inf true => { code := 0 }
  | .fin neg m e =>
    -- compare with 128 and −149
    let ge128 := !neg && decide (scale2 m e ≥ 128)
    let whole := scale2 m e
    let isInt := decide (e ≥ 0) || decide (m % 2 ^ (-e).toNat = 0)
    let below := neg && (decide (whole > 149) || (decide (whole = 149) && !isInt))
    if ge128 then { code := 0x7F7FFFFF, saturated := true }
    else if below then { code := 0 }
    else
      let n : Int := if neg then (if isInt then -(whole : Int) else -(whole : Int) - 1) else whole
      -- y = x − n in [0, 1), exact
      let y : Nat × Int := if isInt then (0, 0) else
        let fr := m % 2 ^ (-e).toNat
        if neg then (2 ^ (-e).toNat - fr, e) else (fr, e)
      scaleFp32 false (interpolate exp2Entry 8 y.1 y.2) n

/-- RECIP (R211). -/
def fnRecip (x : Nat) : Res :=
  match decodeFloat fp32 x with
  | .nan => { code := 0x7FC00000 }
  | .inf s => { code := if s then 0x80000000 else 0 }
  | .fin neg m e =>
    if m = 0 then { code := if neg then 0xFF7FFFFF else 0x7F7FFFFF, saturated := true }
    else
      let l := Nat.log2 m
      -- y − 1 = (m − 2^l) × 2^−l
      scaleFp32 neg (interpolate recipEntry 8 (m - 2 ^ l) (-(l : Int))) (-(l + e))

/-- RSQRT (R211). -/
def fnRsqrt (x : Nat) : Res :=
  match decodeFloat fp32 x with
  | .nan => { code := 0x7FC00000 }
  | .inf true => { code := 0x7FC00000, invalid := true }
  | .inf false => { code := 0 }
  | .fin neg m e =>
    if m = 0 then { code := 0x7F7FFFFF, saturated := true }
    else if neg then { code := 0x7FC00000, invalid := true }
    else
      let t : Int := Nat.log2 m + e
      let j := t / 2
      -- y = m × 2^(e − 2j) in [1, 4); y − 1 exact
      let k : Int := e - 2 * j
      let z := addFin false m k true 1 0
      scaleFp32 false (interpolate rsqrtEntry 7 z.1.natAbs z.2) (-j)

/-- Combine flags of composed functions. -/
def Res.after (a : Res) (b : Res) : Res := { b with invalid := a.invalid || b.invalid, saturated := a.saturated || b.saturated }

/-- EXP (R211). -/
def fnExp (x : Nat) : Res := let a := fp32Mul x 0x3FB8AA3B; a.after (fnExp2 a.code)
/-- The negated FP32 code (exact). -/
def fp32Neg (x : Nat) : Nat := if bit x 31 then x - 2 ^ 31 else x + 2 ^ 31
/-- SIGMOID (R211). -/
def fnSigmoid (x : Nat) : Res :=
  let a := fnExp (fp32Neg x)
  let b := fp32Add 0x3F800000 a.code
  (a.after b).after (fnRecip b.code)
/-- SILU (R211). -/
def fnSilu (x : Nat) : Res := let a := fnSigmoid x; a.after (fp32Mul x a.code)
/-- GELU (R211). -/
def fnGelu (x : Nat) : Res :=
  let t := fp32Mul x 0x3FD9DB22
  let a := fnSigmoid t.code
  (t.after a).after (fp32Mul x a.code)
/-- TANH (R211). -/
def fnTanh (x : Nat) : Res :=
  let t := fp32Mul 0x40000000 x
  let a := fnSigmoid t.code
  let b := fp32Mul 0x40000000 a.code
  ((t.after a).after b).after (fp32Sub b.code 0x3F800000)

end Sys2Proof.Machine
end

