-- ==== Sys2Proof/Machine/Flags.lean ====
section
/-! DEFINITION. The sticky flags of a task (R117): how a result sets them. They never change a result bit. -/

namespace Sys2Proof.Machine

/-- Set INVALID and SATURATED where a result asks for it; they stay set (R117). -/
def Vs.flag (v : Vs) (inv sat : Bool) : Vs := { v with invalid := v.invalid || inv, saturated := v.saturated || sat }
/-- The flags as RDFLG reads them (R188): bit 0 INVALID, bit 1 SATURATED. -/
def Vs.flagWord (v : Vs) : Nat := (if v.invalid then 1 else 0) + (if v.saturated then 2 else 0)
/-- Whether any of a list of saturated parts saturated. -/
def anySat (l : List (Int × Bool)) : Bool := l.any (fun p => p.2)
/-- Flags of a list of results. -/
def anyInvalid (l : List Res) : Bool := l.any (fun r => r.invalid)
/-- Flags of a list of results. -/
def anySaturated (l : List Res) : Bool := l.any (fun r => r.saturated)

end Sys2Proof.Machine
end

