-- ==== Sys2Proof/Machine/Operands.lean ====
section
/-! DEFINITION. Operand forms of the vector sequencer: registers and lanes (R177, R179), tile memory (R161, R185) and the
address modes (R183, R184). -/

set_option linter.unusedVariables false

namespace Sys2Proof.Machine

/-! Registers. -/

/-- V register. -/
def Vs.getV (x : Vs) (i : Nat) : VecReg := Table.get 0 x.v (i % 32)
/-- Write a V register. -/
def Vs.setV (x : Vs) (i : Nat) (r : VecReg) : Vs := { x with v := Table.put 0 x.v (i % 32) r }
/-- Accumulator. -/
def Vs.getA (x : Vs) (i : Nat) : BitVec 2560 := Table.get 0 x.a (i % 4)
/-- Write an accumulator. -/
def Vs.setA (x : Vs) (i : Nat) (r : BitVec 2560) : Vs := { x with a := Table.put 0 x.a (i % 4) r }
/-- Scalar. -/
def Vs.getS (x : Vs) (i : Nat) : Word64 := Table.get 0 x.s (i % 16)
/-- Write a scalar. -/
def Vs.setS (x : Vs) (i : Nat) (r : Word64) : Vs := { x with s := Table.put 0 x.s (i % 16) r }
/-- Pointer. -/
def Vs.getP (x : Vs) (i : Nat) : Word32 := Table.get 0 x.p (i % 8)
/-- Write a pointer. -/
def Vs.setP (x : Vs) (i : Nat) (r : Word32) : Vs := { x with p := Table.put 0 x.p (i % 8) r }
/-- Pointer modifier. -/
def Vs.getQ (x : Vs) (i : Nat) : Half := Table.get 0 x.q (i % 8)
/-- Write a pointer modifier. -/
def Vs.setQ (x : Vs) (i : Nat) (r : Half) : Vs := { x with q := Table.put 0 x.q (i % 8) r }
/-- Buffer base or row start. -/
def Vs.getB (x : Vs) (i : Nat) : Word32 := Table.get 0 x.b (i % 8)
/-- Write a buffer base. -/
def Vs.setB (x : Vs) (i : Nat) (r : Word32) : Vs := { x with b := Table.put 0 x.b (i % 8) r }
/-- Buffer length or row count. -/
def Vs.getN (x : Vs) (i : Nat) : Half := Table.get 0 x.n (i % 8)
/-- Write a buffer length. -/
def Vs.setN (x : Vs) (i : Nat) (r : Half) : Vs := { x with n := Table.put 0 x.n (i % 8) r }

/-! Lanes (R179). -/

/-- Element `i` of `w` bits of a register, unsigned. -/
def elem (w : Nat) (r : VecReg) (i : Nat) : Nat := r.toNat / 2 ^ (w * i) % 2 ^ w
/-- The 16-bit part `i` as a signed code: real part of lane k at 2k, imaginary at 2k + 1. -/
def part16 (r : VecReg) (i : Nat) : Int := signed 16 (r.toNat / 2 ^ (16 * i))
/-- The 64 parts. -/
def parts16 (r : VecReg) : List Int := (List.range 64).map (part16 r)
/-- The 32 lanes as unsigned 32-bit values. -/
def lanes32 (r : VecReg) : List Nat := (List.range 32).map (elem 32 r)
/-- The number whose digits of `w` bits are the list, first digit lowest. -/
def packNat (w : Nat) (l : List Nat) : Nat := l.foldr (fun d n => d % 2 ^ w + n * 2 ^ w) 0
/-- A register from 64 signed 16-bit codes. -/
def ofParts (l : List Int) : VecReg := BitVec.ofNat 1024 (packNat 16 (l.map (unsigned 16)))
/-- A register from 32 lane values. -/
def ofLanes (l : List Nat) : VecReg := BitVec.ofNat 1024 (packNat 32 l)
/-- Part `j` of an accumulator, a signed 40-bit Q10.30 code. -/
def acc40 (r : BitVec 2560) (j : Nat) : Int := signed 40 (r.toNat / 2 ^ (40 * j))
/-- The 64 parts of an accumulator. -/
def accParts (r : BitVec 2560) : List Int := (List.range 64).map (acc40 r)
/-- An accumulator from 64 codes. -/
def ofAcc (l : List Int) : BitVec 2560 := BitVec.ofNat 2560 (packNat 40 (l.map (unsigned 40)))

/-- Exact lane products of R180 in Q2.30, 64 parts: complex (with CONJ) for mode 0, dual real otherwise. -/
def laneProducts (lmode : Nat) (conj : Bool) (a b : VecReg) : List Int :=
  (List.range 64).map (fun i =>
    if lmode = 1 then part16 a i * part16 b i
    else
      let k := i / 2
      let ar := part16 a (2 * k)
      let ai := part16 a (2 * k + 1)
      let br := part16 b (2 * k)
      let bi := if conj then -part16 b (2 * k + 1) else part16 b (2 * k + 1)
      if i % 2 = 0 then ar * br - ai * bi else ar * bi + ai * br)

/-! Tile memory (R161, R185). -/

/-- Bytes of tile SRAM. -/
def sramBytes : Nat := 67108864
/-- One byte of tile SRAM. -/
def Tile.byte (t : Tile) (a : Nat) : Byte := Table.get 0 t.mem a
/-- `n` bytes from address `a`. -/
def Tile.read (t : Tile) (a n : Nat) : List Byte :=
  match n with
  | 0 => []
  | n + 1 => t.byte a :: t.read (a + 1) n
/-- Write bytes from address `a` on. -/
def writeMem (m : Table Byte) (a : Nat) (bs : List Byte) : Table Byte :=
  match bs with
  | [] => m
  | b :: r => writeMem (Table.put 0 m a b) (a + 1) r
/-- Write bytes into tile SRAM; a poisoned word that is written whole is good again (R369). -/
def Tile.write (t : Tile) (a : Nat) (bs : List Byte) : Tile :=
  { t with mem := writeMem t.mem a bs, poison := t.poison.filter (fun w => decide (8 * w < a ∨ a + bs.length < 8 * w + 8)) }
/-- Write bytes at listed addresses, in order. -/
def Tile.scatter (t : Tile) (l : List (Nat × Byte)) : Tile :=
  { t with
    mem := l.foldl (fun m e => Table.put 0 m e.1 e.2) t.mem
    poison := t.poison.filter (fun w => !(List.range 8).all (fun i => l.any (fun e => e.1 == 8 * w + i))) }
/-- A poisoned word lies under `n` bytes at an address (R369). -/
def Tile.poisoned (t : Tile) (a n : Nat) : Bool := t.poison.any (fun w => decide (8 * w < a + n ∧ a < 8 * w + 8))
/-- First byte of the loan window of a tile (R165). -/
def Tile.loanBase (t : Tile) : Nat := 65536 * (1024 - t.loan)
/-- Place of the borrower save area: the last 16 KiB of the tile's SRAM (R74, R165). -/
def saveAreaBase : Nat := 0x03FFC000
/-- Page `p` serves context `c`: allocated to it (R185), or, for the radio's own work, outside the loan window (R165). -/
def Tile.pageOf (t : Tile) (c p : Nat) : Bool :=
  if c = 65535 then decide (p < 1024 - t.loan) else (Table.get [] t.pages p).contains c
/-- Byte `a` lies in a page of context `c` (R185). -/
def Tile.owns (t : Tile) (c a : Nat) : Bool := decide (a < sramBytes) && t.pageOf c (a / 65536)
/-- Whether a whole range lies in pages allocated to context `c`: its ends and every page between. -/
def Tile.ownsRange (t : Tile) (c a n : Nat) : Bool :=
  n == 0 || (decide (a + n ≤ sramBytes) &&
    (List.range ((a + n - 1) / 65536 - a / 65536 + 1)).all (fun i => t.pageOf c (a / 65536 + i)))

/-! Address modes (R183, R184). -/

/-- Reverse the low `m` bits of `x`. -/
def bitrev (x m : Nat) : Nat :=
  match m with
  | 0 => 0
  | m + 1 => (x % 2) * 2 ^ m + bitrev (x / 2) m

/-- What an access touches: the byte addresses in order, or the fault code (R199: 5 ALIGNMENT, 6 VS_ACCESS). In OFF mode P + IMM32 is
taken modulo 2³², so that a negative offset goes back: the spec states neither a sign nor what happens past 2³² (DESIGN CHOICE, log
entry 152). -/
def accessAddrs (x : Vs) (f : MFields) (size : Nat) : Except Nat (List Nat) :=
  let k := f.pk % 8
  let p := (x.getP k).toNat
  let b := (x.getB k).toNat
  let n := (x.getN k).toNat
  let unit := if size = 128 then 4 else 8
  match f.amode with
  | 1 =>
    let ea := (p + f.imm32) % 4294967296
    if ea % unit ≠ 0 then .error 5 else .ok ((List.range size).map (fun j => ea + j))
  | 2 =>
    if p % unit ≠ 0 then .error 5
    else if n % 4 ≠ 0 ∨ n < size ∨ p < b ∨ b + n ≤ p then .error 6
    else .ok ((List.range size).map (fun j => b + (p - b + j) % n))
  | 3 =>
    if b % 4 ≠ 0 then .error 5
    else if n < 128 ∨ n > 32768 ∨ 2 ^ Nat.log2 n ≠ n then .error 6
    else
      let m := Nat.log2 n - 2
      .ok ((List.range size).map (fun j => b + 4 * bitrev ((p / 4 + j / 4) % 2 ^ m) m + j % 4))
  | 4 =>
    if p % unit ≠ 0 then .error 5
    else if (x.getQ k) = 0 then .error 6
    else .ok ((List.range size).map (fun j => p + j))
  | _ => if p % unit ≠ 0 then .error 5 else .ok ((List.range size).map (fun j => p + j))

/-- The address registers after an access (R183); NOMOD and OFF leave them. -/
def accessUpdate (x : Vs) (f : MFields) : Vs :=
  let k := f.pk % 8
  let p : Int := (x.getP k).toNat
  let b : Int := (x.getB k).toNat
  let q := (x.getQ k).toInt
  let n : Int := (x.getN k).toNat
  if f.nomod then x else
  match f.amode with
  | 1 => x
  | 2 => x.setP k (BitVec.ofInt 32 (b + (p - b + q) % n))
  | 3 => x.setP k (BitVec.ofInt 32 ((p + q) % n))
  | 4 =>
    let p' := BitVec.ofInt 32 (p + q)
    if p' = BitVec.ofInt 32 (b + n * q) then
      let b' := BitVec.ofInt 32 (b + (x.getQ (if k % 2 = 0 then k + 1 else k - 1)).toInt)
      (x.setB k b').setP k b'
    else x.setP k p'
  | _ => x.setP k (BitVec.ofInt 32 (p + q))

/-- The addresses of an access that context `c` may make, or its fault; ALIGNMENT before VS_ACCESS (R185). -/
def checkedAddrs (t : Tile) (c : Nat) (f : MFields) (size : Nat) : Except Nat (List Nat) :=
  match accessAddrs t.live.vs f size with
  | .error e => .error e
  | .ok l => if l.all (t.owns c) then .ok l else .error 6

end Sys2Proof.Machine
end

