-- ==== Sys2Proof/Machine/Sequencer.lean ====
section
/-! DEFINITION. How the vector sequencer runs an instruction: legality (R186, R187), readiness, faults (R198, R199), the
advance of the program counter through delay slots and repeats (R192, R193), preemption points (R194). -/

set_option linter.unusedVariables false

namespace Sys2Proof.Machine

/-! Legality. Every field an opcode does not use must be 0 (R186). -/

/-- V class: allowed lane modes, and which fields the opcode uses; SHIFT must be 0 in FP32 mode, CONJ only in complex products. -/
def legalV (f : VFields) (modes : List Nat) (conj vd va vb vc shift imm : Bool) : Bool :=
  modes.contains f.lmode && (conj && f.lmode == 0 || !f.conj) && (vd || f.vd == 0) && (va || f.va == 0) && (vb || f.vb == 0)
    && (vc || f.vc == 0) && (shift && f.lmode != 2 || f.shift == 0) && (imm || f.imm16 == 0) && f.rsvd == 0
/-- A class. -/
def legalA (f : AFields) (conj ad as' va vb vd shift : Bool) : Bool :=
  (f.lmode == 0 || f.lmode == 1) && (conj && f.lmode == 0 || !f.conj) && (ad || f.ad == 0) && (as' || f.as == 0)
    && (va || f.va == 0) && (vb || f.vb == 0) && (vd || f.vd == 0) && (shift || f.shift == 0) && f.rsvd == 0
/-- A load or store: modes, RD limit, IMM32 only in OFF. -/
def legalAccess (f : MFields) (bitrev scalar : Bool) : Bool :=
  (f.amode ≤ 4) && (bitrev || f.amode != 3) && (!scalar || decide (f.rd < 16)) && (f.amode == 1 || f.imm32 == 0) && f.rsvd == 0
/-- The other M-class opcodes: which of PK and RD they use; AMODE and NOMOD are unused. -/
def legalM (f : MFields) (pk rd : Bool) : Bool :=
  (pk || f.pk == 0) && f.amode == 0 && !f.nomod && (rd || f.rd == 0) && f.rsvd == 0
/-- C class. -/
def legalC (f : CFields) (sd sa sb yield body imm : Bool) : Bool :=
  (sd || f.sd == 0) && (sa || f.sa == 0) && (sb || f.sb == 0) && (yield || !f.yield) && (body || f.body == 0)
    && (imm || f.imm32 == 0) && f.rsvd == 0
/-- X class. -/
def legalX (f : XFields) (pk sync chmask imm : Bool) : Bool :=
  (pk || f.pk == 0) && (sync || f.sync == 0) && (chmask || f.chmask == 0) && (imm || f.imm32 == 0) && f.rsvd == 0
/-- VBEXP and VBSCL: a group of 1 to 8 registers that ends at V31 at the latest (R200). -/
def legalGroup (f : VFields) : Bool :=
  let n := f.imm16 % 16
  decide (1 ≤ n ∧ n ≤ 8 ∧ f.va + n ≤ 32)

/-- V-class opcodes of R188, with the fields each uses (R186). -/
def legalOpV (op : Nat) (f : VFields) : Bool :=
  match op with
  | 0x00 => legalV f [0] false false false false false false false  -- NOP
  | 0x01 => legalV f [0, 1, 2] false true true true false true false  -- VADD
  | 0x02 => legalV f [0, 1, 2] false true true true false true false  -- VSUB
  | 0x03 => legalV f [0, 1, 2] true true true true false true false  -- VMUL
  | 0x04 => legalV f [0] false true true false false false true  -- VROTJ
  | 0x05 => legalV f [0, 1] false true true false false true false  -- VSHR
  | 0x06 => legalV f [0, 1] false true true false true false false  -- VSHRS
  | 0x07 => legalV f [0, 1] false true true false false true false  -- VSHL
  | 0x08 => legalV f [1, 2] false true true true false false false  -- VMAX
  | 0x09 => legalV f [1, 2] false true true true false false false  -- VMIN
  | 0x0A => legalV f [0] false true true false false true false  -- VMAG2
  | 0x0B => legalV f [0, 1, 2] false true true true true false false  -- VSEL
  | 0x0C => legalV f [0, 1, 2] false true true true true false false  -- VPERM
  | 0x0D => legalV f [0, 1, 2] false true false false true false false  -- VBCAST
  | 0x0E => legalV f [0, 1] false true true false false false true && legalGroup f  -- VBEXP
  | 0x0F => legalV f [0, 1] false true true false false false true && legalGroup f  -- VBSCL
  | 0x10 => legalV f [1, 2] false true true true false false false  -- VCMPGT
  | 0x11 => legalV f [0] false true true false true false true  -- VTOF
  | 0x12 => legalV f [2] false true true false true false true  -- VTOI
  | _ => false

/-- A-class opcodes of R188, with the fields each uses (R186). -/
def legalOpA (op : Nat) (f : AFields) : Bool :=
  match op with
  | 0x00 => legalA f false true false false false false false  -- ACLR
  | 0x01 => legalA f false true false true false false false  -- ALOAD
  | 0x02 => legalA f true true false true true false false  -- AMUL
  | 0x03 => legalA f true true false true true false false  -- AMAC
  | 0x04 => legalA f true true false true true false false  -- AMSU
  | 0x05 => legalA f false true true false false false false  -- AADD
  | 0x06 => legalA f false true true false false false false  -- ASUM
  | 0x07 => legalA f false false true false false true true  -- ANRW
  | _ => false

/-- M-class opcodes of R188, with the fields each uses (R186). -/
def legalOpM (op : Nat) (f : MFields) : Bool :=
  match op with
  | 0x01 => legalAccess f true false  -- VLD
  | 0x02 => legalAccess f true false  -- VST
  | 0x03 => legalAccess f false true  -- SLD
  | 0x04 => legalAccess f false true  -- SST
  | 0x05 => legalM f false true && decide (f.rd < 16)  -- SLI
  | 0x06 => legalM f false true && decide (f.rd < 16)  -- SLIH
  | 0x07 => legalM f false true  -- ASET
  | 0x08 => legalM f false true  -- AGET
  | 0x09 => legalM f true false  -- PADDI
  | _ => false

/-- C-class opcodes of R188, with the fields each uses (R186). -/
def legalOpC (op : Nat) (f : CFields) : Bool :=
  match op with
  | 0x01 => legalC f false false false false false true  -- BR
  | 0x02 => legalC f false true false false false true  -- BEQZ
  | 0x03 => legalC f false true false false false true  -- BNEZ
  | 0x04 => legalC f false true false false false true  -- BLTZ
  | 0x05 => legalC f true false false false false true  -- JAL
  | 0x06 => legalC f false true false false false false  -- JR
  | 0x08 => legalC f false false false true true true  -- REPEAT
  | 0x09 => legalC f false true false true true false  -- REPEATS
  | 0x10 => legalC f true true true false false false  -- SADD
  | 0x11 => legalC f true true true false false false  -- SSUB
  | 0x12 => legalC f true true true false false false  -- SMUL
  | 0x13 => legalC f true true true false false false  -- SAND
  | 0x14 => legalC f true true true false false false  -- SOR
  | 0x15 => legalC f true true true false false false  -- SXOR
  | 0x16 => legalC f true true true false false false  -- SSHL
  | 0x17 => legalC f true true true false false false  -- SSRA
  | 0x18 => legalC f true true true false false false  -- SSLT
  | 0x19 => legalC f true true false false false true  -- SADDI
  | 0x20 => legalC f true false false false false false  -- RDFLG
  | 0x21 => legalC f true false false false false false  -- RDLNC
  | 0x22 => legalC f true false false false false false  -- RDCYC
  | 0x3F => legalC f false false false false false false  -- HALT
  | _ => false

/-- X-class opcodes of R188, with the fields each uses (R186). -/
def legalOpX (op : Nat) (f : XFields) : Bool :=
  match op with
  | 0x01 => legalX f true true false true  -- XPASS
  | 0x02 => legalX f true true false true  -- XMV
  | 0x03 => legalX f true true false true  -- XMOVE
  | 0x04 => legalX f false false true false  -- XWAIT
  | _ => false

/-! Fields (R187). -/

/-- V class. -/
def vFields (w : Nat) : VFields :=
  { lmode := bits w 53 52, conj := bit w 51, vd := bits w 50 46, va := bits w 45 41, vb := bits w 40 36, vc := bits w 35 31
    shift := bits w 30 26, imm16 := bits w 15 0, rsvd := bits w 25 16 }
/-- A class. -/
def aFields (w : Nat) : AFields :=
  { lmode := bits w 53 52, conj := bit w 51, ad := bits w 50 49, as := bits w 48 47, va := bits w 46 42, vb := bits w 41 37
    vd := bits w 36 32, shift := bits w 31 27, rsvd := bits w 26 0 }
/-- M class. -/
def mFields (w : Nat) : MFields :=
  { pk := bits w 53 51, amode := bits w 50 48, nomod := bit w 47, rd := bits w 46 42, imm32 := bits w 31 0, rsvd := bits w 41 32 }
/-- C class. -/
def cFields (w : Nat) : CFields :=
  { sd := bits w 53 50, sa := bits w 49 46, sb := bits w 45 42, yield := bit w 41, body := bits w 40 33, imm32 := bits w 31 0
    rsvd := bits w 32 32 }
/-- X class. -/
def xFields (w : Nat) : XFields :=
  { pk := bits w 53 51, sync := bits w 50 48, chmask := bits w 47 40, imm32 := bits w 31 0, rsvd := bits w 39 32 }

/-- CLASS and OP (R186). -/
def wordClass (w : Nat) : Nat := bits w 63 61
/-- OP. -/
def wordOp (w : Nat) : Nat := bits w 60 54

/-- An instruction as a command names it: which code words spell it (R186, R187), and whether R186 allows its fields. -/
structure VsCode where
  spells : Nat → Bool
  legal : Bool
/-- V class. -/
def vCode (op : Nat) (f : VFields) : VsCode := { spells := fun w => wordClass w == 0 && wordOp w == op && vFields w == f, legal := legalOpV op f }
/-- A class. -/
def aCode (op : Nat) (f : AFields) : VsCode := { spells := fun w => wordClass w == 1 && wordOp w == op && aFields w == f, legal := legalOpA op f }
/-- M class. -/
def mCode (op : Nat) (f : MFields) : VsCode := { spells := fun w => wordClass w == 2 && wordOp w == op && mFields w == f, legal := legalOpM op f }
/-- C class. -/
def cCode (op : Nat) (f : CFields) : VsCode := { spells := fun w => wordClass w == 3 && wordOp w == op && cFields w == f, legal := legalOpC op f }
/-- X class. -/
def xCode (op : Nat) (f : XFields) : VsCode := { spells := fun w => wordClass w == 4 && wordOp w == op && xFields w == f, legal := legalOpX op f }

/-! Running. -/

/-- Code of the kernel that the tile's task runs (R201); none for a vendor kernel and for the radio's own code, which the spec does not
give. -/
def State.codeOf (s : State) (t : Tile) : Option (List Nat) :=
  match Table.find? s.kernels (s.task (t.task - 1)).kernel with
  | some k => if k.vendor || (s.task (t.task - 1)).radio.isSome then none else some k.code
  | none => none
/-- The next instruction of the tile is the one a command names: the word at its program counter spells it (R186, R187, R201). An
instruction past the code is none (R598). -/
def State.fetches (s : State) (n : Nat) (i : VsCode) : Bool :=
  match s.codeOf (s.tile n) with
  | none => true
  | some c => match c.drop (s.tile n).live.vs.pc with | w :: _ => i.spells w | [] => true

/-- The tile's VS can issue an instruction: a task runs on it, it waits for nothing, no save or restore runs, its clock runs. -/
def State.vsReady (s : State) (n : Nat) : Bool :=
  let t := s.tile n
  decide (t.task ≠ 0) && (s.task (t.task - 1)).status == .running && t.wait == .none && t.switching == 0 && t.sleep == 0

/-- A VS fault ends the task at the faulting instruction and frees the tiles it holds (R198); FAULT and INFO are kept for its record,
which has the flags of all its ranks (R117). -/
def State.vsFault (s : State) (n code : Nat) : State :=
  let t := s.tile n
  let s := s.joinFlags (t.task - 1)
  let k := s.task (t.task - 1)
  (s.setTask (t.task - 1) { k with fault := code, info := t.live.vs.pc, status := .ended }).freeTiles (t.task - 1) k.tiles

/-- Tenths of a tile cycle that one keeping-clock tick may add (R52): how finely the count of R197 is known. -/
def tickSpan : Nat := 144
/-- The count of R197 would pass 256 with the next instruction: each takes a cycle at least, and the tile's clock tells the rest. -/
def Tile.pastBound (t : Tile) : Bool := !t.atPoint && (decide (256 ≤ t.sincePoint) || decide (2560 + tickSpan < t.tenths - t.pointAt))
/-- The tile runs a borrowable kernel package (R197, R202). -/
def State.bounded (s : State) (t : Tile) : Bool := decide (t.task ≠ 0) && (Table.get {} s.kernels (s.task (t.task - 1)).kernel).borrowable

/-- Where the loops lead when the next index is `next`: an ended iteration starts again or ends its loop (R193). The flag says
that an iteration has just started again. -/
def loopNext (loops : List Loop) (next : Nat) : List Loop × Nat × Bool :=
  match loops with
  | [] => ([], next, false)
  | l :: r =>
    if next = l.start + l.len then
      if l.left = 0 then loopNext r next else ({ l with left := l.left - 1 } :: r, l.start, true)
    else (l :: r, next, false)

/-- Whether the boundary is a preemption point (R194): outside delay slots, and outside repeats unless an iteration of a
YIELD repeat has just ended and no enclosing repeat has YIELD 0. -/
def isPoint (slots : Nat) (loops : List Loop) (again : Bool) : Bool :=
  slots == 0 && (loops.isEmpty || (again && loops.all (fun l => l.yield)))

/-- Go on at index `next` under the loops. -/
def Tile.goTo (t : Tile) (next : Nat) : Tile :=
  let r := loopNext t.live.vs.loops next
  let pt := isPoint 0 r.1 r.2.2
  { t with live := { t.live with vs := { t.live.vs with loops := r.1, pc := r.2.1 } }, atPoint := pt,
           sincePoint := if pt then 0 else t.sincePoint + 1, pointAt := if pt then t.tenths else t.pointAt }

/-- A preemptible wait begins: each of its cycles is a preemption point (R194). -/
def Tile.pause (t : Tile) (w : VsWait) : Tile := { t with wait := w, atPoint := true, sincePoint := 0, pointAt := t.tenths }
/-- It ends. -/
def Tile.unpause (t : Tile) : Tile := { t with wait := .none, sincePoint := 0, pointAt := t.tenths }

/-- Retire an instruction that is no branch: the next index, or the target after the second delay slot (R192, R193). -/
def Tile.retire (t : Tile) : Tile :=
  let x := t.live.vs
  if x.slots = 0 then t.goTo (x.pc + 1)
  else if x.slots = 1 then ({ t with live := { t.live with vs := { x with slots := 0 } } }).goTo x.slotTarget
  else { t with live := { t.live with vs := { x with slots := x.slots - 1, pc := x.pc + 1 } }, atPoint := false,
                sincePoint := t.sincePoint + 1 }

/-- Take a branch instruction: two delay slots, then `target` (R192). -/
def Tile.branch (t : Tile) (target : Nat) : Tile :=
  { t with live := { t.live with vs := { t.live.vs with slots := 2, slotTarget := target, pc := t.live.vs.pc + 1 } },
           atPoint := false, sincePoint := t.sincePoint + 1 }

/-- The program counter of tile `n` lies past the kernel's code (R598). -/
def State.pastCode (s : State) (n : Nat) : Bool :=
  match s.codeOf (s.tile n) with | some c => decide (c.length ≤ (s.tile n).live.vs.pc) | none => false

/-- Run one instruction on tile `n`: it does not happen while the VS is not ready or has another one to run; past the code and illegal
words fault (R598, R186), and so does a borrowable kernel past its bound (R197; the order of the two is not given: DESIGN CHOICE, log
entry 153); otherwise `op` gives the tile after it, or its fault, so that an illegal word in a delay slot or a repeat body is
ILLEGAL_INSTRUCTION (DESIGN CHOICE, log entry 153). -/
def vsRun (s : State) (n : Nat) (i : VsCode) (op : Tile → Except Nat Tile) : State :=
  if !(s.vsReady n && s.fetches n i) then s
  else
    if s.pastCode n || !i.legal then s.vsFault n 1
    else if s.bounded (s.tile n) && (s.tile n).pastBound then s.vsFault n 7
    else match op (s.tile n) with
      | .error c => s.vsFault n c
      | .ok t' => s.setTile n t'

/-- An operation on the registers alone, which retires. -/
def vsRegs (g : Vs → Vs) (t : Tile) : Except Nat Tile := .ok ({ t with live := { t.live with vs := g t.live.vs } }).retire

/-- A control instruction may stand neither in a delay slot nor in a repeat body (R192, R193; 2 ILLEGAL_SLOT,
3 ILLEGAL_IN_REPEAT). -/
def vsControl (g : Tile → Tile) (t : Tile) : Except Nat Tile :=
  if t.live.vs.slots ≠ 0 then .error 2 else if !t.live.vs.loops.isEmpty then .error 3 else .ok (g t)

/-- PC + IMM32, signed (R187). -/
def relTarget (x : Vs) (imm32 : Nat) : Nat := ((x.pc : Int) + signed 32 imm32).toNat

/-- Start a repeat of `body` instructions `count` times (R193; 4 REPEAT_DEPTH). A fifth level that also passes the end of its enclosing
body is REPEAT_DEPTH: the spec does not say which fault comes first (DESIGN CHOICE, log entry 153). -/
def vsRepeatOp (body count : Nat) (yield : Bool) (t : Tile) : Except Nat Tile :=
  let x := t.live.vs
  if x.slots ≠ 0 then .error 2
  else if x.loops.length ≥ 4 then .error 4
  else if x.loops.any (fun l => decide (l.start + l.len < x.pc + 1 + body)) then .error 3
  else if count = 0 then .ok (t.goTo (x.pc + 1 + body))
  else
    let l : Loop := { start := x.pc + 1, len := body, left := count - 1, yield := yield }
    .ok { t with
      live := { t.live with vs := { x with pc := x.pc + 1, loops := l :: x.loops } }
      atPoint := false
      sincePoint := t.sincePoint + 1 }

end Sys2Proof.Machine
end

