-- ==== Sys2Proof/Machine/Descs.lean ====
section
/-! DEFINITION. What stands in host memory for the device to read: ring headers (R436) and the 64 bytes of a descriptor (R441 to R444), with
the bodies of every opcode. Bit i of the value is bit i of the map. -/

set_option linter.unusedVariables false

namespace Sys2Proof.Machine

/-- The 64 bytes of a header or a descriptor. -/
abbrev Slot64 := BitVec 512

/-- Bits [hi:lo] of a map. -/
def mapBits (x : Slot64) (hi lo : Nat) : Nat := bits x.toNat hi lo
/-- One bit of a map. -/
def mapFlag (x : Slot64) (i : Nat) : Bool := bit x.toNat i

/-- A ring header (R436). -/
def ringHeaderOf (x : Slot64) : RingHeader :=
  { prod := mapBits x 511 480, cons := mapBits x 479 448, fetchAt := mapBits x 447 416, fetchReq := mapBits x 415 408 }

/-! The common fields (R441, R442). -/

/-- OPCODE. -/
def opcodeOf (x : Slot64) : Nat := mapBits x 127 120
/-- An opcode that the table of R442 lists. -/
def listedOpcode (op : Nat) : Bool := decide (op ≤ 0x0B) || op == 0x10 || op == 0x18 || op == 0x19
/-- The common fields of the descriptor in slot `index` of a ring, fetched at launch count `at'`. -/
def descOf (f r index at' : Nat) (x : Slot64) : Desc :=
  { func := f, ring := r, index := index, fetched := at', klass := mapBits x 119 119, quiet := mapFlag x 118, urgent := mapFlag x 117
    context := mapBits x 111 96, seq := mapBits x 95 64, lnc := mapBits x 63 32, deadline := mapBits x 31 0 }

/-- The descriptor is one that the meaning of opcode `op` takes: its own, or one that the table does not list, which every one refuses. -/
def isOp (op : Nat) (x : Slot64) : Bool := opcodeOf x == op || !listedOpcode (opcodeOf x)
/-- SYNC_OP of a sync descriptor (R418). -/
def syncOpOf (x : Slot64) : Nat := mapBits x 511 508
/-- A sync descriptor of SYNC_OP `k`, or of one that R418 does not list. -/
def isSync (k : Nat) (x : Slot64) : Bool := isOp 0x08 x && (opcodeOf x != 0x08 || syncOpOf x == k || !decide (1 ≤ syncOpOf x ∧ syncOpOf x ≤ 5))
/-- ORDER_TYPE of a slot order (R281). -/
def orderTypeOf (x : Slot64) : Nat := mapBits x 511 508
/-- A slot order of ORDER_TYPE `k`, or of one that R281 does not list. -/
def isOrder (k : Nat) (x : Slot64) : Bool := isOp 0x10 x && (opcodeOf x != 0x10 || orderTypeOf x == k || !decide (1 ≤ orderTypeOf x ∧ orderTypeOf x ≤ 4))

/-! The bodies. -/

/-- A wait or signal entry (R413). -/
def syncEntryOf (v : Nat) : SyncEntry := { op := bits v 31 30, fence := bit v 29, vid := bits v 27 16, count := bits v 15 0 }
/-- The argument blocks of a task, 64 bytes for each rank (R178, R443). -/
def argsOf (count : Nat) (bs : List Byte) : List (List Nat) :=
  (List.range count).map (fun i => (List.range 8).map (fun k => natOf ((bs.drop (64 * i + 8 * k)).take 8)))
/-- TASK (R443); `args` are the bytes at ARG_ADDR. -/
def taskBodyOf (x : Slot64) (args : List Byte) : TaskBody :=
  { kernel := mapBits x 511 496, entry := mapBits x 495 492, partition := mapBits x 491 486, vfirst := mapBits x 479 464, vcount := mapBits x 463 448
    stateBytes := mapBits x 447 432, wait0 := syncEntryOf (mapBits x 431 400), wait1 := syncEntryOf (mapBits x 399 368)
    signal0 := syncEntryOf (mapBits x 367 336), signal1 := syncEntryOf (mapBits x 335 304), argAddr := mapBits x 255 192
    args := argsOf (mapBits x 463 448) args }
/-- I/O entries of an INVOKE (R442). -/
def ioCountOf (x : Slot64) : Nat := mapBits x 463 460 + 1
/-- INVOKE (R442); `io` is its I/O table as the device reads it: address and length of each entry. -/
def invokeBodyOf (x : Slot64) (io : List (Nat × Nat)) : InvokeBody :=
  { slot := mapBits x 511 504, batch := mapBits x 495 480, handle := mapBits x 479 464, io := io.take (ioCountOf x) }
/-- MAP (R442). -/
def mapBodyOf (x : Slot64) : MapBody :=
  { kind := mapBits x 511 508, read := mapFlag x 507, write := mapFlag x 506, vtile := mapBits x 495 480, page := mapBits x 479 464
    partition := mapBits x 463 448, count := mapBits x 447 416, va := mapBits x 383 320 }
/-- SYNC (R418). -/
def syncBodyOf (x : Slot64) : SyncBody :=
  { kind := mapBits x 507 506, hold := mapFlag x 505, fence := mapFlag x 504, vid := mapBits x 503 492, jobEntry := mapBits x 491 486
    value := mapBits x 479 448, remoteRank := mapBits x 447 436, remoteVid := mapBits x 435 424 }
/-- SLOT_ORDER (R281); `list` are the bytes at LIST_ADDR. -/
def orderBodyOf (x : Slot64) (list : List Byte) : OrderBody :=
  { orderType := orderTypeOf x, cell := mapBits x 507 500, sfn := mapBits x 499 490, hsfn := mapBits x 489 480, slot := mapBits x 479 472
    resultRing := mapBits x 471 464, pduCount := mapBits x 463 448, orderSeq := mapBits x 447 416, listLength := mapBits x 415 384
    listAddr := mapBits x 383 320, resultAddr := mapBits x 319 256, resultLength := mapBits x 255 224, list := list }
/-- FRAME_TX (R444); `content` are the bytes at BUF_ADDR. -/
def frameBodyOf (x : Slot64) (content : List Byte) : FrameTxBody :=
  { port := mapBits x 511 506, queue := mapBits x 505 502, tsReq := mapFlag x 501, length := mapBits x 495 480, bufAddr := mapBits x 255 192, content := content }
/-- The slot stays in use until a write-back (R439): a FRAME_TX with TS_REQ. -/
def keepsSlot (x : Slot64) : Bool := opcodeOf x == 0x18 && mapFlag x 501

end Sys2Proof.Machine
end

