-- ==== Sys2Proof/Machine/Rings.lean ====
section
/-! DEFINITION. Timed rings, completion records and interrupts (ch. 15): every fetch, every record and every MSI-X message of
the device goes through the operations of this file. -/

set_option linter.unusedVariables false

namespace Sys2Proof.Machine

/-! Interrupts (R452). -/

/-- Raise a vector of a function: a message, or the pending bit of a masked vector. -/
def State.raiseVector (s : State) (f vector : Nat) : State :=
  let g := s.func f
  if !g.unmasked.contains vector then
    (if g.pendingBits.contains vector then s else s.setFunc f { g with pendingBits := g.pendingBits ++ [vector] })
  else s.emit (.msix f vector)

/-- A device event on PF0 vector 0 (R452); no message leaves a function that is not ENABLED (R453). -/
def State.deviceEvent (s : State) : State := if s.reg (Reg.functionState 0) = 1 then s.raiseVector 0 0 else s

/-- Raise a ring's vector and start its count afresh. -/
def State.raiseRing (s : State) (f r : Nat) : State :=
  (s.setRing f r { s.ring f r with irqPending := 0 }).raiseVector f (s.regN (Reg.ringMsixVector f r))

/-- A record has been written to the ring: the count, and the interrupt when it is due (R452). -/
def State.countRecord (s : State) (f r : Nat) (urgent : Bool) : State :=
  let g := s.ring f r
  let n := g.irqPending + 1
  let s := s.setRing f r { g with irqPending := n, irqFirst := if n = 1 then s.time.ticks else g.irqFirst }
  if urgent || decide (s.regN (Reg.ringModCount f r) ≤ n) then s.raiseRing f r else s

/-! Records (R447 to R451). -/

/-- The completion ring is full as the device last read its CONS (R451). -/
def State.ringFull (s : State) (f r : Nat) : Bool :=
  let g := s.ring f r
  decide (s.regN (Reg.ringSize f r) ≤ (g.prod + 4294967296 - g.hostCons) % 4294967296)

/-- A completion record as its bits (R448): the common part, then the DESCRIPTOR body or `body`. -/
def Record.word (x : Record) : Nat :=
  x.phase * 2 ^ 255 + x.rtype * 2 ^ 252 + x.outcome * 2 ^ 248 + x.reason * 2 ^ 240 + x.ctx % 2 ^ 16 * 2 ^ 224 + x.seq % 2 ^ 32 * 2 ^ 192
    + x.doneLnc % 2 ^ 32 * 2 ^ 160 + min x.startDelay (2 ^ 32 - 1) * 2 ^ 128
    + (if x.rtype = 0 then min x.cycles (2 ^ 48 - 1) * 2 ^ 80 + min x.preempts 4095 * 2 ^ 68 + x.model % 256 * 2 ^ 60 + x.flagPoint % 8 * 2 ^ 57
         + (if x.exit then 2 ^ 56 else 0) + (if x.invalid then 2 ^ 55 else 0) + (if x.saturated then 2 ^ 54 else 0) + x.fault % 32 * 2 ^ 49 + x.info % 2 ^ 49
       else x.body % 2 ^ 128)

/-- Write one record and the ring's PROD (R448, R450): PHASE is that of the record's index. -/
def State.putRecord (s : State) (f r : Nat) (x : Record) (urgent : Bool) : State :=
  let g := s.ring f r
  let phase := (g.prod / s.regN (Reg.ringSize f r) + 1) % 2
  let next := (g.prod + 1) % 4294967296
  (((s.setRing f r { g with prod := next }).emit (.record f r (bytesOf 32 ({ x with phase := phase } : Record).word))).emit (.header f r 4 next)).countRecord f r urgent

/-- Give a record to completion ring r of function f: written, or held while the ring is full (R451). A function that is not
ENABLED writes none (R453); a number that names no running completion ring has nowhere to write it (log entry 16). -/
def State.writeRecord (s : State) (f r : Nat) (x : Record) (urgent : Bool := false) : State :=
  if s.reg (Reg.functionState f) ≠ 1 ∨ s.reg (Reg.ringKind f r) ≠ 3 ∨ s.reg (Reg.ringStatus f r) ≠ 1 then s
  else
    let g := s.ring f r
    if s.ringFull f r || !g.held.isEmpty then s.setRing f r { g with held := g.held ++ [(x, urgent)] }
    else s.putRecord f r x urgent

/-- Write held records, oldest first, while the ring has room. -/
def flushHeld (s : State) (f r : Nat) (held : List (Record × Bool)) : State :=
  match held with
  | [] => s.setRing f r { s.ring f r with held := [] }
  | x :: rest => if s.ringFull f r then s.setRing f r { s.ring f r with held := x :: rest } else flushHeld (s.putRecord f r x.1 x.2) f r rest

/-! Descriptors (R441, R442, R447). -/

/-- LNC of the fetch that read the descriptor (R437). -/
def State.fetchLnc (s : State) (d : Desc) : Nat := d.fetched

/-- The 64-bit count that a 32-bit field means at launch count `n`, and whether it is past (R50, R51). -/
def extendAt (x n : Nat) : Nat × Bool := match dueOf x n with | .future d => (n + d, false) | .now => (n, false) | .past _ => (n, true)

/-- The record fields that every descriptor record shares. -/
def State.descRecord (s : State) (d : Desc) : Record := { ctx := d.context, seq := d.seq, doneLnc := s.lnc % 4294967296 }

/-- The completion ring of a descriptor's ring. -/
def State.recordRing (s : State) (f r : Nat) : Nat := s.regN (Reg.ringCompletionRing f r)

/-- The slot of a descriptor that no write-back will release is no longer in use, and CONS says so (R439; log entry 163). -/
def State.releaseSlot (s : State) (d : Desc) : State :=
  let g := s.ring d.func d.ring
  if !g.inUse.contains d.index then s
  else
    let use := g.inUse.filter (fun i => i != d.index)
    (s.setRing d.func d.ring { g with inUse := use }).emit (.header d.func d.ring 0 (use.headD g.cons))
/-- Complete a descriptor as REFUSED (R98, R447): always recorded. -/
def State.refuse (s : State) (d : Desc) (reason : Nat) (info : Nat := 0) : State :=
  (s.releaseSlot d).writeRecord d.func (s.recordRing d.func d.ring) { s.descRecord d with outcome := 4, reason := reason, info := info } d.urgent

/-- Complete a descriptor as served (R447): no record with QUIET. -/
def State.served (s : State) (d : Desc) (info : Nat := 0) : State :=
  if d.quiet then s else s.writeRecord d.func (s.recordRing d.func d.ring) { s.descRecord d with info := info } d.urgent

/-- The oldest descriptor that ring r of function f has fetched and not admitted, with its bits. -/
def State.nextDesc (s : State) (f r : Nat) : Option (Desc × Slot64) :=
  let g := s.ring f r
  g.fetched.head?.map (fun e => (descOf f r ((g.cons + 4294967296 - g.fetched.length) % 4294967296) e.1 e.2, e.2))
/-- It leaves the queue. -/
def State.takeDesc (s : State) (f r : Nat) : State := s.setRing f r { s.ring f r with fetched := (s.ring f r).fetched.tail }
/-- A ring of a lower function, or a lower ring of the function, has descriptors of the same fetch instant that are admitted first (R440). A
receive ring and a ring whose next descriptor is a FRAME_TX, which may wait for room, hold no other ring back (log entry 163). -/
def State.behindRing (s : State) (f r : Nat) : Bool :=
  List.any s.rings (fun (e : Nat × Ring) => decide (e.1 < 64 * f + r)
    && s.regN (Reg.ringKind (e.1 / 64) (e.1 % 64)) != 4 && (match e.2.fetched, (s.ring f r).fetched with
      | x :: _, y :: _ => x.1 == y.1 && opcodeOf x.2 != 0x18
      | _, _ => false))
/-- The common refusals of a descriptor (R61, R407, R426, R442, R446), in the model's order (log entry 12): an opcode that is not listed or not
permitted on the ring's kind, a context that is not the function's, the other class, a context that the detector halted, one whose job is
being torn down. `kinds` are the ring kinds that the opcode is permitted on (1 TEMPO, 2 BE, 4 receive). -/
def State.commonReason (s : State) (d : Desc) (x : Slot64) (kinds : List Nat) : Option Nat :=
  let kind := s.regN (Reg.ringKind d.func d.ring)
  if !listedOpcode (opcodeOf x) ∨ !kinds.contains kind then some 38
  else if d.context / 16 ≠ d.func ∨ !s.ctxOn d.context then some 36
  else if kind ≠ 4 ∧ d.klass + 1 ≠ kind then some 3
  else if s.sync.halted.contains d.context then some 28
  else if List.any s.fabric.jobs (fun e => e.2.bound == d.context + 1 && e.2.tearAt != 0) then some 27
  else none
/-- The next fetched descriptor of a ring is admitted (R440), where it is one that this meaning takes (`mine`) and its turn has come: it
leaves the queue, and is refused, or `act` runs on it. -/
def State.admitDesc (s : State) (f r : Nat) (mine : Slot64 → Bool) (kinds : List Nat) (act : State → Desc → Slot64 → State) : State :=
  match s.nextDesc f r with
  | none => s
  | some (d, x) =>
    if !mine x || s.behindRing f r then s
    else match (s.takeDesc f r).commonReason d x kinds with
      | some reason => (s.takeDesc f r).refuse d reason
      | none => act (s.takeDesc f r) d x

/-! Fetches (R435 to R440). -/

/-- The ring can be fetched: its function ENABLED, a submission or receive ring, running or overrun, no fatal error, and
a chip control core that runs (R435, R439, R453, R523, R524). -/
def State.fetchable (s : State) (f r : Nat) : Bool :=
  s.reg (Reg.functionState f) == 1 && (s.reg (Reg.ringKind f r) == 1 || s.reg (Reg.ringKind f r) == 2 || s.reg (Reg.ringKind f r) == 4)
    && (s.reg (Reg.ringStatus f r) == 1 || s.reg (Reg.ringStatus f r) == 16) && s.reg Reg.fatal == 0
    && !(s.relia.ctHung.contains 0 && s.relia.ctHung.contains 1)

/-- The completion ring of the ring holds 192 or more records (R451). -/
def State.backlogged (s : State) (f r : Nat) : Bool := decide (192 ≤ (s.ring f (s.recordRing f r)).held.length)

/-- The extra-fetch request of a header (R438): FETCH_ACK follows FETCH_REQ, and a future FETCH_AT is one extra fetch. -/
def Ring.takeRequest (g : Ring) (h : RingHeader) (n : Nat) : Ring :=
  if h.fetchReq = g.ack then g
  else { g with
    ack := h.fetchReq
    extra := match dueOf h.fetchAt n with | .future d => g.extra ++ [n + d] | _ => g.extra }

/-- Indices, from `i` on, of the slots that stay in use until a write-back. -/
def keptSlots (i : Nat) (l : List Slot64) : List Nat :=
  match l with
  | [] => []
  | x :: r => if keepsSlot x then i % 4294967296 :: keptSlots (i + 1) r else keptSlots (i + 1) r

/-- The device reads the header at a fetch instant, and the descriptors that PROD covers (R435 to R439, R451); `slots` are the slots as it
reads them, in index order. -/
def State.fetch (s : State) (f r : Nat) (h : Option Slot64) (slots : List Slot64) : State :=
  let n := s.lnc
  let g := s.ring f r
  let g := { g with lastFetch := n + 1, extra := g.extra.filter (fun x => decide (n < x)), fallback := 0 }
  let again := fun (g : Ring) => if s.reg (Reg.ringFetchPeriod f r) = 0 ∧ g.extra.isEmpty then { g with fallback := n + 20000 + 1 } else g
  if s.backlogged f r then (s.setRing f r (again g)).bump (Reg.ringFetchesSkipped f r) 1
  else match h.map ringHeaderOf with
  | none => (s.setRing f r g).setReg (Reg.ringStatus f r) 17
  | some h =>
    let asked := decide (h.fetchReq ≠ g.ack)
    let g := again (g.takeRequest h n)
    let count := (h.prod + 4294967296 - g.cons) % 4294967296
    let s := s.emit (.header f r 1 (n % 4294967296))
    let s := if asked then s.emit (.header f r 2 h.fetchReq) else s
    if s.regN (Reg.ringSize f r) < count then
      ((s.setRing f r g).setReg (Reg.ringStatus f r) 16).emit (.header f r 3 1)
    else
      let was := s.reg (Reg.ringStatus f r)
      let got := (List.range count).map (fun i => slots.getD i 0)
      let use := g.inUse ++ keptSlots g.cons got
      let first := match use with | [] => h.prod | i :: _ => i
      let s := (s.setRing f r { g with cons := h.prod, fetched := g.fetched ++ got.map (fun x => (n, x)), inUse := use }).setReg (Reg.ringStatus f r) 1
      let s := if was = 16 then s.emit (.header f r 3 0) else s
      s.emit (.header f r 0 first)

/-- RING_ENABLE (R459): a ring whose RING_KIND was written takes CONS from its header and writes FETCH_ACK equal to its
FETCH_REQ; a failed translation is FETCH_FAULT (R435). A ring of FETCH_PERIOD 0 has its first fetch at the next quantum (R438). -/
def execRingEnable (f r : Nat) (h : Option Slot64) (s : State) : Out :=
  .next (s.when (s.reg (Reg.ringKind f r) != 0 && s.reg (Reg.ringStatus f r) == 0 && s.reg (Reg.functionState f) == 1)
    (match h.map ringHeaderOf with
    | none => s.setReg (Reg.ringStatus f r) 17
    | some h =>
      ((s.setRing f r { cons := h.cons, prod := h.cons, hostCons := h.cons, ack := h.fetchReq
                        fallback := if s.reg (Reg.ringFetchPeriod f r) = 0 then s.lnc + 1 + 1 else 0 }).setReg
        (Reg.ringStatus f r) 1).emit (.header f r 2 h.fetchReq)))

/-- A periodic fetch is due (R437, R37): LNC a multiple of FETCH_PERIOD / 50 ns, or a whole number of periods after the last step, once
per instant. -/
def State.periodicDue (s : State) (f r : Nat) : Bool :=
  let q := s.regN (Reg.ringFetchPeriod f r) / 50
  let base := (s.ring f r).rebased - 1
  decide (q ≠ 0 ∧ s.lnc % q = base % q ∧ (s.ring f r).lastFetch ≠ s.lnc + 1 ∧ ((s.ring f r).rebased = 0 ∨ base < s.lnc))

/-- RING_FETCH (R437). -/
def execRingFetch (f r : Nat) (h : Option Slot64) (slots : List Slot64) (s : State) : Out :=
  .next (s.when (s.fetchable f r && s.periodicDue f r) (s.fetch f r h slots))

/-- RING_EXTRA_FETCH (R438). -/
def execRingExtraFetch (f r : Nat) (h : Option Slot64) (slots : List Slot64) (s : State) : Out :=
  .next (s.when (s.fetchable f r && (s.ring f r).extra.any (fun x => decide (x ≤ s.lnc))) (s.fetch f r h slots))

/-- RING_FALLBACK_FETCH (R438). -/
def execRingFallbackFetch (f r : Nat) (h : Option Slot64) (slots : List Slot64) (s : State) : Out :=
  let b := (s.ring f r).fallback
  .next (s.when (s.fetchable f r && s.reg (Reg.ringFetchPeriod f r) == 0 && decide (b ≠ 0 ∧ b - 1 ≤ s.lnc)) (s.fetch f r h slots))

/-- NOP_DESCRIPTOR (R442): record only. -/
def execNopDescriptor (f r : Nat) (s : State) : Out := .next (s.admitDesc f r (isOp 0x00) [1, 2] (fun s d x => s.served d))

/-- FRAME_RX_BUF (R445): a posted buffer, at most 256; its record comes when it is filled (R447). -/
def execFrameRxBuf (f r : Nat) (s : State) : Out :=
  .next (s.when (decide ((s.ring f r).buffers.length < 256)) (s.admitDesc f r (isOp 0x19) [4] (fun s d x =>
    s.setRing f r { s.ring f r with buffers := (s.ring f r).buffers ++ [mapBits x 447 384] })))

/-- COMPLETION_CONS_REREAD (R451): CONS of a ring that appears full is read again, at most once per µs; held records that fit
are written. -/
def execCompletionConsReread (f r cons : Nat) (s : State) : Out :=
  let g := s.ring f r
  .next (s.when (s.reg (Reg.ringKind f r) == 3 && s.reg (Reg.functionState f) == 1 && s.ringFull f r
      && decide (g.consReadAt = 0 ∨ g.consReadAt - 1 + 20 ≤ s.lnc))
    (flushHeld (s.setRing f r { g with hostCons := cons, consReadAt := s.lnc + 1 }) f r g.held))

/-- MOD_TIME_EXPIRY (R452). -/
def execModTimeExpiry (f r : Nat) (s : State) : Out :=
  let g := s.ring f r
  .next (s.when (s.reg (Reg.functionState f) == 1 && decide (g.irqPending ≠ 0) && s.passed g.irqFirst (s.regN (Reg.ringModTime f r)))
    (s.raiseRing f r))

/-- MSIX_VECTOR_UNMASK (R452): the vector is unmasked; a pending message is sent and the bit cleared (log entry 17). -/
def execMsixVectorUnmask (f vector : Nat) (s : State) : Out :=
  let g := s.func f
  let s1 := s.setFunc f { g with unmasked := if g.unmasked.contains vector then g.unmasked else vector :: g.unmasked, pendingBits := g.pendingBits.filter (fun v => v != vector) }
  .next (if g.pendingBits.contains vector then s1.emit (.msix f vector) else s1)

/-- ATS_INVALIDATION (R458): the cached translations of the range are gone and the completion is sent. Translations are asked
of the host at each use in this model, so only the completion is visible (log entry 18). -/
def execAtsInvalidation (f pasid va : Nat) (s : State) : Out := .next (s.emit (.message f 1 [pasid, va]))

end Sys2Proof.Machine
end

