-- ==== Sys2Proof/Machine/TimeBase.lean ====
section
/-! DEFINITION. System time (ch. 2): the tick, time states, updates of the source, steps, time pins, link time. -/

set_option linter.unusedVariables false

namespace Sys2Proof.Machine

/-! Time states (R31): 0 FREERUN, 1 ACQUIRING, 2 LOCKED, 3 HOLDOVER. Sources (R40): 0 FREE, 1 PTP, 2 PPS, 3 BENCH, 4 ZFL. -/

/-- The STC after adding `inc` (32 fraction bits) once (R26, R27). -/
def Stc.add (t : Stc) (inc : Nat) : Stc :=
  let x := t.frac + inc
  let n := t.ns + x / 4294967296
  { sec := (t.sec + n / 1000000000) % 281474976710656, ns := n % 1000000000, frac := x % 4294967296 }

/-- The STC moved by a signed number of nanoseconds; the fraction stays (R33, R34). -/
def Stc.step (t : Stc) (d : Int) : Stc :=
  let n := ((t.nsTotal : Int) + d).toNat
  { sec := n / 1000000000, ns := n % 1000000000, frac := t.frac }

/-- Add one tick at an increment to a run-length history, newest first, and keep the last 64 s: 10¹⁰ ticks (R32). -/
def historyAdd (h : List (Nat × Nat)) (inc : Nat) : List (Nat × Nat) :=
  let h := match h with
    | (i, n) :: r => if i = inc then (i, n + 1) :: r else (inc, 1) :: (i, n) :: r
    | [] => [(inc, 1)]
  trim h 10000000000
where
  /-- Keep at most `k` ticks of history. -/
  trim (h : List (Nat × Nat)) (k : Nat) : List (Nat × Nat) :=
    match h with
    | [] => []
    | (i, n) :: r => if k = 0 then [] else if k ≤ n then [(i, k)] else (i, n) :: trim r (k - n)

/-- The holdover average (R32): the mean increment over the history, truncated to the register (log entry 7); the present
increment when there is none. -/
def State.holdoverAverage (s : State) : Nat :=
  let tot := (s.time.history.map (fun e => e.2)).sum
  if tot = 0 then s.regN Reg.increment else (s.time.history.map (fun e => e.1 * e.2)).sum / tot

/-- Set the time state and what its entry means: entry to FREERUN clears the LOCKED mark, entry to ACQUIRING starts the lock
count and the step decision afresh, LOCKED marks that it was reached (R31, R32, R33). -/
def State.setTimeState (s : State) (x : Nat) : State :=
  let t := s.time
  let t' := match x with
    | 0 => { t with lockReached := false, qualifying := 0, stepDecided := false }
    | 1 => { t with qualifying := 0, stepDecided := false }
    | 2 => { t with lockReached := true }
    | _ => { t with qualifying := 0 }
  ({ s with time := t' }).setReg Reg.timeState x

/-- A source is lost, or a chip reset reaches its reset instant (R31, R549): HOLDOVER at the holdover average when LOCKED was
reached, else FREERUN from ACQUIRING. A source that had returned in HOLDOVER and is lost again loads its average; the increment of
one that is lost already is held (R32). -/
def State.sourceGone (s : State) : State :=
  let st := s.regN Reg.timeState
  let back := s.time.available
  let s := { s with time := { s.time with available := false } }
  if st = 2 ∨ (st = 3 ∧ back) ∨ (st = 1 ∧ s.time.lockReached) then
    (s.setReg Reg.increment s.holdoverAverage).setTimeState 3
  else if st = 1 then s.setTimeState 0
  else s

/-- What PTP has learnt of its transmitters and of the path is forgotten (R41). -/
def State.ptpForget (s : State) : State :=
  { s with time := { s.time with ptpMaster := false, announces := [], ptpChosen := 0, ptpDelay := 0, ptpSync := none, ptpAhead := none, ptpAsked := [] } }

/-- 0x2001:03 marks bench-grade time while the bench source is selected (R46). -/
def State.markBench (s : State) (source : Nat) : State := s.setReg Reg.benchGrade (if source = 3 then 1 else 0)

/-- The source selected at 0x2002:00 changes (R31, R40): FREE gives FREERUN; another source from any other state gives
ACQUIRING; from FREERUN the state waits until the source is available. The loss time of a source that has not delivered yet runs from
its selection (DESIGN CHOICE, log entry 15). -/
def State.selectSource (s : State) (v : Nat) : State :=
  let st := s.regN Reg.timeState
  let t := { s.time with available := false, selectedAt := s.time.ticks, lastUpdate := s.time.ticks, history := [], qualifying := 0,
                         stepDecided := false }
  let s := (({ s with time := t }).ptpForget).markBench v
  if v = 0 then s.setTimeState 0 else if st = 0 then s else s.setTimeState 1

/-- R34: whether cells or tempo tasks forbid a step. CELL_STATE: 1 STARTING, 2 ON_AIR, 3 HOLD, 4 MOVING. -/
def State.stepForbidden (s : State) : Bool :=
  (List.range 256).any (fun c => s.reg (Reg.cellState c) != 0)
  || List.any s.tasks (fun e => e.2.klass == 0 && e.2.radio.isNone && e.2.status != .ended)

/-- R34: both cases in which a step of `d` ns is refused. -/
def State.stepRefused (s : State) (d : Int) : Bool := s.stepForbidden || decide ((s.nowNs : Int) + d < 0)

/-- The STC that captures, timestamps and pulses of the present tick carry: the one before a step of this tick (R38). -/
def State.stampStc (s : State) : Stc := if s.time.stepAt = s.time.ticks + 1 then s.time.stcBefore else s.time.stc
/-- The same in ns. -/
def State.stampNs (s : State) : Nat := s.stampStc.nsTotal

/-- One step applied at a tick boundary to the master and every copy (R33), STEP_DONE, ring fetches rebased (R37), and pulses
that a forward step passes dropped; one due before the step is still emitted (R38). A single pulse that is dropped leaves its output
disarmed (DESIGN CHOICE, log entry 138). -/
def State.applyStep (s : State) (d : Int) : State :=
  let stc := s.time.stc.step d
  let now := stc.nsTotal
  let old := s.nowNs
  let s := ({ s with time := { s.time with stc := stc, stepAt := s.time.ticks + 1, stcBefore := s.stampStc } }).setReg Reg.stepDone 1
  let s := { s with rings := Table.mapVals {} s.rings (fun _ g => { g with rebased := s.lnc + 1 }) }
  if d ≤ 0 then s
  else (List.range 8).foldl (fun s n =>
    let p := Table.get 0 s.time.nextPulse n
    let per := s.regN (Reg.ttPeriod n)
    if p = 0 ∨ now ≤ p - 1 ∨ p - 1 ≤ old then s
    else if per = 0 then ({ s with time := { s.time with nextPulse := Table.put 0 s.time.nextPulse n 0 } }).setReg (Reg.ttArm n) 0
    else { s with time := { s.time with nextPulse := Table.put 0 s.time.nextPulse n (p + per * ceilDiv (now - (p - 1)) per) } }) s

/-- A refused step counts at STEPS_REFUSED (R34). -/
def State.countRefusedStep (s : State) : State := s.setReg Reg.stepsRefused ((s.reg Reg.stepsRefused + 1) % 4294967296)

/-- Lock threshold in ns and qualifying count of a source (R32). -/
def lockRule (source : Nat) : Nat × Nat := if source = 3 then (2000, 16) else if source = 4 then (50, 4096) else (50, 64)

/-- A chip control core is powered (R495). -/
def State.ctOn (s : State) : Bool := bit (s.regN Reg.domainOn) 38 || bit (s.regN Reg.domainOn) 39

/-- The servo runs: enabled, and on a chip control core (R30, R495). -/
def State.servoRuns (s : State) : Bool := s.reg Reg.servoEnable == 1 && s.ctOn
/-- A number kept within ±`k`. -/
def within (k x : Int) : Int := max (-k) (min k x)
/-- The rate correction after an update, in 2⁻¹⁶ ppm (R35): a frequency correction and a change for phase, both free values of the control
law (log entry 6); the change for phase within SLEW_LIMIT, the total within ±1,000 ppm. -/
def State.rateOfUpdate (s : State) (offset : Int) : Int :=
  within 65536000 (Config.servoFreq s.free offset + within (65536 * s.reg Reg.slewLimit) (Config.servoPhase s.free offset))
/-- The increment of a rate correction in 2⁻¹⁶ ppm (R29, R35): nominal 6.4 ns times one plus the correction, truncated, within R29. -/
def incrementOf (rate : Int) : Int :=
  max 27460302904 (min 27515278485 ((64 * 4294967296 * (65536000000 + rate)) / (10 * 65536000000)))
/-- The increment and FREQ_ADJ that the servo sets after an update (R35). -/
def State.servo (s : State) (offset : Int) : State :=
  let r := s.rateOfUpdate offset
  if s.servoRuns then ((s.setReg Reg.increment (incrementOf r)).setReg Reg.freqAdj r).fresh else s

/-- One update of the selected source with its offset (R32, R33, R35): the source becomes available, ACQUIRING begins or goes
on, one step where R33 calls for it, the lock count, then rate correction. -/
def State.sourceUpdate (s : State) (offset : Int) : State :=
  let src := s.regN Reg.timeSource
  if src = 0 then s
  else
    let back := !s.time.available
    let s := ({ s with time := { s.time with available := true, lastUpdate := s.time.ticks } }).setReg Reg.sourceOffset offset
    -- a source that becomes available leaves FREERUN; a return in HOLDOVER starts the lock count afresh
    let s := if s.reg Reg.timeState = 0 then s.setTimeState 1
             else if back then { s with time := { s.time with qualifying := 0 } } else s
    -- the servo decides on the step, so none is taken while it does not run
    let decide1 := s.reg Reg.timeState = 1 ∧ s.time.stepDecided = false ∧ s.servoRuns
    let big := decide (offset.natAbs > s.regN Reg.stepThreshold)
    let s : State := if decide1 then
        let s : State := { s with time := { s.time with stepDecided := true } }
        if big then (if s.stepRefused offset then s.countRefusedStep else s.applyStep offset) else s
      else s
    let lr := lockRule src
    let q := if offset.natAbs ≤ lr.1 then s.time.qualifying + 1 else 0
    let s : State := { s with time := { s.time with qualifying := q } }
    let st := s.regN Reg.timeState
    let s := if lr.2 ≤ q ∧ (st = 1 ∨ st = 3) then s.setTimeState 2 else s
    s.servo offset

/-! Commands. -/

/-- The duty at which a tile runs (R498, R500): full for radio work and while a preemption is asked for or a save runs. -/
def State.dutyOf (s : State) (t : Tile) : Nat :=
  if t.task = 0 ∨ (s.task (t.task - 1)).radio.isSome ∨ t.preempt ∨ t.switching = 1 then 16 else t.duty
/-- Duty-limited 2.25 GHz cycles of a tile in a tick, in tenths: 144 at full duty, k/16 of it otherwise (R498, R510). -/
def State.tickTenths (s : State) (t : Tile) : Nat := if t.sleep = 0 ∨ t.sleep = 1 then 9 * s.dutyOf t else 0

/-- What a tick does on one tile: a task's cycles are charged to it and its function, those from a preemption request to the end of its
save, and a restore, to chip overhead (R81, R88, R101). -/
def State.tickTile (s : State) (e : Nat × Tile) : State :=
  let x := s.tickTenths e.2
  if e.2.switching ≠ 0 ∨ (e.2.task ≠ 0 ∧ e.2.preempt) then s.chargeCycles overheadAccount 1 x
  else if e.2.task ≠ 0 then
    let k := s.task (e.2.task - 1)
    (s.setTask (e.2.task - 1) { k with tenths := k.tenths + x }).chargeCycles k.func k.klass x
  else s

/-- Cycle counters of all tiles, cycles charged, and the cycles left of saves and restores advance with a tick (R52, R101). -/
def State.tickTiles (s : State) : State :=
  let s := List.foldl State.tickTile s s.tiles
  { s with tiles := Table.mapVals {} s.tiles (fun _ t => { t with
      tenths := (t.tenths + s.tickTenths t) % 2814749767106560
      switchLeft := t.switchLeft - s.tickTenths t }) }

/-- Ways that a partition reserves, over all the clusters that hold a tile of it (R362). -/
def State.waysOf (s : State) (p : Nat) : Nat :=
  let ways := ((List.range 15).filter (bit (s.regN (Reg.partCacheWays p)))).length
  ways * (((s.part p).tiles.map clusterOf).eraseDups).length
/-- The owner of each partition but the pool (R65, R362), with its ways. -/
def State.wayOwners (s : State) : List (Nat × Nat) :=
  (List.filter (fun (e : Nat × Part) => e.1 != 0) s.parts).map (fun (e : Nat × Part) => (s.regN (Reg.partOwner e.1), s.waysOf e.1))
/-- Pages that contexts of function `f` hold in tile SRAM, each once, and its cluster cache allocations, 8 MiB or 128 pages a way
(R101, R362). -/
def State.pagesOf (s : State) (f : Nat) : Nat :=
  (List.map (fun (e : Nat × Tile) => (List.filter (fun (p : Nat × List Nat) => p.2.any (fun c => decide (c / 16 = f))) e.2.pages).length) s.tiles).sum
    + ((s.wayOwners.filter (fun o => o.1 == f)).map (fun o => 128 * o.2)).sum

/-- SRAM byte-seconds: page-ticks of 65,536 bytes and 6.4 ns as a whole count and a 2⁻³² remainder (R101 :04, :05). -/
def State.tickPages (s : State) : State :=
  (s.tiles.flatMap (fun (e : Nat × Tile) => e.2.pages.flatMap (fun (p : Nat × List Nat) => p.2.map (fun c => c / 16)))
      ++ (s.wayOwners.filter (fun (o : Nat × Nat) => o.2 != 0)).map (fun (o : Nat × Nat) => o.1)).eraseDups.foldl (fun s f =>
    let n := s.pagesOf f
    if n = 0 then s
    else
      let g := s.func f
      let pt := g.pageTicks + n
      let total := pt * 65536 * 64 * 4294967296 / 10000000000
      ((s.setFunc f { g with pageTicks := pt }).setReg (Reg.accCounter f 4) ((total / 4294967296 % 18446744073709551616 : Nat) : Int)).setReg
        (Reg.accCounter f 5) ((total % 4294967296 : Nat) : Int)) s

/-- The ROM starts verification 3 ms after a power-on (R556). -/
def State.tickStage (s : State) : State :=
  if s.reg Reg.startupStage = 0 ∧ !s.power.inputOff ∧ !s.power.trip ∧ s.passed s.boot.from' 3000000 then s.setReg Reg.startupStage 1 else s

/-- INCREMENT at a tick (R27): writes acknowledged since the last tick take effect in their order (R22), then one whose LNC has come. -/
def State.takeIncrement (s : State) : State :=
  let mine := fun (p : PendingWrite) => p.key == Reg.increment && !p.named
  let s := (s.dict.writes.filter mine).foldl (fun s p => match p.data with
    | .num _ v => if s.reg Reg.servoEnable = 1 then s else s.setReg Reg.increment v
    | .bytes _ => s) s
  let s := { s with dict := { s.dict with writes := s.dict.writes.filter (fun p => !mine p) } }
  match s.time.incNext with
  | some v => ({ s with time := { s.time with incNext := none } }).setReg Reg.increment v
  | none => s

/-- A keeping-clock tick in time and accounts (R27, R52, R101): a waiting increment takes effect, the STC adds it, the holdover
history and the accounts advance. Nothing runs without AON (R492). -/
def State.tickAll (s : State) : State :=
  if s.power.off then s
  else
    let s := s.takeIncrement
    let inc := s.regN Reg.increment
    let t := { s.time with stc := s.time.stc.add inc, ticks := s.time.ticks + 1, history := historyAdd s.time.history inc }
    (({ s with time := t }).tickTiles.tickPages).tickStage

/-! PTP (R32, R41, R43, R46, R47; log entry 139). Ports are numbered 0 to 63; 64 is the management field port. -/

/-- The order of the best master clock algorithm of G.8275.1 (R41): `a` goes before `b`. -/
def rankBefore (la : Nat) (a : PtpRank) (lb : Nat) (b : PtpRank) : Bool :=
  let x := [a.clockClass, a.accuracy, a.variance, a.priority2, la]
  let y := [b.clockClass, b.accuracy, b.variance, b.priority2, lb]
  if x ≠ y then decide (x < y) else if a.clockClass ≤ 127 ∨ a.gm = b.gm then decide (a.steps < b.steps) else decide (a.gm < b.gm)

/-- The device's own clock in that order: PTP_PRIORITY2, and what no object holds. -/
def State.ptpOwn (s : State) : PtpRank :=
  { clockClass := Config.ptpClass, accuracy := Config.ptpAccuracy, variance := Config.ptpVariance, priority2 := s.regN Reg.ptpPriority2
    gm := Config.clockIdentity.toNat }

/-- The announce receipt timeout: three Announce intervals of an eighth of a second (log entry 15). -/
def announceNs : Nat := 375000000
/-- Transmitters whose announce receipt timeout has not expired. -/
def State.ptpAlive (s : State) : List PtpMaster := s.time.announces.filter (fun m => !s.passed m.heardAt announceNs)
/-- The best master clock algorithm selects the time transmitter on PTP_PORT (R32, R41): the best that is heard, if it goes before the
device's own clock. -/
def State.ptpChoose (s : State) : State :=
  let lp := Config.ptpLocalPriority (s.regN Reg.ptpPort)
  let l := s.ptpAlive
  let best := l.foldl (fun b m => match b with | none => some m | some x => if rankBefore lp m.rank lp x.rank then some m else some x) (none : Option PtpMaster)
  let chosen := match best with | some m => if rankBefore lp m.rank Config.ptpOwnPriority s.ptpOwn then m.source + 1 else 0 | none => 0
  { s with time := { s.time with announces := l, ptpChosen := chosen, ptpMaster := decide (chosen ≠ 0) } }

/-- The device takes time from this port: the time receiver port under PTP, the field port under BENCH (R40, R46). -/
def State.ptpReceiver (s : State) (port : Nat) : Bool :=
  if port = 64 then s.reg Reg.timeSource == 3 else s.reg Reg.timeSource == 1 && s.regN Reg.ptpPort == port
/-- The port identity of one of the device's ports. -/
def ptpIdentity (port : Nat) : Nat := Config.clockIdentity.toNat * 65536 + port + 1

/-- An update from a Sync sent at t1 and arrived at t2 (R32): the source's time less the STC at its arrival. -/
def State.ptpUpdate (s : State) (t1 t2 : Nat) : State :=
  ({ s with time := { s.time with ptpAhead := some ((t2 : Int) - t1), ptpSync := none } }).sourceUpdate ((t1 : Int) + s.time.ptpDelay - t2)

/-- A received PTP message, timestamped at its arrival (R38, R41, R43, R46): a delay request waits for its response; on the receiver port
an Announce counts in the best master clock algorithm, a Sync of the selected transmitter, with its Follow_Up where it is two-step, gives
one update, a response to the last delay request the mean path delay. The bench source selects no transmitter. -/
def State.ptpHear (s : State) (port : Nat) (m : PtpMsg) : State :=
  let here := s.stampNs
  let t := s.time
  let known := decide (port = 64 ∨ t.ptpChosen = m.source + 1)
  if port ≠ 64 ∧ m.domain ≠ s.regN Reg.ptpDomain then s
  else if !s.ptpReceiver port then
    (if m.kind = 3 ∧ port ≠ 64 then
      { s with time := { t with ptpAnswers := Table.put [] t.ptpAnswers port (Table.get [] t.ptpAnswers port ++ [(m.source, m.seq, here)]) } }
     else s)
  else match m.kind with
  | 0 =>
    if !known then s
    else if m.twoStep then { s with time := { t with ptpSync := some (m.source, m.seq, here), lastUpdate := t.ticks } }
    else s.ptpUpdate m.timeNs here
  | 1 =>
    if port = 64 then s
    else
      let l : List PtpMaster := List.filter (fun (x : PtpMaster) => x.source != m.source) t.announces
      let e : PtpMaster := { source := m.source, rank := m.rank, heardAt := t.ticks }
      ({ s with time := { t with announces := l ++ [e] } }).ptpChoose
  | 2 => match Table.find? t.ptpAsked port, t.ptpAhead with
    | some (seq, sent), some ahead =>
      if known ∧ m.target = ptpIdentity port ∧ m.seq = seq ∧ sent ≠ 0 then
        { s with time := { t with ptpDelay := (ahead + ((m.timeNs : Int) - (sent - 1 : Nat))) / 2, ptpAsked := Table.erase t.ptpAsked port } }
      else s
    | _, _ => s
  | 4 => match t.ptpSync with
    | some (src, seq, at') => if known ∧ src = m.source ∧ seq = m.seq then s.ptpUpdate m.timeNs at' else s
    | none => s
  | _ => s

/-- The message of a kind that a port sends, and the state that has counted it: Sync, the Announce of the device's parent or of itself,
the response to the oldest delay request, a delay request. None where there is no request to answer. -/
def State.ptpMessage (s : State) (port kind : Nat) : Option (PtpMsg × State) :=
  let t := s.time
  let k := 8 * port + kind
  let seq := Table.get 0 t.ptpSeq k
  let s1 := { s with time := { t with ptpSent := Table.put 0 t.ptpSent port t.ticks, ptpSeq := Table.put 0 t.ptpSeq k ((seq + 1) % 65536) } }
  let m : PtpMsg := { kind := kind, domain := if port = 64 then 0 else s.regN Reg.ptpDomain, source := ptpIdentity port, seq := seq }
  match kind with
  | 0 => some ({ m with twoStep := Config.ptpTwoStep port }, s1)
  | 1 => some ({ m with rank := match t.announces.find? (fun x => x.source + 1 == t.ptpChosen) with | some x => { x.rank with steps := x.rank.steps + 1 } | none => s.ptpOwn }, s1)
  | 2 => match Table.get [] t.ptpAnswers port with
    | [] => none
    | (who, n, at') :: r => some ({ m with seq := n, timeNs := at', target := who }, { s1 with time := { s1.time with ptpAnswers := Table.put [] t.ptpAnswers port r } })
  | 3 => some (m, { s1 with time := { s1.time with ptpAsked := Table.insert t.ptpAsked port (seq, 0) } })
  | _ => none

/-- The frame of a message: which of the profile's two destination addresses the port uses, then the message. -/
def ptpTx (port : Nat) (m : PtpMsg) : TxFrame := { kind := 4, length := 64, content := [if Config.ptpForwardable port then 1 else 0], ptp := some m }
/-- A message crosses the timestamp point (R43): a one-step Sync carries the time, a delay request keeps it for its response. -/
def State.ptpStamp (s : State) (port : Nat) (m : PtpMsg) : PtpMsg × State :=
  let at' := s.stampNs
  if m.kind = 0 ∧ !m.twoStep then ({ m with timeNs := at' }, s)
  else if m.kind = 3 then (m, { s with time := { s.time with ptpAsked := Table.insert s.time.ptpAsked port (m.seq, at' + 1) } })
  else (m, s)
/-- The Follow_Up of a two-step Sync that has been sent. -/
def State.ptpFollowUp (s : State) (m : PtpMsg) : Option PtpMsg :=
  if m.kind = 0 ∧ m.twoStep then some { m with kind := 4, timeNs := s.stampNs, twoStep := false } else none
/-- A message leaves a port whose egress the model does not queue, a fabric or the field port: stamped at once. -/
def State.ptpEmit (s : State) (port : Nat) (m : PtpMsg) : State :=
  let x := s.ptpStamp port m
  let s1 := x.2.emit (.frame port 15 (ptpTx port x.1))
  match s.ptpFollowUp m with | some f => s1.emit (.frame port 15 (ptpTx port f)) | none => s1

/-- The selected source has delivered no update for its loss time (R32): PTP three Sync intervals of 62.5 ms or the announce receipt
timeout of its transmitter, PPS 1.1 s, BENCH three intervals of 1 s (log entry 15), ZFL four intervals of 4,096 ticks. -/
def State.sourceSilent (s : State) : Bool :=
  match s.regN Reg.timeSource with
  | 1 => s.passed s.time.lastUpdate 187500000 || (s.time.ptpMaster && !s.ptpAlive.any (fun m => m.source + 1 == s.time.ptpChosen))
  | 2 => s.passed s.time.lastUpdate 1100000000
  | 3 => s.passed s.time.lastUpdate 3000000000
  | 4 => decide (s.time.lastUpdate + 16384 ≤ s.time.ticks)
  | _ => false

/-- SOURCE_LOSS_TIMEOUT (R32): a transmitter whose announce receipt timeout has expired is no longer selected. -/
def execSourceLossTimeout (s : State) : Out :=
  .next (s.when s.sourceSilent (if s.regN Reg.timeSource = 1 then s.ptpChoose.sourceGone else s.sourceGone))

/-- The upstream link goes down (R32): a ZFL source is lost. -/
def State.upstreamDown (s : State) (link : Nat) : State :=
  if s.reg Reg.timeSource = 4 ∧ s.regN Reg.zflUpstream = link then s.sourceGone else s

/-- The distance of the STC from its nearest whole second, from −0.5 s up to but not including +0.5 s (R593). The offset to
correct is the negative of it. -/
def secondOffset (ns : Nat) : Int := if ns < 500000000 then -(ns : Int) else if ns = 500000000 then -500000000 else 1000000000 - ns

/-- A capture of input `n` at the present STC: at most 16 held, none within 100 ns of the last captured edge (R38, R56). -/
def State.capture (s : State) (n : Nat) (rising : Bool) : State :=
  let e := s.regN (Reg.tcEdge n)
  let sel := e == 2 || (e == 0 && rising) || (e == 1 && !rising)
  let last := Table.get 0 s.time.lastEdge n
  if s.reg (Reg.tcEnable n) ≠ 1 ∨ !sel ∨ (last ≠ 0 ∧ !s.passed (last - 1) 100) then s
  else
    let q := Table.get [] s.time.captures n
    if q.length ≥ 16 then s.setReg (Reg.tcOverflow n) 1
    else
      let q' := q ++ [s.stampStc.time80]
      ({ s with time := { s.time with
          captures := Table.put [] s.time.captures n q'
          lastEdge := Table.put 0 s.time.lastEdge n (s.time.ticks + 1) } }).setReg (Reg.tcDepth n) q'.length

/-- The offset of a rising PPS_IN edge at the STC `t` (R593): from PPS_TOD where one has been written since the edge before, else from
the nearest whole second. -/
def ppsOffset (tod : Option Nat) (t : Stc) : Int := match tod with | some x => (nsOfTime80 x : Int) - t.nsTotal | none => secondOffset t.ns

/-- PPS_IN_EDGE (R32, R56, R593): with capture enabled the edge is timestamped. A rising edge takes PPS_TOD with it; with PPS selected it
gives one update. -/
def execPpsInEdge (rising : Bool) (s : State) : Out :=
  let s1 := s.capture 4 rising
  let s2 := { s1 with time := { s1.time with ppsTod := none } }
  .next (if !rising then s1 else if s.reg Reg.timeSource = 2 then s2.sourceUpdate (ppsOffset s.time.ppsTod s.stampStc) else s2)

/-- BENCH_SYNC_RX (R32, R46): a PTP message over UDP on the management field port while BENCH is selected. -/
def execBenchSyncRx (m : PtpMsg) (s : State) : Out :=
  .next (s.when (s.reg Reg.timeSource == 3 && s.reg Reg.mgLink == 1) (s.ptpHear 64 m))

/-- A port may send a message of a kind (R41, R46): the receiver port delay requests only, any other Ethernet port the rest. -/
def State.ptpMaySend (s : State) (port kind : Nat) : Bool :=
  if port = 64 then s.ptpReceiver 64 && decide (kind = 3) && s.reg Reg.mgLink == 1
  else (s.portUp port || (decide (5 ≤ s.reg (Reg.linkMode port)) && (Table.get {} s.fabric.links port).up == 2))
    && decide (if s.ptpReceiver port then kind = 3 else kind < 3)

/-- PTP_MESSAGE_TX (R41, R43, R46): a time-transmitter port sends Sync (kind 0), Announce (1) or a delay response (2), a receiver port
its delay request (3); on a fronthaul port through queue 15. -/
def execPtpMessageTx (port kind : Nat) (s : State) : Out :=
  match s.ptpMessage port kind with
  | none => .next s
  | some (m, s1) => .next (s.when (s.ptpMaySend port kind) (if s.portUp port then s1.enqueue port 15 (ptpTx port m) else s1.ptpEmit port m))

/-- The link carries time words: ZFL, and UP (R47). -/
def State.zflUp (s : State) (link : Nat) : Bool :=
  (Table.get {} s.fabric.links link).up == 2 && decide (1 ≤ s.reg (Reg.linkMode link) ∧ s.reg (Reg.linkMode link) ≤ 4)

/-- TIME_WORD (R32, R47): a time word sent at the peer's time `peerTime` that tells what the peer measured of the last one from here. Half
of the sum of the two exchanges is the link delay, taken as symmetric. On the upstream link of a ZFL source it is one update. -/
def execTimeWord (link peerTime : Nat) (echo : Option Int) (s : State) : Out :=
  let skew := (s.stampNs : Int) - peerTime
  let d := match echo with | some e => (skew + e) / 2 | none => Table.get 0 s.time.linkDelay link
  let s1 := { s with time := { s.time with
    linkDelay := Table.put 0 s.time.linkDelay link d
    wordSkew := Table.insert s.time.wordSkew link skew
    wordReceived := Table.put 0 s.time.wordReceived link s.time.ticks } }
  .next (s.when (s.zflUp link) (if s.reg Reg.timeSource = 4 ∧ s.regN Reg.zflUpstream = link then s1.sourceUpdate (d - skew) else s1))

/-- TIME_WORD_TX (R47): every 4,096 ticks each ZFL link sends a time word. -/
def execTimeWordTx (link : Nat) (s : State) : Out :=
  let last := Table.get 0 s.time.wordSent link
  .next (s.when (s.zflUp link && decide (last + 4096 ≤ s.time.ticks))
    (({ s with time := { s.time with wordSent := Table.put 0 s.time.wordSent link s.time.ticks } }).emit
      (.timeWord link s.stampNs (Table.find? s.time.wordSkew link))))

/-- TT_PULSE (R38, R54): an armed output whose pulse time the STC has reached emits it, counts it, and waits for the next; TT_ARM reads 0
after a single pulse and after the last of TT_COUNT (DESIGN CHOICE, log entry 138). -/
def execTtPulse (n : Nat) (s : State) : Out :=
  let p := Table.get 0 s.time.nextPulse n
  let per := s.regN (Reg.ttPeriod n)
  let count := s.regN (Reg.ttCount n)
  let done := s.regN (Reg.ttEmitted n) + 1
  let last := per = 0 ∨ (count ≠ 0 ∧ count ≤ done)
  let s1 := (s.emit (.pulse n (p - 1) (s.regN (Reg.ttWidth n)) (s.reg (Reg.ttPolarity n) == 1))).setReg (Reg.ttEmitted n) ((done % 4294967296 : Nat) : Int)
  let s2 := { s1 with time := { s1.time with nextPulse := Table.put 0 s1.time.nextPulse n (if last then 0 else p + per) } }
  .next (s.when (s.reg (Reg.ttArm n) == 1 && decide (p ≠ 0 ∧ (p - 1 ≤ s.nowNs ∨ p - 1 ≤ s.stampNs))) (if last then s2.setReg (Reg.ttArm n) 0 else s2))

/-- CAPTURE_EDGE (R56): inputs 0 to 3. -/
def execCaptureEdge (n : Nat) (rising : Bool) (s : State) : Out := .next (s.when (decide (n < 4)) (s.capture n rising))

/-! Rules and effects of this chapter's objects, for the writes (R23, R467). -/

/-- STEP_REQUEST (R34): refused and counted, or applied. -/
def stepRequestRule (s : State) (d : Int) : Option State := if s.stepRefused d then some s.countRefusedStep else none
/-- INCREMENT (R30): only while the servo is disabled. -/
def incrementRule (s : State) : Option State := if s.reg Reg.servoEnable = 1 then some s else none
/-- TT_ARM 1 (R55): a single pulse whose start is past is refused. -/
def ttArmRule (s : State) (n v lnc : Nat) : Option State :=
  if v = 1 ∧ s.valueAt (Reg.ttPeriod n) lnc = 0 ∧ nsOfTime80 (s.valueAt (Reg.ttStart n) lnc).toNat ≤ s.nowNs then some s else none
/-- TT_PERIOD: the width it will stand beside must keep R54. -/
def ttPeriodRule (s : State) (n : Nat) (v lnc : Nat) : Option State :=
  if ttFits (s.valueAt (Reg.ttWidth n) lnc) v then none else some s
/-- TT_ARM takes effect (R54, R55): armed to its first pulse, the earliest start + k × period at least 1 µs ahead when the
start is past; 0 stops the output. -/
def ttArmEffect (s : State) (n v : Nat) : State :=
  if v = 0 then { s with time := { s.time with nextPulse := Table.put 0 s.time.nextPulse n 0 } }
  else
    let st := nsOfTime80 (s.regN (Reg.ttStart n))
    let per := s.regN (Reg.ttPeriod n)
    let first := if s.nowNs < st ∨ per = 0 then st else st + per * ceilDiv (s.nowNs + 1000 - st) per
    ({ s with time := { s.time with nextPulse := Table.put 0 s.time.nextPulse n (first + 1) } }).setReg (Reg.ttEmitted n) 0

end Sys2Proof.Machine
end

