-- ==== Sys2Proof/Machine/FabricSend.lean ====
section
/-! DEFINITION. Sending on the fabric (ch. 13): jobs and nodes (R382, R383), paths (R395), links with flits, credits and the retry
buffer (R378, R379, R393), requests and tags (R388, R400). -/

set_option linter.unusedVariables false

namespace Sys2Proof.Machine

/-! Jobs and nodes. -/

/-- Job entry `j` beside its objects. -/
def State.job (s : State) (j : Nat) : Job := Table.get {} s.fabric.jobs j
/-- Set it. -/
def State.setJob (s : State) (j : Nat) (x : Job) : State := { s with fabric := { s.fabric with jobs := Table.put {} s.fabric.jobs j x } }
/-- The job entry a context is bound to (R383), if any. -/
def State.jobOf (s : State) (ctx : Nat) : Option Nat := (List.find? (fun (e : Nat × Job) => e.2.bound == ctx + 1) s.fabric.jobs).map (fun e => e.1)
/-- JOB_STATE of entry `j`: 0 FREE, 1 PENDING, 2 ACTIVE, 3 FAULTED, 4 TEARING. -/
def State.jobState (s : State) (j : Nat) : Nat := s.regN (Reg.jobState j)
/-- Node of a rank (RANK_MAP). -/
def State.rankNode (s : State) (j r : Nat) : Nat := natOf (((s.blob (Reg.jobRankMap j)).drop (2 * r)).take 2)
/-- Nodes of a job's ranks. -/
def State.jobNodes (s : State) (j : Nat) : List Nat := (List.range (s.regN (Reg.jobChips j))).map (s.rankNode j)
/-- This chip's NODE_ID; 0xFFFF sends and receives nothing (R382). -/
def State.node (s : State) : Nat := s.regN Reg.nodeId
/-- The ACTIVE entry of a job ID that has the node in its map (R384). -/
def State.activeJob (s : State) (jobId src : Nat) : Option Nat :=
  (List.range 64).find? (fun j => s.jobState j == 2 && s.regN (Reg.jobId j) == jobId && (s.jobNodes j).contains src)
/-- Chip-control job (R383). -/
def controlJob : Nat := 4095
/-- The function that pays for a job's bytes (R408): the owner, or chip overhead for job 4,095. -/
def State.jobPayer (s : State) (jobId : Nat) : Nat :=
  if jobId = controlJob then overheadAccount
  else match (List.range 64).find? (fun j => s.jobState j != 0 && s.regN (Reg.jobId j) == jobId) with
    | some j => s.regN (Reg.jobOwner j)
    | none => overheadAccount

/-! Virtual channels (R393). -/

/-- Request, response and coherence channel of a class. -/
def requestVc (klass : Nat) : Nat := if klass = 0 then 0 else 2
/-- Response channel. -/
def responseVc (klass : Nat) : Nat := if klass = 0 then 1 else 3
/-- INV and INV_ACK channel. -/
def coherenceVc (klass : Nat) : Nat := if klass = 0 then 4 else 5
/-- Egress order of the channels, first served first. -/
def vcOrder : List Nat := [6, 1, 4, 0, 3, 5, 2]
/-- A BE channel. -/
def vcIsBe (vc : Nat) : Bool := vc == 2 || vc == 3 || vc == 5

/-! Links. -/

/-- Link L. -/
def State.link (s : State) (l : Nat) : Link := Table.get {} s.fabric.links l
/-- Set it. -/
def State.setLink (s : State) (l : Nat) (x : Link) : State := { s with fabric := { s.fabric with links := Table.put {} s.fabric.links l x } }
/-- The link is UP. -/
def State.linkUp (s : State) (l : Nat) : Bool := (s.link l).up == 2
/-- The link goes down (0), trains (1) or comes up (2), and LINK_STATUS tells it; its recovered clock goes with it (R45), and a ZFL source
of time whose upstream link it is (R32). -/
def State.setLinkUp (s : State) (l v : Nat) : State :=
  let s := ((s.setLink l { s.link l with up := v }).setReg (Reg.linkStatus l) v).clockGone
  if v = 0 then s.upstreamDown l else s
/-- The link carries ZFL (LINK_MODE 1 to 4). -/
def State.linkZfl (s : State) (l : Nat) : Bool := decide (1 ≤ s.reg (Reg.linkMode l) ∧ s.reg (Reg.linkMode l) ≤ 4)

/-- Bytes of a packet: header, and data or operand block padded to 16 (R388). -/
def packetBytes (p : Packet) : Nat :=
  16 + (match p.opcode with
    | 0x02 => ceilDiv (4 * (p.len + 1)) 16 * 16
    | 0x20 => ceilDiv (4 * (p.len + 1)) 16 * 16
    | 0x01 => 0 | 0x03 => 0 | 0x21 => 0 | 0x28 => 0 | 0x29 => 0 | 0x2A => 0 | 0x2B => 0 | 0x30 => 0
    | _ => 16)
/-- Credits of 64 bytes a packet takes. -/
def packetCredits (p : Packet) : Nat := ceilDiv (packetBytes p) 64

/-- Flits of 240 payload bytes a packet takes (R378); it starts a flit of its own (log entry 128). -/
def packetFlits (p : Packet) : Nat := ceilDiv (packetBytes p) 240
/-- Flits in the retry buffer. -/
def Link.flits (x : Link) : Nat := (x.buffer.map (fun e => packetFlits e.2)).sum

/-- The packet can leave now (R379, R393): credits of its channel, and places in the retry buffer. -/
def Link.canSend (x : Link) (zfl : Bool) (p : Packet) : Bool :=
  !x.paused.contains p.vc && (!zfl || (decide (x.flits + packetFlits p ≤ 512) && decide (Table.get 0 x.used p.vc + (packetCredits p) ≤ 512)))

/-- PCP of a virtual channel (R381). -/
def State.pcpOf (s : State) (vc : Nat) : Nat := bits (s.regN Reg.vcPcp) (3 * vc + 2) (3 * vc)
/-- A packet goes out on a link: in flits, or in a frame with the link's MAC address, the tag of its channel and FABRIC_ETHERTYPE (R381; the
frame holds this one packet). -/
def State.putPacket (s : State) (l : Nat) (p : Packet) : State :=
  if s.linkZfl l then s.emit (.packet l p) else s.emit (.etherPacket l (s.regN (Reg.linkMacAddr l)) (s.pcpOf p.vc) (s.regN Reg.fabricEthertype) p)

/-- One packet leaves the link. -/
def State.linkOut (s : State) (l : Nat) (p : Packet) : State :=
  let x := s.link l
  let x := if s.linkZfl l then { x with
      txNext := (x.txNext + packetFlits p) % 65536, buffer := x.buffer ++ [((x.txNext + packetFlits p - 1) % 65536, p)]
      used := Table.put 0 x.used p.vc (Table.get 0 x.used p.vc + (packetCredits p)) } else x
  (s.setLink l { x with sinceBe := if vcIsBe p.vc then 0 else x.sinceBe + packetFlits p }).putPacket l p

/-- The next packet of a queue to leave (R393): in channel order, but a BE channel after 15 flits without one. -/
def Link.pick (x : Link) (zfl : Bool) : Option Packet :=
  let ready := x.queue.filter (x.canSend zfl)
  let first := fun (vcs : List Nat) => vcs.findSome? (fun v => ready.find? (fun p => p.vc == v))
  if 15 ≤ x.sinceBe then first ([3, 5, 2] ++ vcOrder) else first vcOrder

/-- Let waiting packets leave while they can, at most `fuel`. -/
def pump (fuel : Nat) (s : State) (l : Nat) : State :=
  match fuel with
  | 0 => s
  | fuel + 1 =>
    let x := s.link l
    match x.pick (s.linkZfl l) with
    | none => s
    | some p => pump fuel ((s.setLink l { x with queue := x.queue.erase p }).linkOut l p) l

/-- Hand a packet to a link. -/
def State.linkSend (s : State) (l : Nat) (p : Packet) : State :=
  let x := s.link l
  let s := s.setLink l { x with queue := x.queue ++ [p] }
  pump (x.queue.length + 1) s l

/-- The NCRO windows of a job entry hold the offset: four (base, length) pairs of 8 bytes each (R399). -/
def State.inNcro (s : State) (j off : Nat) : Bool :=
  let b := s.blob (Reg.jobNcroWindows j)
  (List.range 4).any (fun i =>
    let base := natOf ((b.drop (16 * i)).take 8)
    let len := natOf ((b.drop (16 * i + 8)).take 8)
    decide (base ≤ off ∧ off < base + len))

/-! Paths (R395, R405). -/

/-- The path list of a node in ROUTES, without links that are down or lead through a dead node. -/
def State.paths (s : State) (node : Nat) : List Nat :=
  let b := (s.blob Reg.routes).drop (4 * node) |>.take 4
  let e := if b.length < 4 then 0xFFFFFFFF else natOf b
  if e = 0xFFFFFFFF then []
  else ((List.range (bits e 31 30 + 1)).map (fun i => bits e (23 - 6 * i) (18 - 6 * i))).filter
    (fun l => s.linkUp l && !s.fabric.dead.contains (s.regN (Reg.linkPeer l)))

/-- The link of a line toward a node (R395), if a path is left. -/
def State.pathOf (s : State) (node offset : Nat) : Option Nat :=
  let ps := s.paths node
  let line := offset / 256
  let h := (line % 65536) ^^^ (line / 65536 % 65536) ^^^ (line / 4294967296) ^^^ node
  ps[h % ps.length]?

/-- Send or forward a packet toward its node (R380, R382). A packet without a path is not sent. -/
def State.route (s : State) (p : Packet) : State :=
  if s.node = 0xFFFF then s
  else match s.pathOf p.dst p.offset with
  | some l => s.linkSend l p
  | none => s

/-! Peers (R396, R404). -/

/-- QUAD_PEERS that are valid: place and node (R396). -/
def State.quadPlaces (s : State) : List (Nat × Nat) :=
  let q := s.regN Reg.quadPeers
  ((List.range 3).filter (fun i => bit q (48 + i))).map (fun i => (i, bits q (12 * i + 11) (12 * i)))
/-- Their nodes. -/
def State.quadPeerList (s : State) : List Nat := s.quadPlaces.map (fun e => e.2)
/-- A node is a quad peer (R396): named, confirmed to name this chip in return, and joined by a direct ZFL link that is UP. -/
def State.isQuadPeer (s : State) (node : Nat) : Bool :=
  s.quadPlaces.any (fun e => e.2 == node && bit (s.regN Reg.quadStatus) e.1) &&
  (List.range 64).any (fun l => s.linkUp l && s.linkZfl l && s.regN (Reg.linkPeer l) == node)

/-- Nodes that heartbeats go to: ACTIVE rank maps, quad peers and move peers (R404). -/
def State.peers (s : State) : List Nat :=
  let jobs := ((List.range 64).filter (fun j => s.jobState j == 2)).flatMap s.jobNodes
  let moves := ((List.range 256).filter (fun c => s.reg (Reg.cellState c) == 4)).map (fun c => s.regN (Reg.cellMovePeer c))
  ((jobs ++ s.quadPeerList ++ moves).filter (fun n => n != s.node)).eraseDups
/-- Nodes that become peers are waited for from now on (R404). -/
def State.hearFrom (s : State) (ns : List Nat) : State :=
  let old := s.peers
  { s with fabric := { s.fabric with
    heard := ns.foldl (fun h n => if n = s.node ∨ old.contains n then h else Table.put 0 h n (s.time.ticks + 1)) s.fabric.heard } }

/-- Quad peers named anew are waited for from now on, and unconfirmed (R396, R404). -/
def State.hearQuad (s : State) : State :=
  ({ s with fabric := { s.fabric with heard := s.quadPeerList.foldl (fun h n => if n = s.node then h else Table.put 0 h n (s.time.ticks + 1)) s.fabric.heard } }).setReg Reg.quadStatus 0

/-! Requests (R388, R389, R400). -/

/-- STORE, the atomics and the sync and stalemate messages are tagged (R387, R424). -/
def opTagged (op : Nat) : Bool := op == 0x02 || decide (0x08 ≤ op ∧ op ≤ 0x10) || decide (0x18 ≤ op ∧ op ≤ 0x1D)
/-- Key of a job ID and a node. -/
def pairKey (jobId node : Nat) : Nat := jobId * 4096 + node

/-- The request has room (R400): tagged requests, at most 4,096 unresolved per home and 8 per line. -/
def State.requestRoom (s : State) (p : Packet) : Bool :=
  let open' := List.filter (fun (e : Nat × Request) => opTagged e.2.packet.opcode && e.2.packet.job == p.job && e.2.packet.dst == p.dst) s.fabric.requests
  !opTagged p.opcode ||
    (decide (open'.length < 4096) && decide ((List.filter (fun (e : Nat × Request) => e.2.packet.offset / 256 == p.offset / 256) open').length < 8))

/-- The move that a move number names is among these operations. -/
def hasMove (l : List XOp) (id : Nat) : Bool := l.any (fun m => m.id == id)
/-- The task that a move belongs to, on its tile or saved. -/
def State.moveTask (s : State) (id : Nat) : Option Nat :=
  match List.find? (fun (e : Nat × Tile) => hasMove e.2.live.moves id) s.tiles with
  | some e => if e.2.task = 0 then none else some (e.2.task - 1)
  | none => (List.find? (fun (e : Nat × Task) => e.2.saves.any (fun v => hasMove v.2.moves id)) s.tasks).map (fun e => e.1)

/-- The task that waits for a request. -/
def State.requestTask (s : State) (r : Request) : Option Nat :=
  match r.sink with
  | .moveLoad id _ => s.moveTask id
  | .moveStore id => s.moveTask id
  | .atomic run _ => match Table.find? s.fabric.atomics run with | some a => if a.task = 0 then none else some (a.task - 1) | none => none
  | .device => none
  | .copy _ => none

/-! What an ATOMIC node waits for (R82, R83, R386). -/

/-- The run of a rank of a task. -/
def runKey (task rank : Nat) : Nat := 512 * task + rank
/-- The request is an entry of that run. -/
def Request.ofRun (r : Request) (run : Nat) : Bool := match r.sink with | .atomic x _ => x == run | _ => false
/-- Replies and fences that a run waits for. -/
def State.openRemote (s : State) (run : Nat) : Nat :=
  (List.filter (fun (e : Nat × Request) => e.2.ofRun run) (s.fabric.requests ++ s.fabric.waiting)).length
    + (s.fabric.fences.filter (fun f => f.run == run + 1)).length
/-- What the ranks of task `n` wait for on remote chips (R82). -/
def State.noteRemote (s : State) (n : Nat) : State :=
  if s.hasTask n then
    let k := s.task n
    s.setTask n { k with remoteWait := ((List.range k.vcount).map (fun r => s.openRemote (runKey n r))).sum }
  else s
/-- Task `n` runs no ATOMIC list any more: its replies are discarded when they come. -/
def State.dropRuns (s : State) (n : Nat) : State :=
  { s with fabric := { s.fabric with
    atomics := List.filter (fun (e : Nat × AtomicRun) => e.1 / 512 != n) s.fabric.atomics
    fences := s.fabric.fences.filter (fun f => f.run == 0 || (f.run - 1) / 512 != n) } }

/-- The tag a request takes (R400): the next of its job and home; a re-run takes those of the failed run in order (R520). -/
def State.tagFor (s : State) (r : Request) : State × Nat :=
  let k := pairKey r.packet.job r.packet.dst
  let next := Table.get 0 s.fabric.tags k
  match s.requestTask r with
  | none => ({ s with fabric := { s.fabric with tags := Table.put 0 s.fabric.tags k ((next + 1) % 4294967296) } }, next)
  | some n =>
    let t := s.task n
    match t.replay.find? (fun e => e.1 == k) with
    | some e => (s.setTask n { t with replay := t.replay.erase e, tags := t.tags ++ [e] }, e.2)
    | none =>
      let s := s.setTask n { t with tags := t.tags ++ [(k, next)] }
      ({ s with fabric := { s.fabric with tags := Table.put 0 s.fabric.tags k ((next + 1) % 4294967296) } }, next)

/-- First transmission of request `n`: a tagged request takes its tag, others their number; the request is listed and its bytes
charged. -/
def State.transmit (s : State) (n : Nat) (r : Request) : State :=
  let a := if opTagged r.packet.opcode then s.tagFor r else (s, n % 4294967296)
  let p := { r.packet with tag := a.2, src := s.node }
  let s := a.1
  let s := { s with fabric := { s.fabric with requests := Table.insert s.fabric.requests n { r with packet := p, sentAt := s.time.ticks } } }
  (s.chargeBytes (s.jobPayer p.job) 7 (packetBytes p)).route p

/-- Issue a request: it takes the next number and goes out, or waits at the source (R400). One to a node that is declared dead is not
sent; it completes with PEER_DEAD (R405). -/
def State.issue (s : State) (p : Packet) (ctx : Nat) (sink : Sink) : State :=
  let r : Request := { packet := p, ctx := ctx, sink := sink, sentAt := 0 }
  let n := s.fabric.nextRequest
  let s := { s with fabric := { s.fabric with nextRequest := n + 1 } }
  if s.fabric.dead.contains p.dst then { s with fabric := { s.fabric with requests := Table.insert s.fabric.requests n r } }
  else if s.requestRoom p then s.transmit n r else { s with fabric := { s.fabric with waiting := s.fabric.waiting ++ [(n, r)] } }

/-- Requests that waited go out as room appears, oldest first. -/
def State.reissue (s : State) : State :=
  match s.fabric.waiting.find? (fun r => s.requestRoom r.2.packet) with
  | none => s
  | some r => ({ s with fabric := { s.fabric with waiting := s.fabric.waiting.erase r } }).transmit r.1 r.2

/-- An empty packet to fill in. -/
def blankPacket : Packet :=
  { opcode := 0, vc := 0, ncro := false, src := 0, dst := 0, job := 0, len := 0, retry := false, tag := 0, offset := 0, w64 := false
    noret := false, operand := 0, compare := 0, data := [] }

/-- A sync or stalemate message (R424): its operand block carries home ID, proxy ID and count. -/
def State.syncRequest (s : State) (jobId klass node op homeId proxyId count : Nat) : State :=
  s.issue { blankPacket with opcode := op, vc := requestVc klass, dst := node, job := jobId, len := 3, operand := homeId + 65536 * proxyId, compare := count } 0 .device

/-- Requests of a context without a response, waiting ones among them (R391). -/
def State.outstanding (s : State) (ctx : Nat) : List Nat :=
  let mine := fun (r : Request) => r.ctx == ctx && r.sink != .device
  List.map (fun (e : Nat × Request) => e.1) (List.filter (fun (e : Nat × Request) => mine e.2) (s.fabric.requests ++ s.fabric.waiting))

end Sys2Proof.Machine
end

