-- ==== Sys2Proof/Machine/SyncOps.lean ====
section
/-! DEFINITION. Sync objects (ch. 14): waits, signals, holding, abandonment. Every acquisition, release and satisfaction goes
through the operations of this file. -/

set_option linter.unusedVariables false

namespace Sys2Proof.Machine

/-! Objects. -/

/-- Physical object `i`, if it exists. -/
def State.object (s : State) (i : Nat) : Option SyncObj := Table.find? s.sync.objects i
/-- Set physical object `i`. -/
def State.setObject (s : State) (i : Nat) (o : SyncObj) : State :=
  { s with sync := { s.sync with objects := Table.insert s.sync.objects i o } }
/-- The physical object that a context names by a virtual ID (R411). -/
def State.objectOf (s : State) (ctx vid : Nat) : Option (Nat × SyncObj) :=
  List.find? (fun (e : Nat × SyncObj) => e.2.owner == ctx && e.2.vid == vid) s.sync.objects
/-- Objects and proxies that function `f` holds (R429). -/
def State.syncUsed (s : State) (f : Nat) : Nat := (List.filter (fun (e : Nat × SyncObj) => e.2.owner / 16 == f) s.sync.objects).length
/-- SYNC_FREE and SYNC_USED follow the objects (R429). -/
def State.syncCounts (s : State) (f : Nat) : State :=
  (s.setReg Reg.syncFree (65536 - s.sync.objects.length)).setReg (Reg.sqSyncUsed f) (s.syncUsed f)
/-- Free a physical object. -/
def State.dropObject (s : State) (i f : Nat) : State :=
  ({ s with sync := { s.sync with objects := Table.erase s.sync.objects i } }).syncCounts f

/-- The found state of R410: never with OVERFLOW (R412). -/
def SyncObj.found (o : SyncObj) : Bool :=
  !o.overflow && (match o.kind with | 0 => o.value == o.initial && o.holders.isEmpty | _ => o.value == 0)

/-- Detector state of a job part (R425): 0 to 63 a job entry, 64 + c a single context. -/
def State.quietOf (s : State) (p : Nat) : Quiet := Table.get {} s.sync.quiet p
/-- Set it. -/
def State.setQuiet (s : State) (p : Nat) (q : Quiet) : State := { s with sync := { s.sync with quiet := Table.put {} s.sync.quiet p q } }
/-- The detector forgets a part whose job or context has ended. -/
def State.forgetQuiet (s : State) (p : Nat) : State := { s with sync := { s.sync with quiet := Table.erase s.sync.quiet p } }
/-- Send a sync message of a job entry (R424): `op` about home object and proxy. -/
def State.syncSend (s : State) (j klass node op homeId proxyId count : Nat) : State :=
  s.syncRequest (s.regN (Reg.jobId j)) klass node op homeId proxyId count
/-- The part of a context. -/
def State.partNo (s : State) (ctx : Nat) : Nat := match s.jobOf ctx with | some j => j | none => 64 + ctx

/-! Semaphores (R410, R412, R420). -/

/-- The holder number of a waiter: its context, or a number of its own for a proxy (R424). -/
def Waiter.holder (w : Waiter) : Nat := if w.task = 0 then 65536 * (w.node + 1) + w.proxy else w.ctx

/-- Whether a holder can take units: enough of them, and no ninth holding context (R420). -/
def SyncObj.canTake (o : SyncObj) (holder count : Nat) : Bool :=
  decide (count ≤ o.value) && (!o.hold || o.holders.any (fun h => h.1 == holder) || decide (o.holders.length < 8))

/-- Take units; with HOLD they are held. -/
def SyncObj.take (o : SyncObj) (holder count : Nat) : SyncObj :=
  { o with
    value := o.value - count
    holders := if o.hold then Table.insert o.holders holder (Table.get 0 o.holders holder + count) else o.holders }

/-- A SIGNAL of `count` units: held units of the signalling context are released first; above 2³² − 1 the count stays there
with OVERFLOW set (R412, R420). -/
def SyncObj.give (o : SyncObj) (holder count : Nat) : SyncObj :=
  let held := Table.get 0 o.holders holder
  let v := o.value + count
  { o with
    holders := Table.put 0 o.holders holder (held - count)
    value := min v 4294967295
    overflow := o.overflow || decide (4294967295 < v) }

/-- Put a waiter in its place (R415): wait LNC, then context, then descriptor sequence. -/
def queueWaiter (l : List Waiter) (w : Waiter) : List Waiter :=
  match l with
  | [] => [w]
  | x :: r =>
    if w.since < x.since ∨ (w.since = x.since ∧ (w.ctx < x.ctx ∨ (w.ctx = x.ctx ∧ w.seq < x.seq))) then w :: x :: r
    else x :: queueWaiter r w

/-! Satisfaction. A list of tasks whose next wait entry is to be evaluated is carried along. -/

/-- A waiter is satisfied: a task counts its entry and remembers units; a proxy gets SYNC_GRANT (R424). -/
def State.grant (s : State) (i : Nat) (o : SyncObj) (w : Waiter) : State × List Nat :=
  if w.task = 0 then
    let p := s.quietOf w.job
    ((s.setQuiet w.job { p with sent := p.sent + 1 }).syncSend w.job o.klass w.node 0x1A i w.proxy w.count, [])
  else
    let k := s.task (w.task - 1)
    (s.setTask (w.task - 1) { k with
      waited := k.waited + 1
      taken := if o.kind = 0 then k.taken ++ [(i, w.count)] else k.taken }, [w.task - 1])

/-- Satisfy waiters of an object from the front while they can be (R415): each step looks at one of `ws`. -/
def serveWaiters (s : State) (i : Nat) (ws : List Waiter) : State × List Nat :=
  match ws with
  | [] => (s, [])
  | w :: r =>
    match s.object i with
    | none => (s, [])
    | some o =>
      let ok := match o.kind with | 0 => o.canTake w.holder w.count | 2 => o.value == 1 | _ => false
      if !ok then (s, [])
      else
        let o' := { (if o.kind = 0 then o.take w.holder w.count else o) with waiters := r }
        let g := (s.setObject i o').grant i o w
        let rest := serveWaiters g.1 i r
        (rest.1, g.2 ++ rest.2)

/-- Satisfy every waiting arrival of a barrier. -/
def grantAll (s : State) (i : Nat) (o : SyncObj) (ws : List Waiter) : State × List Nat :=
  match ws with
  | [] => (s, [])
  | w :: r =>
    let g := s.grant i o w
    let rest := grantAll g.1 i o r
    (rest.1, g.2 ++ rest.2)

/-- One arrival at a barrier (R410): at P every waiting arrival is satisfied, arrived returns to 0, the generation advances. -/
def State.arrive (s : State) (i : Nat) (o : SyncObj) : State × List Nat × Bool :=
  if o.value + 1 = o.initial then
    let o' := { o with value := 0, generation := (o.generation + 1) % 4294967296, waiters := [] }
    let g := grantAll (s.setObject i o') i o o.waiters
    (g.1, g.2, true)
  else (s.setObject i { o with value := o.value + 1 }, [], false)

/-- Apply a SIGNAL to a home object for a holder number (R410, R420). -/
def State.applySignal (s : State) (i : Nat) (o : SyncObj) (holder count : Nat) : State × List Nat :=
  match o.kind with
  | 0 => let o' := o.give holder count
         serveWaiters (s.setObject i o') i o'.waiters
  | 1 => let r := s.arrive i o
         (r.1, r.2.1)
  | _ => if o.value = 1 then (s, []) else serveWaiters (s.setObject i { o with value := 1 }) i o.waiters

/-- Evaluate the next wait entry of task `n` (R414): satisfied at once, queued, or, with none left, the task is registered for
the next launch quantum. -/
def State.evalWait (s : State) (n : Nat) : State × List Nat :=
  let k := s.task n
  -- a frozen part evaluates no wait (R427)
  if k.status != .waiting ∨ (s.quietOf (s.partNo k.ctx)).frozen then (s, [])
  else match k.waits.drop k.waited with
  | [] => (s.setTask n { k with status := .registered, readyAt := if k.waits.isEmpty then 0 else s.lnc + 1 }, [])
  | e :: _ =>
    match s.objectOf k.ctx e.vid with
    | none => (s, [])
    | some (i, o) =>
      let w : Waiter := { since := s.lnc, ctx := k.ctx, seq := k.seq, task := n + 1, entry := k.waited, count := e.count }
      let ws := queueWaiter o.waiters w
      if o.waiters.any (fun x => x.task == n + 1) then (s, [])
      else if o.remoteJob ≠ 0 then
        -- a proxy holds its local waiters and asks the home (R423, R424)
        ((s.setObject i { o with waiters := ws }).syncSend (o.remoteJob - 1) o.klass o.homeNode 0x19 o.homeId i e.count, [])
      else if o.kind = 1 then
        let r := s.arrive i o
        if r.2.2 then
          let g := r.1.grant i o w
          (g.1, r.2.1 ++ g.2)
        else
          match r.1.object i with
          | some o' => (r.1.setObject i { o' with waiters := queueWaiter o'.waiters w }, [])
          | none => (r.1, [])
      else serveWaiters (s.setObject i { o with waiters := ws }) i ws

/-- Evaluate the tasks of a work list, and those that become ready to evaluate, for at most `fuel` evaluations. -/
def runWaits (fuel : Nat) (s : State) (work : List Nat) : State :=
  match fuel, work with
  | 0, _ => s
  | _, [] => s
  | fuel + 1, n :: r =>
    let x := s.evalWait n
    runWaits fuel x.1 (r ++ x.2)

/-- Enough evaluations: each satisfies an entry of a task, and a task has at most two. -/
def State.waitFuel (s : State) (work : List Nat) : Nat := 3 * s.tasks.length + work.length + 4

/-- The owner that a waited-on object boosts (R420): of its holding contexts on this chip that have a suspended BE task the one with the
most units, ties to the lowest context number. -/
def State.boostedOwner (s : State) (o : SyncObj) : Option Nat :=
  let asleep := fun (c : Nat) => List.any s.tasks (fun e => e.2.klass == 1 && e.2.status == .suspended && e.2.ctx == c)
  ((o.holders.filter (fun h => decide (h.1 < 65536) && asleep h.1)).foldl (fun (b : Option (Nat × Nat)) h => match b with
    | none => some h
    | some x => if x.2 < h.2 ∨ (x.2 = h.2 ∧ h.1 < x.1) then some h else b) none).map (fun h => h.1)
/-- Contexts that best-effort objects with waiters boost (R90). -/
def State.wantedHolders (s : State) : List Nat :=
  (List.filter (fun (e : Nat × SyncObj) => e.2.klass == 1 && !e.2.waiters.isEmpty) s.sync.objects).filterMap (fun (e : Nat × SyncObj) => s.boostedOwner e.2)
/-- Holder boost (R90): asked for the suspended BE tasks of such a context, and for no other. -/
def State.markBoosts (s : State) : State :=
  { s with tasks := s.tasks.map (fun (e : Nat × Task) =>
    (e.1, { e.2 with boost := e.2.klass == 1 && e.2.status == .suspended && s.wantedHolders.contains e.2.ctx })) }

/-- Evaluate a work list to its end; owners that its waiters need are boosted (R90). -/
def State.settle (s : State) (work : List Nat) : State := (runWaits (s.waitFuel work) s work).markBoosts

/-- A SIGNAL by context `ctx` on an object it names: at the home, at a frozen part queued (R427), or sent to the home. -/
def State.signalObject (s : State) (i : Nat) (o : SyncObj) (ctx count : Nat) : State :=
  if o.remoteJob ≠ 0 then
    let p := o.remoteJob - 1
    let q := s.quietOf p
    (s.setQuiet p { q with sent := q.sent + 1 }).syncSend p o.klass o.homeNode 0x18 o.homeId i count
  else if (s.quietOf (s.partNo o.owner)).frozen then
    let p := s.partNo o.owner
    let q := s.quietOf p
    s.setQuiet p { q with queued := q.queued ++ [(i, ctx, count)] }
  else
    let r := s.applySignal i o ctx count
    r.1.settle r.2

/-! Entries (R413). -/

/-- R85: the object is of another class than the descriptor, or than the context it acts for. -/
def State.otherClass (s : State) (o : SyncObj) (ctx klass : Nat) : Bool := o.klass != klass || o.klass != s.ctxClassOf ctx

/-- The reason that refuses a wait or signal entry of a descriptor, if one does: OP illegal or COUNT out of range SYNC_INVALID,
unmapped VID_UNMAPPED, of the other class CLASS_MISMATCH, abandoned ABANDONED (R85, R413, R421). -/
def State.entryReason (s : State) (ctx klass legal : Nat) (e : SyncEntry) : Option Nat :=
  if e.op = 0 then none
  else if e.op ≠ legal then some 35
  else match s.objectOf ctx e.vid with
  | none => some 32
  | some (_, o) =>
    if s.otherClass o ctx klass then some 3
    else if o.abandoned then some 29
    else if (o.kind = 0 ∧ (e.count = 0 ∨ 65535 < e.count)) ∨ (o.kind ≠ 0 ∧ e.count ≠ 0) then some 35
    else none

/-! Abandonment and leaving (R421, R422). -/

/-- The record fields of a task (R448). -/
def State.taskRecord (s : State) (k : Task) : Record := { ctx := k.ctx, seq := k.seq, doneLnc := s.lnc % 4294967296, startDelay := min k.startDelay 4294967295 }

/-- Complete a waiting task as REFUSED and drop it. -/
def State.refuseTask (s : State) (n reason : Nat) : State :=
  let k := s.task n
  (s.writeRecord k.func (s.recordRing k.func k.ring) { s.taskRecord k with outcome := 4, reason := reason } k.urgent).dropTask n

/-- Abandon an object (R421): its waiters complete as REFUSED with ABANDONED, units they took elsewhere go back, and the other
side of every proxy is told; `tell` says whether a proxy tells its home. -/
def State.abandonObject (s : State) (i : Nat) (tell : Bool) (giveBack : State → Nat → State) : State :=
  match s.object i with
  | none => s
  | some o =>
    if o.abandoned then s
    else
      let s := s.setObject i { o with abandoned := true, waiters := [] }
      let s := o.proxies.foldl (fun s (p : Nat × Nat × Nat) => s.syncSend p.1 o.klass p.2.1 0x1B i p.2.2 0) s
      let s := if o.remoteJob ≠ 0 ∧ tell then s.syncSend (o.remoteJob - 1) o.klass o.homeNode 0x1B o.homeId i 0 else s
      o.waiters.foldl (fun s w => if w.task = 0 then s else (giveBack s (w.task - 1)).refuseTask (w.task - 1) 29) s

/-- Return the units that a released descriptor took (R421), and remove it from every queue. -/
def State.returnUnits (s : State) (n : Nat) : State :=
  let k := s.task n
  let objs := List.map (fun (e : Nat × SyncObj) => (e.1, { e.2 with waiters := e.2.waiters.filter (fun w => w.task != n + 1) })) s.sync.objects
  let s := { s with sync := { s.sync with objects := objs } }
  k.taken.foldl (fun s (t : Nat × Nat) =>
    match s.object t.1 with
    | none => s
    | some o => if o.abandoned then s else s.signalObject t.1 o k.ctx t.2) s

/-- Abandon an object, with everything R421 asks. -/
def State.abandon (s : State) (i : Nat) : State := s.abandonObject i true State.returnUnits

/-- The objects that a context's violent end abandons (R421): those it owns and those it holds units of. -/
def State.abandonContext (s : State) (ctx : Nat) : State :=
  (List.map (fun (e : Nat × SyncObj) => e.1) (List.filter (fun (e : Nat × SyncObj) =>
    e.2.owner == ctx || e.2.holders.any (fun h => h.1 == ctx)) s.sync.objects)).foldl State.abandon s

end Sys2Proof.Machine
end

