-- ==== Sys2Proof/Machine/Translate.lean ====
section
/-! DEFINITION. The device address space and its translation (R356 to R360), and what a descriptor reads through it. Every translation
goes through the operations of this file. -/

set_option linter.unusedVariables false

namespace Sys2Proof.Machine

/-! GDDR7 bytes. -/

/-- Bytes of a GDDR7 page (R357). -/
def pageBytes : Nat := 2097152
/-- Read bytes of GDDR7. -/
def State.gddrRead (s : State) (pa n : Nat) : List Byte := (List.range n).map (fun i => Table.get 0 s.mem.gddr (pa + i))
/-- Write bytes of GDDR7. -/
def State.gddrWrite (s : State) (pa : Nat) (bs : List Byte) : State :=
  { s with mem := { s.mem with gddr := writeMem s.mem.gddr pa bs, poison := s.mem.poison.filter (fun g => decide (256 * g < pa ∨ pa + bs.length < 256 * g + 256)) } }
/-- Any granule of the range returns poison (R369). -/
def State.gddrPoisoned (s : State) (pa n : Nat) : Bool := s.mem.poison.any (fun g => decide (256 * g < pa + n ∧ pa < 256 * g + 256))

/-! Translation (R356 to R358). -/

/-- Where an address leads. -/
inductive Place where
  | tile (p addr : Nat)
  | gddr (pa : Nat)
  | host (addr : Nat)
  | remote (rank off : Nat)
  | fault
deriving DecidableEq, Repr

/-- Units of 64 KiB in a local region. -/
def regionUnits : Nat := 134217728
/-- Key of a unit of a context's local region. -/
def mapKey (ctx unit : Nat) : Nat := ctx * regionUnits + unit

/-- The mapping that covers a unit: an SRAM page there, or a GDDR7 page listed at the first unit of its 2 MiB range. -/
def State.mappingAt (s : State) (ctx unit : Nat) : Option Mapping :=
  match Table.find? s.mem.maps (mapKey ctx unit) with
  | some m => some m
  | none => match Table.find? s.mem.maps (mapKey ctx (unit / 32 * 32)) with
    | some (.gddr p r w) => some (.gddr p r w)
    | _ => none

/-- Translate an offset of a context's local region for a read and/or a write (R357, R358). -/
def State.localPlace (s : State) (ctx off : Nat) (rd wr : Bool) : Place :=
  if 8796093022208 ≤ off then .fault
  else match s.mappingAt ctx (off / 65536) with
  | some (.gddr p r w) => if (rd && !r) || (wr && !w) then .fault else .gddr (p * pageBytes + off % pageBytes)
  | some (.sram part vt page r w) =>
    if (rd && !r) || (wr && !w) then .fault
    else match (s.part part).tiles[vt]? with
      | some t => .tile t (page * 65536 + off % 65536)
      | none => .fault
  | none => .fault

/-- Translate a device virtual address (R356, R358, R458). -/
def State.translate (s : State) (ctx va : Nat) (rd wr : Bool) : Place :=
  if va ≥ 2 ^ 57 then .fault
  else match bits va 56 55 with
  | 0 => if bits va 54 43 ≠ 0 then .fault else s.localPlace ctx (bits va 42 0) rd wr
  | 1 => .remote (bits va 54 43) (bits va 42 0)
  | _ => match Config.atsTranslate (s.regN (Reg.ctxPasid (ctx / 16) (ctx % 16))) (bits va 55 0) with
    | some a => .host a
    | none => .fault

/-- The first byte of a VA range that faults, for a read or a write on this chip. -/
def State.vaFault (s : State) (ctx va n : Nat) (rd wr : Bool) : Option Nat :=
  ((List.range n).find? (fun i => s.translate ctx (va + i) rd wr == .fault)).map (fun i => va + i)

/-- Read one byte at a place of this chip. -/
def State.readPlace (s : State) (x : Place) : Byte := match x with | .tile t a => (s.tile t).byte a | .gddr pa => Table.get 0 s.mem.gddr pa | _ => 0
/-- Write one byte at a place of this chip. -/
def State.writePlace (s : State) (x : Place) (b : Byte) : State :=
  match x with | .tile t a => s.updTile t (fun t => t.write a [b]) | .gddr pa => s.gddrWrite pa [b] | _ => s

/-- Read bytes of a context's local region; none where one of them faults. -/
def State.readLocal (s : State) (ctx off n : Nat) : Option (List Byte) :=
  let ps := (List.range n).map (fun i => s.localPlace ctx (off + i) true false)
  if ps.contains .fault then none else some (ps.map s.readPlace)
/-- Write bytes of a context's local region; none, and nothing written, where one of them faults (R358). -/
def State.writeLocal (s : State) (ctx off : Nat) (bs : List Byte) : Option State :=
  let ps := (List.range bs.length).map (fun i => s.localPlace ctx (off + i) false true)
  if ps.contains .fault then none else some ((ps.zip bs).foldl (fun s (e : Place × Byte) => s.writePlace e.1 e.2) s)
/-- A poisoned word or granule lies under the bytes. -/
def State.localPoisoned (s : State) (ctx off n : Nat) : Bool :=
  (List.range n).any (fun i => match s.localPlace ctx (off + i) true false with
    | .tile t a => (s.tile t).poison.contains (a / 8)
    | .gddr pa => s.mem.poison.contains (pa / 256)
    | _ => false)
/-- Read bytes at a device virtual address: they and whether they are poisoned, or the address that faults (R358). What the
host or another chip returns stands in `arrived` (log entry 157). -/
def State.vaRead (s : State) (ctx va n : Nat) (arrived : List Byte) : Except Nat (List Byte × Bool) :=
  match s.translate ctx va true false with
  | .fault => .error va
  | .remote _ _ => .ok (fit n arrived, false)
  | .host _ => (match s.vaFault ctx va n true false with | some v => .error v | none => .ok (fit n arrived, false))
  | _ => (match s.readLocal ctx (bits va 42 0) n with
    | some bs => .ok (bs, s.localPoisoned ctx (bits va 42 0) n)
    | none => .error ((s.vaFault ctx va n true false).getD va))
/-- The bytes at a device virtual address of a context can be read: mapped, on this chip without poison, in host memory while the function is
ENABLED (R358, R453). -/
def State.vaReadable (s : State) (ctx va n : Nat) : Bool :=
  (s.vaFault ctx va n true false).isNone && (match s.translate ctx va true false with
    | .host _ => s.reg (Reg.functionState (ctxFunc ctx)) == 1
    | .remote _ _ => true
    | _ => !s.localPoisoned ctx (bits va 42 0) n)

/-! What a descriptor names in memory (R358, R441). -/

/-- A descriptor that cannot be served because of a fault completes with it: 10 VA_FAULT with VA[56:8], 11 POISON (R358, R448, R449). -/
def State.faulted (s : State) (d : Desc) (fault info : Nat) : State :=
  (s.releaseSlot d).writeRecord d.func (s.recordRing d.func d.ring) { s.descRecord d with fault := fault, info := info } d.urgent
/-- What a descriptor reads at a device virtual address before it acts: `n` bytes, or the fault with which it completes (R358, R449). -/
def State.descRead (s : State) (d : Desc) (va n : Nat) (arrived : List Byte) (act : List Byte → State) : State :=
  match s.vaRead d.context va n arrived with
  | .error v => s.faulted d 10 (v / 256)
  | .ok (bs, false) => act bs
  | .ok (_, true) => s.faulted d 11 0

end Sys2Proof.Machine
end

