-- ==== Sys2Proof/Machine/Launch.lean ====
section
/-! DEFINITION. The launch unit (R14 to R17, R58 to R60, R91 to R93) and TASK: admission, waits, wake leads, starts under launch
stagger, sleep states and cluster PLLs (R173 to R176). -/

set_option linter.unusedVariables false

namespace Sys2Proof.Machine

/-! Lookups. -/

/-- The chip is in the lowest power state (R505, POWER_STATE 2). -/
def State.lowest (s : State) : Bool := s.reg Reg.powerState == 2

/-- Physical tiles of a task's ranks, by rank: as placed, or by its virtual run now (R10, R443). -/
def State.taskTiles (s : State) (k : Task) : List Nat := if k.tiles.isEmpty then ((s.part k.part).tiles.drop k.vfirst).take k.vcount else k.tiles

/-- A registered launch uses the tile; an admitted TEMPO invocation counts from its admission. -/
def State.registeredOn (s : State) (p : Nat) (k : Task) : Bool :=
  (k.status == .registered || (k.inv != 0 && k.klass == 0 && k.status == .waiting)) && (s.taskTiles k).contains p

/-- The earliest target among registered launches on a tile that satisfy `f`. -/
def State.nextLaunch (s : State) (p : Nat) (f : Task → Bool) : Option Nat :=
  (List.filter (fun (e : Nat × Task) => s.registeredOn p e.2 && f e.2) s.tasks).foldl
    (fun m (e : Nat × Task) => match m with | none => some e.2.target | some x => some (min x e.2.target)) none

/-- The earlier of two launch counts that may be absent. -/
def sooner (a b : Option Nat) : Option Nat :=
  match a, b with
  | none, x => x
  | some a, none => some a
  | some a, some b => some (min a b)
/-- The next radio launch on a tile: a registered one or a standing hold launch (R308). -/
def State.nextRadio (s : State) (p : Nat) : Option Nat := sooner (s.nextLaunch p (fun k => k.radio.isSome)) (s.nextHold p)
/-- The next launch of any kind on a tile, standing hold launches (R302, R308) among them. -/
def State.nextAny (s : State) (p : Nat) : Option Nat := sooner (s.nextLaunch p (fun _ => true)) (s.nextHold p)

/-- Whether the next radio launch on a tile lies at least `ns` ahead. -/
def State.radioGap (s : State) (p ns : Nat) : Bool := match s.nextRadio p with | none => true | some t => decide (s.nowNs + ns ≤ 50 * t)

/-- Entry and wake time of a sleep state in ns (R173); the entry of T2 is one cycle. -/
def sleepTimes (d : Nat) : Nat × Nat := match d with | 2 => (1, 400) | 3 => (1000, 12000) | 4 => (500, 20000) | _ => (0, 0)
/-- Keeping-clock ticks that cover a time in ns (R510). -/
def ticksOf (ns : Nat) : Nat := ceilDiv (5 * ns) 32
/-- The cluster PLL runs (PLL_RUNNING). -/
def State.pllOn (s : State) (c : Nat) : Bool := bit (s.regN Reg.pllRunning) c
/-- Set or clear a cluster's bit of PLL_RUNNING. -/
def State.setPll (s : State) (c : Nat) (on : Bool) : State :=
  let v := s.regN Reg.pllRunning
  s.setReg Reg.pllRunning (if bit v c == on then v else if on then v + 2 ^ c else v - 2 ^ c)

/-- Turn a switched domain on or off (R494, DOMAIN_ON). -/
def State.setDomain (s : State) (b : Nat) (on : Bool) : State :=
  let v := s.regN Reg.domainOn
  s.setReg Reg.domainOn (if bit v b == on then v else if on then v + 2 ^ b else v - 2 ^ b)

/-- Wake time of a tile now in ns (R58): its state's, and 20 µs with its cluster PLL stopped. -/
def State.wakeNs (s : State) (p : Nat) : Nat := (sleepTimes (s.tile p).sleep).2 + if s.pllOn (clusterOf p) then 0 else 20000
/-- Wake lead in quanta of a launch on several tiles (R58). -/
def State.wakeLead (s : State) (ps : List Nat) : Nat := ps.foldl (fun m p => max m (ceilDiv (s.wakeNs p) 50)) 0
/-- The tile's clocks are ready: awake, and no wake runs. -/
def State.awake (s : State) (p : Nat) : Bool := decide ((s.tile p).sleep ≤ 1)

/-- Start the clocks of a tile (R58, R175, R494): first the cluster's domain and PLL, after an entry in progress, then the full wake time. -/
def State.startWake (s : State) (p : Nat) : State :=
  let t := s.tile p
  if t.sleep ≤ 1 ∨ t.wakeAt ≠ 0 then s
  else
    let c := clusterOf p
    let ready := if s.pllOn c then Table.get 0 s.plls c else s.time.ticks + ticksOf 20000
    let s : State := if s.pllOn c then s else (({ s with plls := Table.put 0 s.plls c ready }).setPll c true).setDomain c true
    let start := max (max s.time.ticks t.asleepAt) ready
    s.setTile p { t with wakeAt := start + ticksOf (sleepTimes t.sleep).2 + 1 }

/-! Starts. -/

/-- Stagger window of a launch count (R91). -/
def winOf (n : Nat) : Nat := n / 4
/-- A start on the tile counts against its window: no cube activity for 200 ns (R91). -/
def State.counts (s : State) (t : Tile) : Bool := t.lastActive == 0 || s.passed (t.lastActive - 1) 200
/-- BE charge of a function over its weight, as a pair to compare (R88). -/
def State.beShare (s : State) (f : Nat) : Nat × Nat := (s.cyclesOf f 1, s.regN (Reg.beWeight f))
/-- A re-run after a contained error that has not started (R519). -/
def Task.isRerun (k : Task) : Bool := k.reruns != 0 && k.startLnc == 0
/-- Task `a` goes before task `b` on a pool tile (R88, R90, R519): a boosted owner first, then the lowest ratio, ties to the lowest
function number; within a function a re-run, then the older task. -/
def State.beBefore (s : State) (a b : Nat × Task) : Bool :=
  if a.2.boost != b.2.boost then a.2.boost
  else
    let x := s.beShare a.2.func
    let y := s.beShare b.2.func
    let l := x.1 * y.2
    let r := y.1 * x.2
    decide (l < r) || (l == r && (decide (a.2.func < b.2.func) || (a.2.func == b.2.func && (if a.2.isRerun != b.2.isRerun then a.2.isRerun else decide (a.1 < b.1)))))

/-- A change of configuration is due and not yet applied (R14): a dictionary write at its LNC (a function enable or disable among them), a
resize, a state change of a cell at its boundary, a firmware switch-over. -/
def State.changeDue (s : State) : Bool :=
  s.dueWrite.isSome
    || List.any s.parts (fun (e : Nat × Part) => match e.2.resize with | some r => decide (r.lnc ≤ s.lnc) | none => false)
    || List.any s.radio.cells (fun (e : Nat × Cell) => e.2.waiting.any (fun b => decide (b.2 ≤ s.nowNs)))
    || List.any s.relia.switches (fun (e : Nat × Nat) => decide (e.2 ≤ s.lnc + 1) && !Table.has s.relia.switching e.1)

/-- A task may start or resume now: registered or suspended, its target and its waits past, every change due before it applied (R14),
not frozen by the lowest state. -/
def State.startable (s : State) (k : Task) : Bool :=
  (k.status == .registered || k.status == .running || k.status == .suspended) && decide (k.target ≤ s.lnc ∧ k.readyAt ≤ s.lnc)
    && (k.radio.isSome || !s.lowest) && !s.changeDue

/-- Ranks of a task that are on no tile now and have not ended, with their tiles. -/
def State.openRanks (s : State) (n : Nat) (k : Task) : List (Nat × Nat) :=
  ((List.range k.vcount).zip (s.taskTiles k)).filter (fun (e : Nat × Nat) =>
    !k.halted.contains e.1 && (s.tile e.2).task != n + 1)

/-- A BE invocation that waits for pool tiles, and that the pool can hold (R88, R249). -/
def State.invWants (s : State) (p : Nat) (k : Task) : Bool :=
  k.inv != 0 && k.status == .waiting && !k.rerunDue && decide (k.target ≤ s.lnc) && !s.lowest && (s.part 0).tiles.contains p
    && decide (k.vcount ≤ (s.part 0).tiles.length)
/-- BE tasks that want tile `p` now. -/
def State.wanting (s : State) (p : Nat) : List (Nat × Task) :=
  List.filter (fun (e : Nat × Task) => e.2.klass == 1
    && ((s.startable e.2 && (s.openRanks e.1 e.2).any (fun r => r.2 == p)) || s.invWants p e.2)
    && decide (s.regN (Reg.beWeight e.2.func) ≠ 0)) s.tasks

/-- No other BE task goes first on tile `p`. -/
def State.firstOn (s : State) (p n : Nat) (k : Task) : Bool :=
  k.klass == 0 || (s.wanting p).all (fun e => e.1 == n || s.beBefore (n, k) e)

/-- Cycles of a restore, in tenths (R78). -/
def restoreTenths (k : Task) : Nat := 10 * (ceilDiv k.stateBytes 256 + 64)
/-- Cycles of a save from its preemption point, in tenths (R77). -/
def saveTenths (k : Task) : Nat := 10 * (ceilDiv k.stateBytes 256 + 96)

/-- The live state in which a rank starts (R178): S0 to S7 from its argument block, the program counter at its entry; the move unit of a
radio task's tile has the commands that the conductor issued for it (R166). -/
def State.freshLive (s : State) (k : Task) (rank : Nat) : Live :=
  let args := k.args.getD rank []
  let regs := (List.range 8).foldl (fun r i => Table.put 0 r i (BitVec.ofNat 64 (args.getD i 0))) ([] : Table Word64)
  let moves := match k.radio with | some w => w.moves.map (fun d => { desc := d, sync := 0, ctx := 65535 }) | none => []
  { vs := { s := regs, pc := ((Table.get {} s.kernels k.kernel).entries).getD k.entry 0 }, moves := moves }

/-! Instruction memory (R204). -/

/-- Bytes of a kernel's code. -/
def State.codeBytes (s : State) (h : Nat) : Nat := 8 * (Table.get {} s.kernels h).code.length
/-- Code that a tile holds for tenants' kernels: 256 KiB, on a radio tile the borrower's half. -/
def State.codeRoom (s : State) (p : Nat) : Nat := if s.isRadio p then 131072 else 262144
/-- Kernels leave, the longest there first, until the others fit (R204 does not say which: DESIGN CHOICE, log entry 145). -/
def State.trimCode (s : State) (room : Nat) (l : List Nat) : List Nat :=
  match l with
  | [] => []
  | h :: r => if ((h :: r).map s.codeBytes).sum ≤ room then h :: r else s.trimCode room r
/-- A kernel that is not in the tile's instruction memory is copied in, 256 bytes a cycle, charged to the launching task (R204). -/
def State.loadCode (s : State) (n p : Nat) : State :=
  let k := s.task n
  let t := s.tile p
  if k.inv ≠ 0 ∨ k.radio.isSome ∨ t.code.contains k.kernel then s
  else
    let tenths := 10 * ceilDiv (s.codeBytes k.kernel) 256
    ((s.setTile p { t with code := s.trimCode (s.codeRoom p) (t.code ++ [k.kernel]) }).setTask n { k with tenths := k.tenths + tenths }).chargeCycles
      k.func k.klass tenths

/-- The pages of an evicted rank are loaded back onto the tile on which it resumes, one load each (R70). -/
def State.loadEvicted (s : State) (n r p : Nat) : State :=
  let k := s.task n
  match assoc k.evicted r with
  | none => s
  | some x =>
    let mine := fun (a : Nat) => Table.has x.pages (a / 65536)
    let s := s.updTile p (fun t => { t with
      mem := x.mem.foldl (fun m (e : Nat × Byte) => Table.put 0 m e.1 e.2) (Table.keep t.mem (fun a _ => !mine a))
      poison := (t.poison.filter (fun w => !mine (8 * w))) ++ x.poison
      pages := x.pages.foldl (fun g (e : Nat × List Nat) => Table.put [] g e.1 e.2) t.pages })
    let s := x.pages.foldl (fun s (e : Nat × List Nat) => e.2.foldl (fun s c => s.chargeBytes (c / 16) 6 65536) s) s
    s.setTask n { k with evicted := k.evicted.filter (fun e => e.1 != r) }

/-- Put rank `r` of task `n` on tile `p`: fresh, or restored from its save (R77, R78). -/
def State.place (s : State) (n r p : Nat) : State :=
  let s := (s.loadEvicted n r p).loadCode n p
  let k := s.task n
  let t := s.tile p
  let saved := assoc k.saves r
  let live := match saved with | some l => l | none => s.freshLive k r
  let mine := fun (l : List Staged) => l.filter (fun e => e.owner == k.inv)
  let base := if k.past then k.fetched else k.target
  let s := s.setTile p { t with
    task := n + 1, rank := r, ctx := k.ctx, live := { live with streamB := [], streamMv := [] }, wait := .none, atPoint := true, sincePoint := 0
    pointAt := t.tenths, sleep := 0, preempt := false, next := 0, streamB := live.streamB ++ mine t.streamB, streamMv := live.streamMv ++ mine t.streamMv
    switching := if saved.isSome then 2 else 0
    switchLeft := if saved.isSome then restoreTenths k else 0
    sliceStart := s.time.ticks, lastActive := s.time.ticks + 1 }
  s.setTask n { k with
    status := .running
    tiles := s.taskTiles k
    started := if k.started.contains r then k.started else r :: k.started
    saves := k.saves
    begun := true
    boost := false
    startLnc := if k.startLnc = 0 then s.lnc + 1 else k.startLnc
    startDelay := if k.startLnc = 0 then s.nowNs - 50 * base else k.startDelay }

/-- A task holds no tile and has started: it is suspended (R88); an owner that others wait for is boosted (R90). -/
def State.noteSuspended (s : State) (n : Nat) : State :=
  let k := s.task n
  if k.status == .running && k.tiles.all (fun p => (s.tile p).task != n + 1) then (s.setTask n { k with status := .suspended }).markBoosts else s

/-- The task on a tile is asked to leave (R76, R78, R80): a restore is abandoned and the state in the save area stands, a running task goes
on to its preemption point, a save goes on. -/
def State.askOff (s : State) (p : Nat) : State :=
  let t := s.tile p
  if t.task = 0 ∨ t.switching = 1 then s
  else if t.switching = 2 then (s.setTile p t.freed).noteSuspended (t.task - 1)
  else s.setTile p { t with preempt := true }

/-! Order of starts (R16, R37, R93): by target LNC, then radio, other TEMPO, BE, then physical tile. -/

/-- Class of a launch in R16. -/
def launchClass (k : Task) : Nat := if k.radio.isSome then 0 else if k.klass = 0 then 1 else 2
/-- A launch of one rank: its task's number, the task, the rank, the physical tile. -/
abbrev RankLaunch := Nat × Task × Nat × Nat
/-- `a` is served before `b`; launches alike in all three go by task number and rank. -/
def launchBefore (a b : RankLaunch) : Bool :=
  decide ([a.2.1.target, launchClass a.2.1, a.2.2.2, a.1, a.2.2.1] < [b.2.1.target, launchClass b.2.1, b.2.2.2, b.1, b.2.2.1])
/-- Insert a launch by that order. -/
def insertLaunch (l : List RankLaunch) (e : RankLaunch) : List RankLaunch :=
  match l with
  | [] => [e]
  | x :: r => if launchBefore e x then e :: x :: r else x :: insertLaunch r e
/-- The launches of a task's open ranks. -/
def State.launchesOf (s : State) (n : Nat) : List RankLaunch :=
  let k := s.task n
  if s.startable k then (s.openRanks n k).map (fun r => (n, k, r.1, r.2)) else []
/-- Every launch that may start now, in order. -/
def State.allLaunches (s : State) : List RankLaunch :=
  (s.tasks.flatMap (fun (e : Nat × Task) => s.launchesOf e.1)).foldl insertLaunch []

/-- A radio tile takes a task that is no radio task only as its borrower, with the gap of R78. -/
def State.mayHold (s : State) (n p : Nat) (k : Task) : Bool :=
  !s.isRadio p || k.radio.isSome || (decide ((s.tile p).borrower = n + 1) && s.radioGap p (s.regN Reg.preemptLead + s.regN Reg.minBorrowGap))
/-- The tile can take the launch now, room in the stagger window apart: not quarantined, its clocks ready, free. -/
def State.tileTakes (s : State) (e : RankLaunch) : Bool :=
  let p := e.2.2.2
  !Table.has s.relia.promotions p && s.awake p && (s.tile p).task == 0 && (s.tile p).switching == 0 && s.mayHold e.1 p e.2.1 && s.firstOn p e.1 e.2.1
/-- Launches before this one that the present window still owes a place (R93). -/
def State.aheadOf (s : State) (e : RankLaunch) : Nat :=
  (s.allLaunches.filter (fun x => launchBefore x e && x.2.1.radio.isNone && s.tileTakes x && s.counts (s.tile x.2.2.2))).length
/-- Room in the present window for a start that is no radio launch, after those before it (R93). -/
def State.roomInWindow (s : State) (e : RankLaunch) : Bool :=
  decide (Table.get 0 s.booked (winOf s.lnc) + Table.get 0 s.admitted (winOf s.lnc) + s.aheadOf e < 128)

/-- One rank tries to start on its tile (R60, R75, R78, R80, R93): its clocks must be ready, the tile free, a borrower's gap long enough,
the window have room. A radio launch asks a borrower to leave at once. -/
def State.tryRank (s : State) (n r p : Nat) : State :=
  let k := s.task n
  let t := s.tile p
  -- a quarantined tile: radio launches run on their standby tile, others wait (R529)
  if Table.has s.relia.promotions p then (if k.radio.isSome then s.setTask n { k with status := .waiting, rerunDue := true } else s)
  else if !s.awake p then s.startWake p
  else
    let s : State := if k.radio.isSome ∧ t.borrower ≠ 0 ∧ t.task = t.borrower then s.askOff p else s
    let t := s.tile p
    if t.task ≠ 0 ∨ t.switching ≠ 0 then s
    else if !s.mayHold n p k then s
    else if !s.firstOn p n k then s
    else if k.radio.isSome ∨ !s.counts t then s.place n r p
    else if s.roomInWindow (n, k, r, p) then
      ({ s with admitted := Table.put 0 s.admitted (winOf s.lnc) (Table.get 0 s.admitted (winOf s.lnc) + 1) }).place n r p
    else if k.deferred then s
    else (s.setTask n { k with deferred := true }).bump Reg.staggerDeferrals 1

/-- Every open rank of a task tries to start, in ascending physical tile number (R93). -/
def State.startRanks (s : State) (n : Nat) : State :=
  ((s.launchesOf n).foldl insertLaunch []).foldl (fun s (e : RankLaunch) => s.tryRank e.1 e.2.2.1 e.2.2.2) s

/-! TASK (R443). -/

/-- TEMPO tasks and invocations admitted on a partition and not completed (R94, R240). -/
def State.tempoOn (s : State) (p : Nat) : Nat := (List.filter (fun (e : Nat × Task) => e.2.klass == 0 && e.2.part == p && e.2.radio.isNone) s.tasks).length

/-- The reason that refuses a TASK, if one does, in the model's order (log entry 12). -/
def State.taskReason (s : State) (d : Desc) (b : TaskBody) : Option Nat :=
  let k := Table.find? s.kernels b.kernel
  let unknown : Bool := match k with | none => true | some k => k.func != d.func || k.slot != 0 || k.entries.getD b.entry 0xFFFFFFFF == 0xFFFFFFFF
  let tiles := (s.part b.partition).tiles.length
  if b.stateBytes > 8704 ∨ unknown ∨ b.vcount = 0 ∨ 480 < b.vcount then some 39
  else if d.klass = 0 ∧ (b.partition < 9 ∨ 63 < b.partition ∨ s.regN (Reg.partOwner b.partition) ≠ d.func) then some 4
  else if d.klass = 1 ∧ (b.partition ≠ 0 ∨ s.reg (Reg.beWeight d.func) = 0) then some 4
  else if d.klass = 1 ∧ tiles < b.vcount then some 5
  else if tiles < b.vfirst + b.vcount then some 39
  else if d.klass = 0 ∧ s.regN (Reg.partReservedSlots b.partition) ≤ s.tempoOn b.partition then some 1
  else if d.klass = 0 ∧ s.lowest then some 6
  else
    match s.entryReason d.context d.klass 1 b.wait0, s.entryReason d.context d.klass 1 b.wait1,
          s.entryReason d.context d.klass 2 b.signal0, s.entryReason d.context d.klass 2 b.signal1 with
    | some r, _, _, _ => some r
    | _, some r, _, _ => some r
    | _, _, some r, _ => some r
    | _, _, _, r => r

/-- The admitted task (R443, R50). -/
def State.taskOf (s : State) (d : Desc) (b : TaskBody) : Task :=
  let f := s.fetchLnc d
  let x := extendAt d.lnc f
  let waits := [b.wait0, b.wait1].filter (fun e => e.op != 0)
  { func := d.func, ctx := d.context, ring := d.ring, seq := d.seq, klass := d.klass, quiet := d.quiet, urgent := d.urgent
    kernel := b.kernel, entry := b.entry, part := b.partition, vfirst := b.vfirst, vcount := b.vcount, stateBytes := b.stateBytes
    waits := waits, signals := [b.signal0, b.signal1].filter (fun e => e.op != 0), args := b.args
    target := x.1, fetched := f, past := x.2, status := if waits.isEmpty then .registered else .waiting }

/-- TASK: refused, or admitted with the launch unit, with the argument blocks that stand at ARG_ADDR (R178, R414, R443). -/
def execTask (f r : Nat) (args : List Byte) (s : State) : Out :=
  .next (s.admitDesc f r (isOp 0x01) [1, 2] (fun s d x =>
    let b := taskBodyOf x []
    match s.taskReason d b with
    | some r => s.refuse d r
    | none => s.descRead d b.argAddr (64 * b.vcount) args (fun args => s.addTask (s.taskOf d (taskBodyOf x args)))))

/-- WAIT_BEGIN (R414): from its target LNC on a task's wait entries are evaluated in order. -/
def execWaitBegin (task : Nat) (s : State) : Out :=
  let k := s.task task
  .next (s.when (s.hasTask task && k.status == .waiting && !k.rerunDue && k.inv == 0 && decide (k.target ≤ s.lnc)) (s.settle [task]))

/-! Commands of the launch unit. -/

/-- WAKE_LEAD_START (R58): at the target less the wake lead the clocks of the launch's tiles are started. -/
def execWakeLeadStart (task : Nat) (s : State) : Out :=
  let k := s.task task
  let ps := s.taskTiles k
  let queued : Bool := k.status == .registered || (k.inv != 0 && k.klass == 0 && k.status == .waiting)
  .next (s.when (s.hasTask task && queued && decide (k.target ≤ s.lnc + s.wakeLead ps)) (ps.foldl State.startWake s))

/-- CLOCKS_READY (R60): a launch registered with less time than its wake lead starts as soon as its clocks are ready. -/
def execClocksReady (task : Nat) (s : State) : Out :=
  let k := s.task task
  .next (s.when (s.hasTask task && k.status == .registered && (s.taskTiles k).all s.awake) (s.startRanks task))

/-- STAGGER_WINDOW (R16, R37, R91 to R93): the launches that wait are served in order into the room of the present window. -/
def execStaggerWindow (s : State) : Out :=
  .next (s.allLaunches.foldl (fun s (e : RankLaunch) => s.tryRank e.1 e.2.2.1 e.2.2.2) s)

/-- The window of a radio launch (R92): its own, where that holds fewer than 64 bookings; else the latest earlier one with room that has
not begun; else the first one after its own. `n` bounds the search. -/
def State.bookWindow (s : State) (own n : Nat) : Nat :=
  let room := fun w => decide (Table.get 0 s.booked w < 64)
  if room own then own
  else match (List.range (n + 1)).find? (fun i => decide (i ≤ own) && decide (winOf s.lnc < own - i) && room (own - i)) with
  | some i => own - i
  | none => match (List.range (n + 1)).find? (fun i => room (own + 1 + i)) with
    | some i => own + 1 + i
    | none => own + n + 2

/-- A radio task is booked tile by tile (R80, R92), from the present on where its target is past; its adjusted target is that of its
earliest booking, or of the later window where no earlier one has room, which is a deferral. -/
def State.bookRadio (s : State) (task : Nat) : State :=
  let k := s.task task
  let own := max (winOf k.target) (winOf s.lnc)
  let book := fun (a : State × Nat) (_ : Nat) =>
    let w := a.1.bookWindow own (own - winOf s.lnc + 8 * a.1.booked.length)
    ({ a.1 with booked := Table.put 0 a.1.booked w (Table.get 0 a.1.booked w + 1) }, if a.2 = 0 then w + 1 else min a.2 (w + 1))
  let r := (s.taskTiles k).foldl book (s, 0)
  let w := r.2 - 1
  let target := if r.2 = 0 ∨ w = own then k.target else if w < own then k.target - 4 * (own - w) else max k.target s.lnc + 4 * (w - own)
  let s1 := r.1.setTask task { k with status := .registered, target := target }
  if r.2 ≠ 0 ∧ own < w then s1.bump Reg.staggerDeferrals 1 else s1

/-- RADIO_LAUNCH_REGISTER (R92). -/
def execRadioLaunchRegister (task : Nat) (s : State) : Out :=
  let k := s.task task
  .next (s.when (s.hasTask task && k.status == .waiting && k.radio.isSome && !k.rerunDue) (s.bookRadio task))

/-- Book a radio task into a stagger window (R92) and start it if its clocks are ready. -/
def State.launchRadio (s : State) (task : Nat) : State := (s.bookRadio task).startRanks task

/-- Whether the cluster holds a tile of partitions `lo` to `hi`. -/
def State.clusterHolds (s : State) (c lo hi : Nat) : Bool :=
  List.any s.parts (fun e => decide (lo ≤ e.1 ∧ e.1 ≤ hi) && e.2.tiles.any (fun p => clusterOf p == c))

/-- PLL_STOP (R17, R59): no radio or tempo inference tile in the cluster, every tile at T2 or deeper, and every registered
launch on it further ahead than PLL_HORIZON and than the lead it would need. -/
def execPllStop (cluster : Nat) (s : State) : Out :=
  let ps := (List.range 64).map (fun i => 64 * cluster + i)
  let far := ps.all (fun p => match s.nextAny p with
    | none => true
    | some t => decide (s.nowNs + s.regN Reg.pllHorizon < 50 * t ∧ s.nowNs + (sleepTimes (s.tile p).sleep).2 + 20000 < 50 * t))
  let quiet := ps.all (fun p => decide (2 ≤ (s.tile p).sleep) && (s.tile p).wakeAt == 0)
  .next (s.when (decide (cluster < 8) && s.pllOn cluster && !s.clusterHolds cluster 1 63 && far && quiet) (s.setPll cluster false))

/-- TILE_SLEEP_ENTRY (R17, R58, R59, R173, R174): T1 at once; T2 to T4 with no task and no live state, T4 with no page allocated, and
the next launch at least entry time and wake lead ahead, the cold start of a stopped PLL in it; a radio tile no deeper than T2. SRAM is
lost at T4. -/
def execTileSleepEntry (tile depth : Nat) (s : State) : Out :=
  let t := s.tile tile
  let x := sleepTimes depth
  let cold := if s.pllOn (clusterOf tile) then 0 else 20000
  let far := match s.nextAny tile with | none => true | some n => decide (s.nowNs + x.1 + x.2 + cold ≤ 50 * n)
  let ok := decide (t.sleep < depth ∧ depth ≤ 4 ∧ t.task = 0 ∧ t.switching = 0 ∧ t.wakeAt = 0 ∧ tile < 512)
    && (depth == 1 || (far && t.live == {})) && (depth != 4 || t.pages.isEmpty) && (!s.isRadio tile || decide (depth ≤ 2))
  let t' := { t with sleep := depth, asleepAt := s.time.ticks + ticksOf x.1 }
  .next (s.when ok (s.setTile tile (if depth = 4 then { t' with mem := [], poison := [], code := [] } else t')))

/-- TILE_WAKE_COMPLETE (R173, R175, R176): the tile is at T1 with its clocks running; from T4 its SRAM reads zero, with no word poisoned. -/
def execTileWakeComplete (tile : Nat) (s : State) : Out :=
  let t := s.tile tile
  .next (s.when (decide (t.wakeAt ≠ 0 ∧ t.wakeAt - 1 ≤ s.time.ticks)) (s.setTile tile
    { t with sleep := 1, wakeAt := 0, asleepAt := 0, mem := if t.sleep = 4 then [] else t.mem, poison := if t.sleep = 4 then [] else t.poison }))

end Sys2Proof.Machine
end

