-- ==== Sys2Proof/Machine/Kernels.lean ====
section
/-! DEFINITION. Custom-kernel packages (R186, R187, R201 to R204): fields of an instruction word, the checks of R202, KERNEL_LOAD
and KERNEL_FREE, and measurement chains (R203, R574). -/

set_option linter.unusedVariables false

namespace Sys2Proof.Machine

/-- R186 holds for the word. -/
def wordLegal (w : Nat) : Bool :=
  match wordClass w with
  | 0 => legalOpV (wordOp w) (vFields w)
  | 1 => legalOpA (wordOp w) (aFields w)
  | 2 => legalOpM (wordOp w) (mFields w)
  | 3 => legalOpC (wordOp w) (cFields w)
  | 4 => legalOpX (wordOp w) (xFields w)
  | _ => false

/-- BR, BEQZ, BNEZ, BLTZ, JAL or JR (R192). -/
def wordBranch (w : Nat) : Bool := wordClass w == 3 && decide (1 ≤ wordOp w ∧ wordOp w ≤ 6)
/-- A branch whose target is an immediate offset. -/
def wordRelative (w : Nat) : Bool := wordClass w == 3 && decide (1 ≤ wordOp w ∧ wordOp w ≤ 5)
/-- REPEAT or REPEATS. -/
def wordRepeat (w : Nat) : Bool := wordClass w == 3 && (wordOp w == 8 || wordOp w == 9)
/-- HALT. -/
def wordHalt (w : Nat) : Bool := wordClass w == 3 && wordOp w == 0x3F
/-- RDLNC or RDCYC (R230). -/
def wordTimes (w : Nat) : Bool := wordClass w == 3 && (wordOp w == 0x21 || wordOp w == 0x22)
/-- Body length of a repeat (R187). -/
def bodyLen (w : Nat) : Nat := (cFields w).body + 1

/-- Repeats of the code that enclose index `i`, as (start of the body, end). -/
def enclosing (code : List Nat) (i : Nat) : List (Nat × Nat) :=
  (((List.range i).zip code).filter (fun (e : Nat × Nat) => wordRepeat e.2 && decide (i < e.1 + 1 + bodyLen e.2))).map
    (fun e => (e.1 + 1, e.1 + 1 + bodyLen e.2))

/-- The last three checks of R202 at index `i` with word `w`: R186 and the determinism mode, R192 and R193, branch targets. -/
def instrOk (code : List Nat) (n i w : Nat) (determinism : Bool) : Bool :=
  let slot := (decide (1 ≤ i) && wordBranch (code.getD (i - 1) 0)) || (decide (2 ≤ i) && wordBranch (code.getD (i - 2) 0))
  let bodies := enclosing code i
  let control := wordBranch w || wordHalt w
  wordLegal w && !(determinism && wordTimes w)
    && !(slot && (control || wordRepeat w))
    && !(!bodies.isEmpty && control)
    && !(wordBranch w && decide (n < i + 3))
    && (!wordRepeat w || (decide (i + 1 + bodyLen w ≤ n) && bodies.all (fun b => decide (i + 1 + bodyLen w ≤ b.2)) && decide (bodies.length < 4)))
    && (!wordRelative w || (let t := (i : Int) + signed 32 (cFields w).imm32; decide (0 ≤ t ∧ t < n)))

/-- INFO of a failure in the header, in the length or in the count of entries (R202). -/
def headerFault : Nat := 0x1FFFFFFFFFFFF

/-- The checks of R202 in their order: the package's entries and code, or INFO. -/
def checkPackage (bs : List Byte) (length : Nat) (determinism : Bool) : Except Nat (List Nat × List Nat × Bool) :=
  let f := fun o k => natOf ((bs.drop o).take k)
  let n := f 8 4
  let count := f 12 2
  let borrow := bit (f 6 2) 0
  if f 0 4 ≠ 0x53564B5A ∨ f 4 2 ≠ 1 ∨ n < 1 ∨ 16384 < n ∨ count < 1 ∨ 16 < count ∨ (borrow ∧ 256 < f 16 4) ∨ length ≠ 128 + 8 * n then
    .error headerFault
  else
    let entries := (List.range 16).map (fun i => f (64 + 4 * i) 4)
    let used := entries.filter (fun e => e != 0xFFFFFFFF)
    if used.length ≠ count then .error headerFault
    else match (List.range 16).find? (fun k => entries.getD k 0 != 0xFFFFFFFF && decide (n ≤ entries.getD k 0)) with
    | some k => .error (0x1000000000000 + k)
    | none =>
      let code := (List.range n).map (fun i => f (128 + 8 * i) 8)
      match ((List.range n).zip code).find? (fun (e : Nat × Nat) => !instrOk code n e.1 e.2 determinism) with
      | some e => .error e.1
      | none => .ok (entries, code, borrow)

/-- A package passes R202. -/
def packageOk (determinism : Bool) (b : List Byte) : Bool := match checkPackage b b.length determinism with | .ok _ => true | .error _ => false
/-- A package that only the determinism mode refuses: it reads LNC or CYC (R230). -/
def packageForbidden (b : List Byte) : Bool := packageOk false b && !packageOk true b

/-! Measurement chains (R574). -/

/-- Digests in FUNC_MEAS_LOG of a function. -/
def State.measured (s : State) (f : Nat) : Nat := (s.blob (Reg.funcMeasLog f)).length / 64
/-- FUNC_MEAS now: 64 zero bytes before any load. -/
def State.chain (s : State) (f : Nat) : List Byte := fit 64 (s.blob (Reg.funcMeas f))
/-- Measure a digest into a function's chain and log. -/
def State.measure (s : State) (f : Nat) (digest : List Byte) : State :=
  (s.setBlob (Reg.funcMeas f) (Config.sha512 (s.chain f ++ digest))).setBlob (Reg.funcMeasLog f) (s.blob (Reg.funcMeasLog f) ++ digest)

/-! Descriptors. -/

/-- The lowest free kernel handle (log entry 23). -/
def State.freeHandle (s : State) : Nat := Table.freeKey s.kernels 1

/-- KERNEL_LOAD (R202, R203, R574): checked, measured, and given a handle, which INFO returns; else KERNEL_INVALID with INFO of
the place, counted where only the determinism mode refuses it (R230), or NO_MEMORY for a full measurement log. -/
def execKernelLoad (f r : Nat) (package : List Byte) (s : State) : Out :=
  .next (s.admitDesc f r (isOp 0x06) [1, 2] (fun s d x => s.descRead d (mapBits x 447 384) (mapBits x 511 480) package (fun package =>
    match checkPackage package package.length (s.reg Reg.determinismMode == 1) with
    | .error info => (s.when (s.reg Reg.determinismMode == 1 && packageForbidden package) (s.bump Reg.forbiddenRefusals 1)).refuse d 37 info
    | .ok p =>
      if 256 ≤ s.measured d.func then s.refuse d 12
      else
        let h := s.freeHandle
        let k : Kernel := { func := d.func, borrowable := p.2.2, entries := p.1, code := p.2.1 }
        (({ s with kernels := Table.insert s.kernels h k }).measure d.func (Config.sha512 (package.take (128 + 8 * p.2.1.length)))).served d h)))

/-- A task that has not ended uses the kernel. -/
def State.kernelUsed (s : State) (h : Nat) : Bool := List.any s.tasks (fun e => e.2.kernel == h && e.2.radio.isNone)

/-- Free a kernel: its code leaves every tile. -/
def State.dropKernel (s : State) (h : Nat) : State :=
  let tiles := Table.mapVals {} s.tiles (fun _ t => { t with code := t.code.filter (fun c => c != h) })
  { s with kernels := Table.erase s.kernels h, tiles := tiles }

/-- KERNEL_FREE (R442): refused with SLOT_BUSY while a task or a loaded slot uses it; a handle that is not the function's is
KERNEL_INVALID (log entry 24). -/
def execKernelFree (f r : Nat) (s : State) : Out :=
  .next (s.admitDesc f r (isOp 0x07) [1, 2] (fun s d x =>
    let handle := mapBits x 511 496
    match Table.find? s.kernels handle with
    | none => s.refuse d 37
    | some k =>
      if k.func ≠ d.func then s.refuse d 37
      else if k.slot ≠ 0 ∨ s.kernelUsed handle then s.refuse d 11
      else (s.dropKernel handle).served d))

end Sys2Proof.Machine
end

