-- ==== Sys2Proof/Machine/Preempt.lean ====
section
/-! DEFINITION. Preemption, borrowers and time slices (R71 to R84, R88 to R90, R96). -/

set_option linter.unusedVariables false

namespace Sys2Proof.Machine

/-- Zeroise SRAM bytes `lo` up to `hi` (R374). -/
def Tile.zeroRange (t : Tile) (lo hi : Nat) : Tile :=
  { t with mem := t.mem.filter (fun (e : Nat × Byte) => decide (e.1 < lo ∨ hi ≤ e.1)), poison := t.poison.filter (fun w => decide (8 * w < lo ∨ hi ≤ 8 * w)) }

/-- The window passes to a context: zeroised, and its pages are the context's (R72, R374). -/
def Tile.lend (t : Tile) (ctx : Nat) : Tile :=
  let t := t.zeroRange t.loanBase sramBytes
  { t with pages := (List.range t.loan).foldl (fun g i => Table.put [] g (1024 - t.loan + i) [ctx]) t.pages }

/-- The window is free again: its pages belong to no context (R72). -/
def Tile.unlend (t : Tile) : Tile :=
  { t with borrower := 0, pages := t.pages.filter (fun (e : Nat × List Nat) => decide (e.1 < 1024 - t.loan)) }

/-- Every tile gives up a task: its live state is discarded, a borrower's window is free again (R72, R196). -/
def State.releaseTask (s : State) (n : Nat) : State :=
  ({ s with tiles := Table.mapVals {} s.tiles (fun _ t =>
    let t := if t.task = n + 1 then t.freed else t
    let t := if t.borrower = n + 1 then t.unlend else t
    if t.next = n + 1 then { t with next := 0 } else t) }).dropRuns n

/-- A task leaves every queue of waiters. -/
def State.unqueue (s : State) (n : Nat) : State :=
  let objs := List.map (fun (e : Nat × SyncObj) => (e.1, { e.2 with waiters := e.2.waiters.filter (fun w => w.task != n + 1) })) s.sync.objects
  { s with sync := { s.sync with objects := objs } }

/-- Forget an invocation, named plus 1, and its waves in the stages. -/
def State.dropInvocation (s : State) (i : Nat) : State :=
  let keep := fun (l : List Staged) => l.filter (fun e => e.owner != i)
  if i = 0 then s
  else { s with models := { s.models with invs := Table.erase s.models.invs (i - 1) }
                tiles := Table.mapVals {} s.tiles (fun _ t => { t with streamB := keep t.streamB, streamMv := keep t.streamMv }) }

/-- An abort (R196): the task's state is discarded and it leaves no record. -/
def State.abortTask (s : State) (n : Nat) : State := (((s.releaseTask n).unqueue n).dropTask n).dropInvocation (s.task n).inv

/-- Abort every task that satisfies `f`. -/
def State.abortWhere (s : State) (f : Task → Bool) : State :=
  (List.map (fun (e : Nat × Task) => e.1) (List.filter (fun (e : Nat × Task) => f e.2) s.tasks)).foldl State.abortTask s

/-- A fault ends a task and frees the tiles it holds; FAULT, INFO and its flags are kept for its record (R117, R198, R358, R449). -/
def State.faultTask (s : State) (n code info : Nat) : State :=
  if s.hasTask n then
    let s := s.joinFlags n
    (s.setTask n { s.task n with fault := code, info := info, status := .ended }).freeTiles n (s.task n).tiles
  else s

/-- The rank on a tile waits on a remote chip (R82): for a read of its ATOMIC list, an atomic reply or a fence. -/
def State.waitsRemote (s : State) (tile : Nat) : Bool :=
  let t := s.tile tile
  decide (t.task ≠ 0 ∧ (s.task (t.task - 1)).remoteWait ≠ 0 ∧ s.openRemote (runKey (t.task - 1) t.rank) ≠ 0)
/-- PREEMPTION_REQUEST (R76, R78, R82): a borrower whose tile has a radio launch within PREEMPT_LEAD is asked to leave; a restore
in progress is abandoned and the saved state stands. -/
def execPreemptionRequest (tile : Nat) (s : State) : Out :=
  let t := s.tile tile
  let near := !s.radioGap tile (s.regN Reg.preemptLead + 1)
  .next (s.when (decide (t.borrower ≠ 0 ∧ t.task = t.borrower ∧ t.switching ≠ 1) && near)
    (s.askOff tile))

/-- BORROWER_RESTORE (R78): a suspended borrower returns when the next radio launch lies PREEMPT_LEAD + MIN_BORROW_GAP ahead. -/
def execBorrowerRestore (tile : Nat) (s : State) : Out :=
  let t := s.tile tile
  let n := t.borrower - 1
  let rank := ((s.openRanks n (s.task n)).find? (fun r => r.2 == tile)).map (fun r => r.1)
  .next (s.when (decide (t.borrower ≠ 0 ∧ t.task = 0) && s.hasTask n && s.startable (s.task n) && rank.isSome) (s.tryRank n (rank.getD 0) tile))

/-- The SRAM need of a BE task on one tile (R75): the pages that its context holds on the tile of its virtual number, and the save area
of R74 (log entry 142). -/
def State.sramNeed (s : State) (k : Task) : Nat :=
  let t := s.tile ((s.taskTiles k).headD 512)
  65536 * (List.filter (fun (e : Nat × List Nat) => e.2.contains k.ctx) t.pages).length + 16384
/-- BORROWER_PLACE (R72, R75): a BE task of a borrowable kernel on one tile, not yet started, is placed on a radio tile that has no
borrower, a loan window for its need and a gap of MIN_BORROW_GAP beyond the lead. Tasks of several ranks do not borrow (log entry 21). -/
def execBorrowerPlace (task tile : Nat) (s : State) : Out :=
  let t := s.tile tile
  let k := s.task task
  let ok := s.hasTask task && s.isRadio tile && k.klass == 1 && k.status == .registered && decide (k.vcount = 1 ∧ k.target ≤ s.lnc ∧ k.readyAt ≤ s.lnc)
    && (Table.get {} s.kernels k.kernel).borrowable && decide (t.borrower = 0 ∧ t.loan ≠ 0 ∧ s.sramNeed k ≤ 65536 * t.loan ∧ t.task = 0 ∧ t.switching = 0) && !s.lowest
    && s.radioGap tile (s.regN Reg.preemptLead + s.regN Reg.minBorrowGap)
  let t' := { t.lend k.ctx with borrower := task + 1 }
  .next (s.when ok (((s.setTile tile t').setTask task { k with tiles := [tile] }).tryRank task 0 tile))

/-- LOAN_WINDOW_RESIZE (R73): a changed size applies on a tile when it holds no borrower. -/
def execLoanWindowResize (tile : Nat) (s : State) : Out :=
  let t := s.tile tile
  match s.partOf tile with
  | some p => .next (s.when (s.isRadio tile && t.borrower == 0) (s.setTile tile { t with loan := s.regN (Reg.partLoanPages p) }))
  | none => .next s

/-- BE_SLICE_END (R88, R90): at the end of a slice, or earlier when its task waits on a remote chip, the ready context that comes first
runs; if it is another, the present task is asked to leave. An invocation that comes first takes the tile by INVOCATION_PLACE. -/
def execBeSliceEnd (tile : Nat) (s : State) : Out :=
  let s := s.markBoosts
  let t := s.tile tile
  let n := t.task - 1
  let k := s.task n
  let best := (s.wanting tile).foldl (fun b (e : Nat × Task) => if s.beBefore e b then e else b) (n, k)
  let pool := match s.partOf tile with | some p => p == 0 | none => false
  .next (s.when (decide (t.task ≠ 0 ∧ t.switching = 0) && k.klass == 1 && pool && (s.passed t.sliceStart (s.regN Reg.beSlice) || s.waitsRemote tile))
    (if best.1 = n then s.setTile tile { t with sliceStart := s.time.ticks }
     else s.setTile tile { t with preempt := true, next := if best.2.status = .waiting then 0 else best.1 + 1 }))

/-- BE_REQUEST_EXPIRED (R96): a BE request that has not started within BE_MAX_WAIT of its fetch is removed and completed as
EXPIRED; units its waits took go back (log entry 22). -/
def execBeRequestExpired (task : Nat) (s : State) : Out :=
  let k := s.task task
  let w := s.regN (Reg.beMaxWait k.func)
  let gone := (s.setTask task { k with status := .ended }).returnUnits task
  .next (s.when (s.hasTask task && k.klass == 1 && !k.rerunDue && (k.status == .waiting || k.status == .registered)
      && decide (!k.begun ∧ w ≠ 0 ∧ 50 * k.fetched + 1000 * w ≤ s.nowNs))
    (((gone.writeRecord k.func (gone.recordRing k.func k.ring) { gone.taskRecord k with outcome := 5 } k.urgent).dropTask task).dropInvocation k.inv))

end Sys2Proof.Machine
end

