-- ==== Sys2Proof/Machine/Memory.lean ====
section
/-! DEFINITION. Device memory (ch. 12): GDDR7 pages, the address hash (R366, R367), MAP and UNMAP (R594), training and retraining. Every GDDR7 page
goes through the operations of this file. -/

set_option linter.unusedVariables false

namespace Sys2Proof.Machine

/-! The address hash (R366, R367). -/

/-- Channel-index bits (R366). -/
def channelBits (devices : Nat) : Nat := if devices = 16 then 6 else 5
/-- The XOR fold of PA[42:8] in fields of `b` bits. -/
def paFold (b pa : Nat) : Nat := (List.range (ceilDiv 35 b)).foldl (fun h i => h ^^^ (pa / 2 ^ (8 + b * i) % 2 ^ b)) 0
/-- Channel of a GDDR7 physical address (R366). -/
def channelOf (devices pa : Nat) : Nat :=
  let b := channelBits devices
  let h := paFold b pa
  if b = 6 then h else h / 8 * 16 + h / 4 % 2 * 4 + h % 4
/-- Channel-local data granule (R366). -/
def granuleOf (devices pa : Nat) : Nat := pa / 2 ^ (8 + channelBits devices)
/-- Device granule that stores data granule j, and the granule and byte of its check bytes (R367). -/
def deviceGranule (j : Nat) : Nat := 9 * (j / 8) + j % 8
/-- Check bytes of data granule j: device granule and byte within it. -/
def checkGranule (j : Nat) : Nat × Nat := (9 * (j / 8) + 8, 32 * (j % 8))
/-- Device of a chip channel: floor(c / 4). -/
def deviceOf (channel : Nat) : Nat := channel / 4
/-- Usable bytes of a configuration: devices and GB per device (R367). -/
def usableBytes (devices density : Nat) : Nat := 2 ^ channelBits devices * 256 * (8 * (density * 1000000000 / 4 / 256 / 9))

/-! GDDR7 pages. -/

/-- The page may not be allocated: in use, not yet zeroised, or retired (R369, R375). -/
def State.pageTaken (s : State) (p : Nat) : Bool := Table.has s.mem.pages p || Table.has s.mem.zeroising p || s.mem.retired.contains p
/-- Pages of the configuration but for those of the radio's own areas (RADIO_GDDR7_PAGES, R376; log entry 45); none unless training
ended READY (R371). -/
def State.pageLimit (s : State) : Nat := if s.reg Reg.trainStatus = 1 then s.regN Reg.gddr7DataBytes / pageBytes - s.regN Reg.radioGddr7Pages else 0
/-- The lowest free page from `i` on, looking at no more than `fuel` pages. -/
def firstFree (s : State) (fuel i : Nat) : Nat := match fuel with | 0 => i | fuel + 1 => if s.pageTaken i then firstFree s fuel (i + 1) else i
/-- The lowest free page (log entry 11). -/
def State.freePage (s : State) : Nat := firstFree s (s.mem.pages.length + s.mem.zeroising.length + s.mem.retired.length) 0
/-- Free pages of the chip. -/
def State.pagesFree (s : State) : Nat := s.pageLimit - (s.mem.pages.length + s.mem.zeroising.length + s.mem.retired.length)
/-- Pages counted against function `f` (R375): held, or freed and not yet zeroised. -/
def State.pagesHeld (s : State) (f : Nat) : Nat :=
  (List.filter (fun (e : Nat × Nat) => e.2 == f + 1) s.mem.pages).length + (List.filter (fun (e : Nat × Nat) => e.2 == f + 1) s.mem.zeroising).length
/-- GDDR7_USED follows the pages (R376). -/
def State.countUsed (s : State) (f : Nat) : State := s.setReg (Reg.fnqGddr7Used f) (s.pagesHeld f)
/-- `n` pages fit the function's quota and the chip (R594 step 5, R235, R243). -/
def State.roomFor (s : State) (f n : Nat) : Bool :=
  decide (s.pagesHeld f + n ≤ s.regN (Reg.fnqGddr7Quota f) ∧ n ≤ s.pagesFree)

/-- Allocate `n` pages to a function, lowest free first. -/
def State.allocPages (s : State) (f n : Nat) : State × List Nat :=
  match n with
  | 0 => (s, [])
  | n + 1 =>
    let p := s.freePage
    let r := State.allocPages ({ s with mem := { s.mem with pages := Table.insert s.mem.pages p (f + 1) } }) f n
    (r.1.countUsed f, p :: r.2)

/-- Free a page: it counts against its function until it is zeroised (R375). -/
def State.freePageOf (s : State) (p : Nat) : State :=
  let f := Table.get 0 s.mem.pages p
  if f = 0 then s
  else ({ s with mem := { s.mem with pages := Table.erase s.mem.pages p, zeroising := Table.insert s.mem.zeroising p f } }).countUsed (f - 1)

/-- Free a list of pages. -/
def State.freePages (s : State) (ps : List Nat) : State := ps.foldl State.freePageOf s

/-! MAP and UNMAP (R594). -/

/-- Mappings of a context in units `lo` up to `hi`. -/
def State.mapsIn (s : State) (ctx lo hi : Nat) : List (Nat × Mapping) :=
  s.mem.maps.filter (fun (e : Nat × Mapping) => decide (mapKey ctx lo ≤ e.1 ∧ e.1 < mapKey ctx hi))
/-- Units a mapping covers. -/
def Mapping.units (m : Mapping) : Nat := match m with | .gddr _ _ _ => 32 | .sram _ _ _ _ _ => 1
/-- The partition is one the context uses (R594 step 3). -/
def State.usesPart (s : State) (d : Desc) (p : Nat) : Bool :=
  if d.klass = 0 then decide (9 ≤ p ∧ p ≤ 63) && s.regN (Reg.partOwner p) == d.func else p == 0 && s.reg (Reg.beWeight d.func) != 0

/-- SRAM page of a tile as the last function left it, zeroised for another one (R89, R374). -/
def Tile.grantPage (t : Tile) (page f ctx : Nat) : Tile :=
  let t := if Table.get 0 t.heldBy page = f + 1 then t else t.zeroRange (65536 * page) (65536 * page + 65536)
  let cs := Table.get [] t.pages page
  { t with pages := Table.put [] t.pages page (if cs.contains ctx then cs else cs ++ [ctx]), heldBy := Table.put 0 t.heldBy page (f + 1) }
/-- The page no longer belongs to the context. -/
def Tile.dropPage (t : Tile) (page ctx : Nat) : Tile :=
  { t with pages := Table.put [] t.pages page ((Table.get [] t.pages page).filter (fun c => c != ctx)) }
/-- Another function's context holds the page. -/
def Tile.foreign (t : Tile) (page f : Nat) : Bool := (Table.get [] t.pages page).any (fun c => c / 16 != f)

/-- Steps 2 to 5 of R594 for a MAP: the reason that refuses it, if one does. -/
def State.mapReason (s : State) (d : Desc) (b : MapBody) : Option Nat :=
  let per := if b.kind = 0 then 32 else 1
  let lo := bits b.va 42 0 / 65536
  let hi := lo + b.count * per
  let tiles := (s.part b.partition).tiles
  if b.va ≥ 2 ^ 43 ∨ b.count = 0 ∨ regionUnits < hi ∨ b.kind > 1 then some 41
  else if b.kind = 0 ∧ b.va % pageBytes ≠ 0 then some 41
  else if b.kind = 1 ∧ (b.va % 65536 ≠ 0 ∨ 1024 < b.page + b.count ∨ tiles.length ≤ b.vtile) then some 41
  else if b.kind = 1 ∧ !s.usesPart d b.partition then some 4
  else if !(s.mapsIn d.context lo hi).isEmpty ∨ (b.kind = 1 ∧ (List.range b.count).any (fun i =>
      match Table.find? s.mem.maps (mapKey d.context ((lo + i) / 32 * 32)) with | some (.gddr _ _ _) => true | _ => false)) then some 42
  -- a page that another function's context holds is already mapped (R89; log entry 25)
  else if b.kind = 1 ∧ (List.range b.count).any (fun i => (s.tile (tiles.getD b.vtile 0)).foreign (b.page + i) d.func) then some 42
  else if b.kind = 0 ∧ !s.roomFor d.func b.count then some 12
  else none

/-- An accepted MAP maps its whole range (R594). -/
def State.mapRange (s : State) (d : Desc) (b : MapBody) : State :=
  let lo := bits b.va 42 0 / 65536
  if b.kind = 0 then
    let r := s.allocPages d.func b.count
    let maps := ((List.range b.count).zip r.2).foldl (fun m (e : Nat × Nat) =>
      Table.insert m (mapKey d.context (lo + 32 * e.1)) (Mapping.gddr e.2 b.read b.write)) r.1.mem.maps
    { r.1 with mem := { r.1.mem with maps := maps } }
  else
    let tile := (s.part b.partition).tiles.getD b.vtile 0
    let maps := (List.range b.count).foldl (fun m i =>
      Table.insert m (mapKey d.context (lo + i)) (Mapping.sram b.partition b.vtile (b.page + i) b.read b.write)) s.mem.maps
    ({ s with mem := { s.mem with maps := maps } }).updTile tile (fun t =>
      (List.range b.count).foldl (fun t i => t.grantPage (b.page + i) d.func d.context) t)

/-- MAP (R357, R594). -/
def execMap (f r : Nat) (s : State) : Out :=
  .next (s.admitDesc f r (isOp 0x09) [1, 2] (fun s d x =>
    let b := mapBodyOf x
    match s.mapReason d b with
    | some r => s.refuse d r
    | none => (s.mapRange d b).served d))

/-- Remove mappings: GDDR7 pages are freed, SRAM pages no longer belong to the context unless another mapping names them. -/
def State.dropMaps (s : State) (ctx : Nat) (gone : List (Nat × Mapping)) : State :=
  let left := s.mem.maps.filter (fun (e : Nat × Mapping) => !gone.any (fun g => g.1 == e.1))
  let s := { s with mem := { s.mem with maps := left } }
  gone.foldl (fun s (e : Nat × Mapping) =>
    match e.2 with
    | .gddr p _ _ => s.freePageOf p
    | .sram part vt page _ _ =>
      let again := s.mem.maps.any (fun (x : Nat × Mapping) => x.1 / regionUnits == ctx &&
        (match x.2 with | .sram p v g _ _ => p == part && v == vt && g == page | _ => false))
      if again then s
      else match (s.part part).tiles[vt]? with
        | some t => s.updTile t (fun t => t.dropPage page ctx)
        | none => s) s

/-- Every mapping of a context is removed (R407, R453). -/
def State.dropContextMaps (s : State) (ctx : Nat) : State := s.dropMaps ctx (s.mapsIn ctx 0 regionUnits)

/-- Steps 2 and 4 of R594 for an UNMAP. -/
def State.unmapReason (s : State) (d : Desc) (count va : Nat) : Option Nat :=
  let lo := bits va 42 0 / 65536
  let hi := lo + count
  let cut : Nat → Bool := fun u => match Table.find? s.mem.maps (mapKey d.context (u / 32 * 32)) with | some (.gddr _ _ _) => u % 32 != 0 | _ => false
  if va ≥ 2 ^ 43 ∨ count = 0 ∨ regionUnits < hi ∨ va % 65536 ≠ 0 then some 41
  else if cut lo ∨ cut hi then some 41
  else if ((s.mapsIn d.context lo hi).map (fun e => e.2.units)).sum ≠ count then some 43
  else none

/-- UNMAP (R360, R594): gone for every agent before it completes. -/
def execUnmap (f r : Nat) (s : State) : Out :=
  .next (s.admitDesc f r (isOp 0x0A) [1, 2] (fun s d x =>
    let count := mapBits x 447 416
    let va := mapBits x 383 320
    match s.unmapReason d count va with
    | some r => s.refuse d r
    | none => (s.dropMaps d.context (s.mapsIn d.context (bits va 42 0 / 65536) (bits va 42 0 / 65536 + count))).served d))

/-! Pages, training, retraining. -/

/-- GDDR7_ZEROISE_COMPLETE (R374, R375): the page reads zero, may be allocated again, and GDDR7_USED falls; the traffic is chip
overhead. -/
def execGddr7ZeroiseComplete (page : Nat) (s : State) : Out :=
  let f := Table.get 0 s.mem.zeroising page
  let m := { s.mem with
    zeroising := Table.erase s.mem.zeroising page
    gddr := s.mem.gddr.filter (fun (e : Nat × Byte) => decide (e.1 / pageBytes ≠ page)) }
  .next (s.when (decide (f ≠ 0)) ((({ s with mem := m }).countUsed (f - 1)).chargeBytes overheadAccount 6 pageBytes))

/-- GDDR7_TRAINING_DONE (R365, R367, R371): READY with the detected density and the usable bytes, or TRAIN_FAILED when a
device failed. -/
def execGddr7TrainingDone (density : Nat) (failed : List Nat) (s : State) : Out :=
  let n := s.mem.devices
  let bad := failed.filter (fun d => decide (d < 16) && (n == 16 || decide (d % 4 < 2)))
  let s1 := { s with mem := { s.mem with failed := bad } }
  .next (s.when (s.reg Reg.trainStatus == 0 && [32, 64, 128].contains density)
    (if bad.isEmpty then ((s1.setReg Reg.gddr7Density density).setReg Reg.gddr7DataBytes (usableBytes n density)).setReg Reg.trainStatus 1
     else s1.setReg Reg.trainStatus 16))

/-- WCK_TRACKING (R372): every 100 ms, inside refresh. -/
def execWckTracking (s : State) : Out :=
  .next (s.when (s.reg Reg.trainStatus == 1 && s.passed s.mem.wckAt 100000000) { s with mem := { s.mem with wckAt := s.time.ticks } })

/-- The reasons of R373 that refuse a retrain: RADIO_ACTIVE while any cell is not STOPPED, RETRAIN_BUSY while an admitted task
has a GDDR7 page mapped. -/
def State.retrainReason (s : State) : Nat :=
  let mapped := fun c => (s.mapsIn c 0 regionUnits).any (fun e => match e.2 with | .gddr _ _ _ => true | _ => false)
  if (List.range 256).any (fun c => s.reg (Reg.cellState c) != 0) then 17
  else if List.any s.tasks (fun e => mapped e.2.ctx) then 18
  else 0

/-- RETRAIN_LNC (R373): refused with its status, or pending. -/
def retrainRule (s : State) (dev : Nat) : Option State :=
  let r := s.retrainReason
  if r ≠ 0 then some (s.setReg (Reg.gdevRetrainStatus dev) r) else none
/-- The retrain is requested for an LNC. -/
def retrainEffect (s : State) (dev lnc : Nat) : State :=
  ({ s with mem := { s.mem with retrainAt := Table.put 0 s.mem.retrainAt dev (lnc + 1) } }).setReg (Reg.gdevRetrainStatus dev) 1

/-- DEVICE_RETRAIN (R373): at its LNC the device's four channels go out of service. -/
def execDeviceRetrain (dev : Nat) (s : State) : Out :=
  let n := Table.get 0 s.mem.retrainAt dev
  .next (s.when (decide (n ≠ 0 ∧ n - 1 ≤ s.lnc ∧ dev < 16))
    { s with mem := { s.mem with retrainAt := Table.put 0 s.mem.retrainAt dev 0, retraining := dev :: s.mem.retraining.filter (fun d => d != dev) } })

/-- DEVICE_RETRAIN_COMPLETE (R373): the channels return and RETRAIN_STATUS reads DONE. -/
def execDeviceRetrainComplete (dev : Nat) (s : State) : Out :=
  .next (s.when (s.mem.retraining.contains dev)
    (({ s with mem := { s.mem with retraining := s.mem.retraining.filter (fun d => d != dev) } }).setReg (Reg.gdevRetrainStatus dev) 2))

/-! CACHE_WAYS (R362). -/

/-- Clusters that hold a tile of a partition. -/
def State.clustersOf (s : State) (p : Nat) : List Nat := (List.range 8).filter (fun c => (s.part p).tiles.any (fun t => clusterOf t == c))
/-- CACHE_WAYS: no overlap in a cluster, and at least 3 of ways 0 to 14 unreserved in every cluster. -/
def cacheWaysRule (s : State) (p v : Nat) : Option State :=
  let others := fun c => (List.range 64).filter (fun q => q != p && (s.clustersOf q).contains c)
  let bad := (s.clustersOf p).any (fun c =>
    let used := (others c).foldl (fun a q => a ||| s.regN (Reg.partCacheWays q)) 0
    used &&& v != 0 || decide (((List.range 15).filter (fun i => !bit (used ||| v) i)).length < 3))
  if bad then some s else none

end Sys2Proof.Machine
end

