-- ==== Sys2Proof/Machine/Fabric.lean ====
section
/-! DEFINITION. The memory-semantic fabric (ch. 13): what a home does with a request, what a requester does with a response, exactly
once, coherence, fences, links, failure and teardown. -/

set_option linter.unusedVariables false

namespace Sys2Proof.Machine

/-! Responses (R388, R389). Statuses: 0 OK, 1 POISON, 2 VA_FAULT, 3 REPLAY_UNKNOWN, 4 FORBIDDEN_IN_MODE. -/

/-- Class of a packet's job: chip control is TEMPO (R383, R393). -/
def State.packetClass (s : State) (jobId : Nat) : Nat :=
  if jobId = controlJob then 0
  else match (List.range 64).find? (fun j => s.jobState j != 0 && s.regN (Reg.jobId j) == jobId) with
    | some j => s.regN (Reg.jobClass j)
    | none => 0

/-- Send the response to a request. -/
def State.respond (s : State) (p : Packet) (op status result : Nat) (data : List Byte) : State :=
  let r : Packet := { blankPacket with
    opcode := op, vc := responseVc (s.packetClass p.job), src := s.node, dst := p.src, job := p.job, len := data.length / 4 - 1, tag := p.tag
    offset := p.offset / 256 * 256 + status, w64 := p.w64, operand := result, data := data }
  (s.chargeBytes (s.jobPayer p.job) 7 (packetBytes r)).route r

/-- The home context of a packet: the ACTIVE entry that its job and source name, and the context bound there (R384). A packet
without one is counted and gets no response. -/
def State.homeOf (s : State) (p : Packet) : Option (Nat × Nat) :=
  (s.activeJob p.job p.src).map (fun j => (j, (s.job j).bound))

/-- Requests are accepted from nodes that are not declared dead, at a chip with a node ID (R382, R405). -/
def State.hears (s : State) (p : Packet) : Bool := s.node != 0xFFFF && p.dst == s.node && !s.fabric.dead.contains p.src

/-- Serve a request at its home context, or count it at NO_JOB_DROPS (R384). -/
def State.atHome (s : State) (p : Packet) (act : State → Nat → Nat → State) : State :=
  if !s.hears p then s
  else match s.homeOf p with
  | none => s.bump Reg.noJobDrops 1
  | some (j, c) => act (s.chargeBytes (s.regN (Reg.jobOwner j)) 7 (packetBytes p)) j c

/-! Reads. -/

/-- Bytes that LEN names. -/
def lenBytes (p : Packet) : Nat := 4 * (p.len + 1)

/-- Read the target of a request: status and bytes. No context bound is a VA_FAULT. -/
def State.homeRead (s : State) (c off n : Nat) : Nat × List Byte :=
  if c = 0 then (2, [])
  else match s.readLocal (c - 1) off n with
  | none => (2, [])
  | some bs => (if s.localPoisoned (c - 1) off n then 1 else 0, bs)

/-- LOAD at the home (R387). -/
def State.homeLoad (s : State) (p : Packet) : State :=
  s.atHome p (fun s j c => let r := s.homeRead c p.offset (lenBytes p); s.respond p 0x20 r.1 0 r.2)
/-- READ at the home (R387): the value comes back in a REPLY. -/
def State.homeReadWord (s : State) (p : Packet) : State :=
  s.atHome p (fun s j c => let r := s.homeRead c p.offset (if p.w64 then 8 else 4); s.respond p 0x22 r.1 (natOf r.2) [])

/-! Exactly once (R402). -/

/-- `a` is newer than `b` under R50. -/
def newer (a b : Nat) : Bool := match dueOf a b with | .future _ => true | _ => false

/-- The replay table of a job ID and source. -/
def State.replay (s : State) (p : Packet) : Replay := Table.get {} s.fabric.replays (pairKey p.job p.src)
/-- Set it. -/
def State.setReplay (s : State) (p : Packet) (r : Replay) : State :=
  { s with fabric := { s.fabric with replays := Table.put {} s.fabric.replays (pairKey p.job p.src) r } }
/-- The tag has become the highest: tags below the window of 4,096 are forgotten. -/
def Replay.advance (r : Replay) (tag : Nat) : Replay :=
  { hw := tag + 1, applied := r.applied.filter (fun (e : Nat × Applied) => !newer ((tag + 4294967296 - 4095) % 4294967296) e.1) }
/-- Record a tag as APPLIED with its stored result. -/
def State.record (s : State) (p : Packet) (status result : Nat) : State :=
  let r := s.replay p
  s.setReplay p { r with applied := (p.tag, { status := status, result := result, at' := s.time.ticks }) :: r.applied.filter (fun (e : Nat × Applied) => e.1 != p.tag) }

/-- Handle a tagged request (R402): apply it once, or answer from the table. `op` is the response opcode; `act` applies the
request and sends its response. -/
def State.once (s : State) (p : Packet) (op : Nat) (act : State → State) : State :=
  let r := s.replay p
  if r.hw = 0 ∨ newer p.tag (r.hw - 1) then act (s.setReplay p (r.advance p.tag))
  else if newer ((r.hw - 1 + 4294967296 - 4095) % 4294967296) p.tag then s.respond p op 3 0 []
  else match r.applied.find? (fun (e : Nat × Applied) => e.1 == p.tag) with
  | some e =>
    if e.2.aged then s.respond p op 3 0 []
    else
      let s := match s.activeJob p.job p.src with | some j => s.bump (Reg.jobReplayed j) 1 | none => s
      s.respond p op e.2.status e.2.result []
  | none => act s

/-! Atomics (R387). -/

/-- The new value of an atomic on `w` bits: old, operand, comparand. -/
def atomicValue (op w old x y : Nat) : Nat :=
  match op with
  | 0x08 => (old + x) % 2 ^ w
  | 0x09 => x % 2 ^ w
  | 0x0A => if old = y % 2 ^ w then x % 2 ^ w else old
  | 0x0B => if signed w old ≤ signed w x then old else x % 2 ^ w
  | 0x0C => if signed w x ≤ signed w old then old else x % 2 ^ w
  | 0x0D => min old (x % 2 ^ w)
  | 0x0E => max old (x % 2 ^ w)
  | 0x0F => (fp32Add old (x % 2 ^ 32)).code
  | 0x10 => (fp64Add old (x % 2 ^ 64)).code
  | _ => old

/-- Bits an atomic works on. -/
def atomicBits (p : Packet) : Nat := if p.opcode = 0x0F then 32 else if p.opcode = 0x10 then 64 else if p.w64 then 64 else 32
/-- The determinism mode forbids the atomic (R230). -/
def atomicForbidden (op : Nat) (noret : Bool) : Bool :=
  op == 0x0F || op == 0x10 || op == 0x09 || op == 0x0A || ((op == 0x08 || decide (0x0B ≤ op ∧ op ≤ 0x0E)) && !noret)

/-- Apply an atomic at context `c` - 1 (R387): read, apply, write and return the old value as one step; both rights are needed (R358): the
state, the status, and the old value unless NORET. -/
def State.atomicAt (s : State) (p : Packet) (c : Nat) : State × Nat × Nat :=
  let w := atomicBits p
  let r := s.homeRead c p.offset (w / 8)
  let old := natOf r.2
  if r.1 ≠ 0 then (s, r.1, 0)
  else match s.writeLocal (c - 1) p.offset (bytesOf (w / 8) (atomicValue p.opcode w old p.operand p.compare)) with
  | none => (s, 2, 0)
  | some s' => (s', 0, if p.noret then 0 else old)
/-- Apply an atomic of a packet, keep its result and answer (R387, R402). -/
def State.applyAtomic (s : State) (p : Packet) (c : Nat) : State :=
  let r := s.atomicAt p c
  (r.1.record p r.2.1 r.2.2).respond p 0x22 r.2.1 r.2.2 []

/-! Stores and coherence (R397, R398). -/

/-- Key of a local line. -/
def lineKey (ctx off : Nat) : Nat := ctx * 34359738368 + off / 256
/-- Nodes that hold the line shared, or have not yet answered an INV. -/
def State.sharersOf (s : State) (k : Nat) : List Nat := Table.get [] s.fabric.sharers k
/-- Nodes asked to drop the line. -/
def State.droppingOf (s : State) (k : Nat) : List Nat := Table.get [] s.fabric.dropping k

/-- Ask every sharer of a line to drop it (R398). -/
def State.invalidateLine (s : State) (j ctx off : Nat) : State :=
  let k := lineKey ctx off
  let ns := s.sharersOf k
  let s := { s with fabric := { s.fabric with
    sharers := Table.put [] s.fabric.sharers k []
    dropping := Table.put [] s.fabric.dropping k (s.droppingOf k ++ ns) } }
  ns.foldl (fun s n => s.route { blankPacket with
    opcode := 0x29, vc := coherenceVc (s.regN (Reg.jobClass j)), src := s.node, dst := n, job := s.regN (Reg.jobId j), offset := off / 256 * 256 }) s

/-- Apply a STORE and acknowledge it (R387, R402). -/
def State.applyStore (s : State) (p : Packet) (c : Nat) : State :=
  match (if c = 0 then none else s.writeLocal (c - 1) p.offset p.data) with
  | some s' => (s'.record p 0 0).respond p 0x21 0 0 []
  | none => (s.record p 2 0).respond p 0x21 2 0 []

/-- Apply a STORE or an atomic. -/
def State.applyRequest (s : State) (p : Packet) (c : Nat) : State := if p.opcode = 0x02 then s.applyStore p c else s.applyAtomic p c
/-- No other chip holds the line of a context's offset, and none has yet to answer an INV (R398). -/
def State.unshared (s : State) (c off : Nat) : Bool := (s.sharersOf (lineKey (c - 1) off)).isEmpty && (s.droppingOf (lineKey (c - 1) off)).isEmpty
/-- An ATOMIC entry whose rank is this chip's own (R383, R386): done at the bound context, with no packet: the state, the status and what
comes back. No answer while nodes hold the line shared: they are asked to drop it, and the entry is not begun (log entry 129). -/
def State.atomicHere (s : State) (j : Nat) (p : Packet) : State × Option (Nat × Option Nat) :=
  let c := (s.job j).bound
  if p.opcode = 0x03 then
    let r := s.homeRead c p.offset (lenBytes p)
    (s, some (r.1, if r.1 = 0 then some (natOf r.2) else none))
  else if c ≠ 0 ∧ s.unshared c p.offset = false then (s.invalidateLine j (c - 1) p.offset, none)
  else
    let r := s.atomicAt p c
    (r.1, some (r.2.1, if r.2.1 = 0 ∧ p.noret = false then some r.2.2 else none))
/-- Apply a STORE or an atomic once every shared copy of its line has been invalidated (R398; atomics: log entry 129). -/
def State.writeShared (s : State) (p : Packet) (j c : Nat) : State :=
  let k := lineKey (c - 1) p.offset
  if c = 0 ∨ ((s.sharersOf k).isEmpty ∧ (s.droppingOf k).isEmpty) then s.applyRequest p c
  else (({ s with fabric := { s.fabric with held := s.fabric.held ++ [p] } }).invalidateLine j (c - 1) p.offset)
/-- A request that waits for copies to be dropped. -/
def State.isHeld (s : State) (p : Packet) : Bool := s.fabric.held.any (fun q => q.src == p.src && q.job == p.job && q.tag == p.tag)

/-- STORE at the home (R387, R398). -/
def State.homeStore (s : State) (p : Packet) : State :=
  s.atHome p (fun s j c => if s.isHeld p then s else s.once p 0x21 (fun s => s.writeShared p j c))
/-- An atomic at the home (R230, R387, R402). -/
def State.homeAtomic (s : State) (p : Packet) : State :=
  s.atHome p (fun s j c => if s.isHeld p then s else s.once p 0x22 (fun s =>
    if s.reg Reg.determinismMode = 1 ∧ atomicForbidden p.opcode p.noret then
      ((s.bump Reg.forbiddenRefusals 1).record p 4 0).respond p 0x22 4 0 []
    else s.writeShared p j c))

/-- A node no longer holds a line: stores that waited for it are applied, in the order they came (R398, R403). -/
def State.lineDropped (s : State) (ctx off node : Nat) : State :=
  let k := lineKey ctx off
  let left := (s.droppingOf k).filter (fun n => n != node)
  let s := { s with fabric := { s.fabric with dropping := Table.put [] s.fabric.dropping k left } }
  if !left.isEmpty then s
  else
    let mine : Packet → Bool := fun q => (match s.homeOf q with | some (_, c) => c == ctx + 1 && q.offset / 256 == off / 256 | none => false)
    let ready := s.fabric.held.filter mine
    let s := { s with fabric := { s.fabric with held := s.fabric.held.filter (fun q => !ready.contains q) } }
    ready.foldl (fun s q => s.applyRequest q (ctx + 1)) s

/-- GET_S at the home (R397): a line of a GDDR7 page is held shared by the quad peer from now on, which the answer's W64 bit tells. -/
def State.homeGetS (s : State) (p : Packet) : State :=
  s.atHome p (fun s j c =>
    let r := s.homeRead c (p.offset / 256 * 256) 256
    let gddr : Bool := match s.localPlace (c - 1) p.offset true false with | .gddr _ => true | _ => false
    let quad := s.isQuadPeer p.src
    let k := lineKey (c - 1) p.offset
    let s : State := if decide (c ≠ 0) && gddr && quad && !(s.sharersOf k).contains p.src then
        { s with fabric := { s.fabric with sharers := Table.put [] s.fabric.sharers k (s.sharersOf k ++ [p.src]) } } else s
    s.respond { p with w64 := gddr && quad } 0x20 r.1 0 r.2)

/-- Key of a remote line held here. -/
def remoteKey (jobId node off : Nat) : Nat := pairKey jobId node * 34359738368 + off / 256
/-- INV at a holding chip (R398): the copy goes and INV_ACK answers. -/
def State.holderInv (s : State) (p : Packet) : State :=
  if !s.hears p then s
  else (({ s with fabric := { s.fabric with shared := Table.erase s.fabric.shared (remoteKey p.job p.src p.offset) } }).route
    { blankPacket with opcode := 0x2A, vc := p.vc, src := s.node, dst := p.src, job := p.job, tag := p.tag, offset := p.offset / 256 * 256 })
/-- INV_ACK at the home. -/
def State.homeInvAck (s : State) (p : Packet) : State :=
  if !s.hears p then s else match s.homeOf p with | some (_, c) => s.lineDropped (c - 1) p.offset p.src | none => s
/-- EVICT_S at the home: the peer no longer holds the line. -/
def State.homeEvict (s : State) (p : Packet) : State :=
  if !s.hears p then s
  else match s.homeOf p with
  | some (_, c) =>
    let k := lineKey (c - 1) p.offset
    { s with fabric := { s.fabric with sharers := Table.put [] s.fabric.sharers k ((s.sharersOf k).filter (fun n => n != p.src)) } }
  | none => s

/-! Failure (R404 to R407). -/

/-- Requests of a context are forgotten; late answers are discarded (R401, R453). -/
def State.dropRequests (s : State) (ctx : Nat) : State :=
  { s with fabric := { s.fabric with
    requests := List.filter (fun (e : Nat × Request) => e.2.ctx != ctx || e.2.sink == .device) s.fabric.requests
    waiting := s.fabric.waiting.filter (fun r => r.2.ctx != ctx || r.2.sink == .device)
    fences := s.fabric.fences.filter (fun x => x.ctx != ctx)
    atomics := List.filter (fun (e : Nat × AtomicRun) => e.2.ctx != ctx) s.fabric.atomics } }

/-- Job fault (R406): tasks abort, the context issues no further request, FAULTED with its cause, an event. Causes: 2 PEER_DEAD,
3 REPLAY_UNKNOWN, 4 REQUEST_LOST. -/
def State.jobFault (s : State) (j cause : Nat) : State :=
  if s.jobState j ≠ 2 then s
  else
    let c := (s.job j).bound
    let s := if c = 0 then s else (s.abortWhere (fun k => k.ctx == c - 1 && k.radio.isNone)).dropRequests (c - 1)
    (((s.setJob j { s.job j with faultAt := s.time.ticks + 1 }).setReg (Reg.jobState j) 3).setReg (Reg.jobFaultCause j) cause).deviceEvent

/-- The job of a job ID faults. -/
def State.jobIdFault (s : State) (jobId cause : Nat) : State :=
  match (List.range 64).find? (fun j => s.jobState j == 2 && s.regN (Reg.jobId j) == jobId) with
  | some j => s.jobFault j cause
  | none => s

/-- Teardown begins (R407): TEARING, tasks abort, sync objects are released ABANDONED, replay tables and NCRO lines go. -/
def State.tearDown (s : State) (j cause : Nat) (quiet : Bool) : State :=
  if s.jobState j ≠ 2 ∧ s.jobState j ≠ 3 then s
  else
    let c := (s.job j).bound
    let id := s.regN (Reg.jobId j)
    let s := if c = 0 then s else ((s.abortWhere (fun k => k.ctx == c - 1 && k.radio.isNone)).dropRequests (c - 1)).abandonContext (c - 1)
    let s := if s.reg (Reg.jobFaultCause j) = 0 ∨ quiet then s.setReg (Reg.jobFaultCause j) cause else s
    let drop := fun (t : Table Replay) => List.filter (fun (e : Nat × Replay) => e.1 / 4096 != id) t
    let lines := fun (t : Table (List Byte)) => List.filter (fun (e : Nat × List Byte) => e.1 / 34359738368 / 4096 != id) t
    let s := { s with fabric := { s.fabric with replays := drop s.fabric.replays, ncro := lines s.fabric.ncro, shared := lines s.fabric.shared } }
    (s.setJob j { s.job j with tearAt := s.time.ticks + 1, quiet := quiet }).setReg (Reg.jobState j) 4

/-! Responses at the requester (R389). -/

/-- A failing status ends the issuing task or its job (R389). -/
def State.badStatus (s : State) (r : Request) (status : Nat) : State :=
  let fault := fun (s : State) code => match s.requestTask r with | some n => s.faultTask n code (r.packet.offset / 256) | none => s
  match status with
  | 2 => fault s 10
  | 3 => s.jobIdFault r.packet.job 3
  | 4 => fault s 13
  | 16 => s.jobIdFault r.packet.job 2
  | 17 => s.jobIdFault r.packet.job 4
  | _ => s

/-- Bytes of a LOAD arrive for a move. -/
def State.stage (s : State) (id off : Nat) (bs : List Byte) (poison : Bool) : State :=
  { s with fabric := { s.fabric with
    staged := Table.insert s.fabric.staged id ((((List.range bs.length).zip bs).foldl (fun m (e : Nat × Byte) => Table.insert m (off + e.1) e.2)) (Table.get [] s.fabric.staged id))
    tainted := if poison then id :: s.fabric.tainted else s.fabric.tainted } }

/-- The tile of a run. -/
def State.runTile (s : State) (run : Nat) : Nat := (s.taskTiles (s.task (run / 512))).getD (run % 512) 512
/-- The run's rank holds its tile, and neither a save nor a restore goes on. -/
def State.holdsRun (s : State) (run : Nat) : Bool :=
  let t := s.tile (s.runTile run)
  decide (t.task = run / 512 + 1 ∧ t.rank = run % 512 ∧ t.switching = 0)
/-- Write STATUS and, where a value comes back, OPERAND of an ATOMIC node's entry (R386); a value that would come back poisoned poisons
OPERAND (R389). While the task is off its tile its reply slot takes them (R83). -/
def State.atomicDone (s : State) (run addr status : Nat) (value : Option Nat) : State :=
  if !Table.has s.fabric.atomics run then s
  else if s.holdsRun run then
    s.updTile (s.runTile run) (fun t =>
      let bad : Bool := (status == 1 || status == 16) && !bit (natOf (t.read addr 32)) 248
      let t := t.write (addr + 30) [BitVec.ofNat 8 status]
      match value with
      | some v => t.write (addr + 8) (bytesOf 8 v)
      | none => if bad && !t.poison.contains ((addr + 8) / 8) then { t with poison := t.poison ++ [(addr + 8) / 8] } else t)
  else
    let k := s.task (run / 512)
    s.setTask (run / 512) { k with replies := k.replies ++ [(run % 512, addr, status, value)] }
/-- A request of a run is over. -/
def State.atomicOver (s : State) (run addr status : Nat) (value : Option Nat) : State := (s.atomicDone run addr status value).noteRemote (run / 512)

/-- The request with its number that a response answers: same job, node, tag and line, not yet completed. -/
def State.answered (s : State) (p : Packet) (ops : List Nat) : Option (Nat × Request) :=
  List.find? (fun (e : Nat × Request) => e.2.packet.job == p.job && e.2.packet.dst == p.src && e.2.packet.tag == p.tag
    && e.2.packet.offset / 256 == p.offset / 256 && ops.contains e.2.packet.opcode) s.fabric.requests

/-- Complete a request: it leaves the list and one that waited may go out (R400, R401). -/
def State.finishRequest (s : State) (n : Nat) : State :=
  ({ s with fabric := { s.fabric with requests := Table.erase s.fabric.requests n } }).reissue

/-- NCRO lines and quad lines that a LOAD brings are kept (R397, R399). -/
def State.keepLine (s : State) (r : Request) (shared : Bool) (data : List Byte) : State :=
  let k := remoteKey r.packet.job r.packet.dst r.packet.offset
  if r.packet.opcode = 0x28 then (if !shared then s else { s with fabric := { s.fabric with shared := Table.insert s.fabric.shared k data } })
  else if r.packet.ncro then { s with fabric := { s.fabric with ncro := Table.insert s.fabric.ncro k data } } else s

/-- The part of a response's data that the request asked for (OPERAND and COMPARE of the request as kept at the source, from its
OFFSET): GET_S and NCRO loads bring a whole line. -/
def wantedBytes (r : Request) (data : List Byte) : List Byte :=
  let skip := if r.packet.opcode = 0x28 ∨ r.packet.ncro then r.packet.offset % 256 else 0
  (data.drop (skip + r.packet.operand)).take r.packet.compare

/-- The state copy ends FAILED (R538). -/
def State.copyFailed (s : State) : State := ({ s with relia := { s.relia with copy := none } }).setReg Reg.copyStatus 17
/-- A fault of the copy for which R407 names no cause: the job faults with a free one of its four (log entry 59). -/
def State.copyFault (s : State) (j : Nat) : State := s.copyFailed.fresh.jobFault j (1 + Config.freeNat s.free % 4)
/-- Ask the rank for the copy's next bytes, up to the end of a line, as a LOAD on the job's class channel (R538). -/
def State.copyAsk (s : State) : State :=
  match s.relia.copy with
  | none => s
  | some c =>
    if c.length ≤ c.asked then s
    else
      let off := bits c.va 42 0 + c.asked
      let n := min (256 - off % 256) (c.length - c.asked)
      let s := { s with relia := { s.relia with copy := some { c with asked := c.asked + n } } }
      if s.fabric.dead.contains (s.rankNode c.job c.rank) then s.copyFailed.jobFault c.job 2
      else s.issue { blankPacket with
        opcode := 0x01, vc := requestVc (s.regN (Reg.jobClass c.job)), dst := s.rankNode c.job c.rank, job := s.regN (Reg.jobId c.job)
        len := ceilDiv (off % 4 + n) 4 - 1, offset := off - off % 4, operand := off % 4, compare := n } ((s.job c.job).bound - 1) (.copy c.asked)
/-- Bytes of the copy arrive: written at the same local VA of this chip's context of the job, and the next are asked for. -/
def State.copyData (s : State) (off : Nat) (bs : List Byte) : State :=
  match s.relia.copy with
  | none => s
  | some c => match s.writeLocal ((s.job c.job).bound - 1) (bits c.va 42 0 + off) bs with
    | none => s.copyFault c.job
    | some s' =>
      (({ s' with relia := { s'.relia with copy := some { c with written := c.written + bs.length } } }).setReg Reg.copyBytes (c.written + bs.length : Nat)).copyAsk
/-- A request of the copy came back with a failing status (R538). -/
def State.copyStatusBad (s : State) (r : Request) (st : Nat) : State :=
  match r.sink, s.relia.copy with
  | .copy _, some c => if st = 3 ∨ st = 16 ∨ st = 17 then s.copyFailed else s.copyFault c.job
  | _, _ => s

/-- DATA at the requester (R387, R389). -/
def State.gotData (s : State) (p : Packet) : State :=
  if !s.hears p then s
  else match s.answered p [0x01, 0x28] with
  | none => s
  | some (n, r) =>
    let st := p.offset % 256
    let s := (s.chargeBytes (s.jobPayer p.job) 7 (packetBytes p)).finishRequest n
    if st = 0 ∨ st = 1 then
      let s := if st = 0 then s.keepLine r p.w64 p.data else s
      match r.sink with
      | .moveLoad id off => s.stage id off (wantedBytes r p.data) (st == 1)
      | .copy off => if st = 1 then s.copyStatusBad r 1 else s.copyData off (wantedBytes r p.data)
      | _ => s
    else (s.copyStatusBad r st).badStatus r st

/-- ACK at the requester (R385). -/
def State.gotAck (s : State) (p : Packet) : State :=
  if !s.hears p then s
  else match s.answered p [0x02, 0x1A, 0x1B, 0x1C, 0x1D] with
  | none => s
  | some (n, r) => ((s.chargeBytes (s.jobPayer p.job) 7 (packetBytes p)).finishRequest n).badStatus r (p.offset % 256)

/-- What the home answered of the object behind a proxy: state in [31:0], holders above (R428; log entry 132). -/
def State.homeSeen (s : State) (i seen : Nat) : State :=
  match s.object i with
  | some o => if o.remoteJob = 0 then s else s.setObject i { o with homeState := seen % 2 ^ 32, homeHolders := seen / 2 ^ 32 }
  | none => s

/-- REPLY at the requester (R386, R387): STATUS and the old value go to the entry. -/
def State.gotReply (s : State) (p : Packet) : State :=
  if !s.hears p then s
  else match s.answered p [0x03, 0x08, 0x09, 0x0A, 0x0B, 0x0C, 0x0D, 0x0E, 0x0F, 0x10, 0x18, 0x19] with
  | none => s
  | some (n, r) =>
    let st := p.offset % 256
    let s := (s.chargeBytes (s.jobPayer p.job) 7 (packetBytes p)).finishRequest n
    let s := match r.sink with
      | .atomic run addr => s.atomicOver run addr st (if st = 0 ∧ !r.packet.noret then some p.operand else none)
      | _ => if r.packet.opcode = 0x19 then s.homeSeen (r.packet.operand / 65536 % 65536) p.operand else s
    s.badStatus r st

/-- An outstanding request completes without a response (R389, R401, R405): 16 PEER_DEAD, 17 REQUEST_LOST. -/
def State.failRequest (s : State) (n status : Nat) : State :=
  match Table.find? s.fabric.requests n with
  | none => s
  | some r =>
    let s := s.finishRequest n
    let s := match r.sink with | .atomic run addr => s.atomicOver run addr status none | _ => s
    (s.copyStatusBad r status).badStatus r status

/-- Issue a request of a task: to a node that is declared dead it completes at once with PEER_DEAD (R405). -/
def State.ask (s : State) (p : Packet) (ctx : Nat) (sink : Sink) : State :=
  let n := s.fabric.nextRequest
  let t := s.issue p ctx sink
  if s.fabric.dead.contains p.dst then t.failRequest n 16 else t

end Sys2Proof.Machine
end

