-- ==== Sys2Proof/Machine/Contained.lean ====
section
/-! DEFINITION. Errors (R517 to R520, R525 to R527): the error log, the persistent log, and the contained error that aborts a task
and leaves it for its one re-run. -/

set_option linter.unusedVariables false

namespace Sys2Proof.Machine

/-- The number of an entry (R526). -/
def LogEntry.word (e : LogEntry) : Nat :=
  e.lnc * 2 ^ 192 + e.seq % 2 ^ 32 * 2 ^ 160 + e.klass * 2 ^ 158 + e.unit * 2 ^ 152 + e.code * 2 ^ 144 + e.ptile.getD 0 * 2 ^ 135
    + e.cluster * 2 ^ 131 + e.function * 2 ^ 121 + e.partition.getD 0 * 2 ^ 115 + e.cell.getD 0 * 2 ^ 107
    + (if e.cell.isSome then 2 ^ 106 else 0) + (if e.ptile.isSome then 2 ^ 105 else 0) + (if e.partition.isSome then 2 ^ 104 else 0)
    + e.count * 2 ^ 64 + e.detail
/-- Its 32 bytes. -/
def LogEntry.bytes (e : LogEntry) : List Byte := bytesOf 32 e.word

/-- Two corrected errors that merge (R525). -/
def LogEntry.same (a b : LogEntry) : Bool := a.klass == 0 && b.klass == 0 && a.unit == b.unit && a.code == b.code && a.ptile == b.ptile && a.detail == b.detail

/-- Set the log and its depth. -/
def State.setLog (s : State) (l : List LogEntry) : State := ({ s with relia := { s.relia with log := l } }).setReg Reg.logDepth l.length

/-- Append to the persistent log, at most one entry a second (R525). -/
def State.persistLog (s : State) (e : LogEntry) : State :=
  if s.relia.plogAt ≠ 0 ∧ !s.passed (s.relia.plogAt - 1) 1000000000 then s.bump Reg.plogSkipped 1
  else
    let l := s.relia.plog ++ [e]
    let l := l.drop (l.length - 256)
    ({ s with relia := { s.relia with plog := l, plogAt := s.time.ticks + 1 } }).setBlob Reg.plog (l.flatMap LogEntry.bytes)

/-- Log an error (R518, R525): counted by class; a corrected one merges into a like entry of the last second; class 1 and above goes
to EVENT_LAST, class 2 and above also to the persistent log and to vector 0 of PF0. -/
def State.logError (s : State) (e : LogEntry) : State :=
  let e := { e with lnc := s.lnc, seq := s.relia.logSeq, tick := s.time.ticks }
  let s : State := if e.klass ≤ 2 then s.bump (Reg.errCount e.klass) 1 else s
  let s := { s with relia := { s.relia with recent := if e.klass ≤ 1 ∨ e.code = 7 then s.relia.recent ++ [(s.time.ticks, e.ptile.getD 512,
    if e.code = 7 then 2 else if e.klass = 1 ∧ (e.code = 3 ∨ e.code = 4) then 3 else e.klass)] else s.relia.recent } }
  let merge := fun (x : LogEntry) => x.same e && s.time.ticks ≤ x.tick + Config.ticksPerSecond
  if s.relia.log.any merge then s.setLog (s.relia.log.map (fun x => if merge x then { x with count := x.count + 1 } else x))
  else
    let full : Bool := 1024 ≤ s.relia.log.length
    let s := (if full then s.bump Reg.logLost 1 else s).setLog ((if full then s.relia.log.drop 1 else s.relia.log) ++ [e])
    let s := { s with relia := { s.relia with logSeq := e.seq + 1 } }
    let s : State := if 1 ≤ e.klass then s.setBlob Reg.eventLast e.bytes else s
    if 2 ≤ e.klass then (s.persistLog e).deviceEvent else s

/-- An error of a tile. -/
def State.tileError (s : State) (tile klass unit code detail : Nat) : State :=
  let t := s.tile tile
  s.logError { klass := klass, unit := unit, code := code, ptile := some tile, cluster := clusterOf tile, partition := s.partOf tile
               function := if t.task = 0 then 0x3FF else (s.task (t.task - 1)).func, detail := detail }

/-- What a failed run was charged goes to chip overhead (R519). -/
def State.uncharge (s : State) (k : Task) : State := if k.radio.isSome then s else s.moveCycles k.func overheadAccount k.klass (k.tenths / 10)

/-- A contained error of a task (R315, R518 to R520): every tile aborts and the task waits for its one re-run, with its tags to be
used again; a second one ends it with FAULT 12. -/
def State.containedTask (s : State) (n : Nat) : State :=
  if !s.hasTask n then s
  else
    let k := s.task n
    let off := (s.freeTiles n k.tiles).dropRuns n
    if k.reruns ≠ 0 then off.setTask n { k with status := .ended, fault := 12, rerunDue := false }
    else (off.uncharge k).setTask n { k with
      status := .waiting, rerunDue := true, reruns := 1, started := [], halted := [], saves := [], tenths := 0, invalid := false, saturated := false
      startLnc := 0, tags := [], replay := k.tags, remoteWait := 0, replies := [], again := [] }

/-- A contained error found on a tile: logged, and its task handled. -/
def State.containedTile (s : State) (tile unit code detail : Nat) : State :=
  let t := s.tile tile
  let s := s.tileError tile 1 unit code detail
  if t.task = 0 then s else s.containedTask (t.task - 1)

end Sys2Proof.Machine
end

