-- ==== Sys2Proof/Machine/CellBase.lean ====
section
/-! DEFINITION. What every command of radio shares: the cell events (R301), who serves a slot (R296, R322), how a slot is held (R305,
R310), and the end of a move (R324). -/

set_option linter.unusedVariables false

namespace Sys2Proof.Machine

/-! Events (R301). -/

/-- Radio partition of a cell (R18). -/
def State.radioPart (s : State) (c : Nat) : Nat := 1 + s.regN (Reg.cellCluster c)
/-- The function that owns it; its completion rings take the cell's events (log entry 38). -/
def State.cellOwner (s : State) (c : Nat) : Nat := s.regN (Reg.partOwner (s.radioPart c))
/-- Report an event of a cell for slot `n` (R301, R448). -/
def State.cellEvent (s : State) (c code n detail : Nat) : State :=
  let x := s.slotName c n
  s.writeRecord (s.cellOwner c) (s.regN (Reg.cellEventRing c))
    { rtype := 1, ctx := 0xFFFF, doneLnc := s.lnc % 4294967296
      body := code * 2 ^ 120 + c * 2 ^ 112 + x.1 * 2 ^ 102 + x.2.1 * 2 ^ 92 + x.2.2 * 2 ^ 84 + detail % 2 ^ 32 * 2 ^ 32 }
/-- Report an event now. -/
def State.cellEventNow (s : State) (c code detail : Nat) : State := s.cellEvent c code (s.slotAt c s.nowNs) detail
/-- Set CELL_STATE. -/
def State.setCellSt (s : State) (c v : Nat) : State := s.setReg (Reg.cellState c) v
/-- Command `k` of the cell has taken effect: CMD_STATUS tells it where `k` is the last one accepted (R300, R325). -/
def State.cmdDone (s : State) (c k : Nat) : State :=
  if (s.cell c).lastCmd = k ∧ s.reg (Reg.cellCmdStatus c) = 1 then s.setReg (Reg.cellCmdStatus c) 2 else s
/-- A frame boundary that a command names: of two for the same command the earlier one brings the change (log entry 126). -/
def Cell.await (x : Cell) (k t : Nat) : Cell :=
  { x with waiting := Table.insert x.waiting k (match Table.find? x.waiting k with | some u => min u t | none => t) }

/-! Who serves a slot. -/

/-- The cell is in service on this chip for slot `n`: from its start frame to its stop frame; in a move the source serves slots
before H and the target those from H on (R296, R302, R303, R321). -/
def State.serves (s : State) (c n : Nat) : Bool :=
  let x := s.cell c
  let air := s.airNs c n
  s.cellSt c != 0 && decide (x.startAt ≤ air + 1) && decide (x.lastSlot = 0 ∨ n < x.lastSlot - 1) &&
  match x.move with
  | some m => if s.cellSt c = 4 then (if m.source then decide (air < m.h) else decide (m.h ≤ air)) else true
  | none => true

/-- Why slot `n` is held beside its own faults (R297, R305, R312, R533): 1 HOLD, 4 a reset pending or its cluster under recovery (R522),
3 a cell whose units do not fit its cluster, 0 none. A boundary counts for the slots from its air time on. -/
def State.holdCause (s : State) (c n : Nat) : Nat :=
  let x := s.cell c
  let air := s.airNs c n
  let st := s.cellSt c
  let full := if x.crowded then 3 else 0
  let before : Nat → Bool := fun k => match Table.find? x.waiting k with | some t => decide (air < t) | none => false
  let from' : Nat → Bool := fun k => match Table.find? x.waiting k with | some t => decide (t ≤ air) | none => false
  if Table.has s.relia.recovering (s.regN (Reg.cellCluster c)) || before 5 then 4
  else if from' 3 then 1
  else if st = 3 ∧ x.heldBy = 3 then (if from' 5 then full else 4)
  else if st = 3 ∧ !from' 4 then 1
  else full

/-- The conductor that runs the cell (R317, R318). -/
def State.conductorOf (s : State) (c : Nat) : Nat := 2 * s.regN (Reg.cellCluster c) + s.regN (Reg.cellConductor c)
/-- The frame boundary from which a restarted conductor takes cell `c` back (R319): the first one at least 20 ms after its self-check;
none before that. -/
def State.backAt (s : State) (c core : Nat) : Option Nat :=
  let x := Table.get 0 s.radio.checks core
  if x = 0 then none else some (s.frameFrom c (50 * (x - 1) + 20000000))
/-- Core `core` of cluster `n` (8: chip control) restarts under a firmware switch (R542). -/
def State.fwRestarting (s : State) (n core : Nat) : Bool :=
  match Table.find? s.relia.switching n with | some x => x.phase == 1 && x.core == core | none => false
/-- A restarted core passes its self-check under a switch (R542). -/
def State.fwChecked (s : State) (n core : Nat) : State :=
  { s with relia := { s.relia with switching := Table.insert s.relia.switching n { core := core, phase := 2, checkAt := s.lnc } } }
/-- A conductor prepares slot `n`: its own does not hang, or takes the cell back by then (R319). -/
def State.conducted (s : State) (c n : Nat) : Bool :=
  let k := s.conductorOf c
  !s.radio.hung.contains k || (match s.backAt c k with | some t => decide (t ≤ s.airNs c n) | none => false)

/-- Forget the tasks of a slot: an aborted radio task leaves no record. -/
def State.dropSlotTasks (s : State) (c n : Nat) : State :=
  ((s.slotWork c n).tasks.filter (fun t => s.hasTask t.1 && !(s.slotWork c n).ended.contains t.1)).foldl (fun s t =>
    ({ s with radio := { s.radio with work := Table.mapVals [] s.radio.work (fun _ l => l.filter (fun e => e.1 != t.1)) } }).abortTask t.1) s

/-- Place of a cause in the table of R305, of whose rows the lowest governs: a failed re-run, missing orders, a conductor hang, HOLD or
a pending reset. -/
def holdRank (cause : Nat) : Nat := match cause with | 0 => 0 | 3 => 1 | 5 => 2 | 2 => 3 | _ => 4
/-- A single slot that is held while ON_AIR: the next 2 take NORMALISE moves (R313). -/
def State.heldOnAir (s : State) (c n : Nat) : State := if s.cellSt c = 2 then s.updCell c (fun x => { x with normTo := max x.normTo (n + 3) }) else s
/-- Hold slot `n` with a cause, unless its release point has passed or a cause lower in R305 holds it (R304, R305, R310): its tasks are
dropped. -/
def State.holdSlot (s : State) (c n cause : Nat) : State :=
  let w := s.slotWork c n
  if w.released ≠ 0 ∨ holdRank cause ≤ holdRank w.held then s
  else ((s.dropSlotTasks c n).setSlotWork c n { w with held := cause, cut := true, tasks := [], ended := [] }).heldOnAir c n

/-- Slots of a cell whose cut-off lies between two instants (R318, R524). -/
def State.cutBetween (s : State) (c lo hi : Nat) : List Nat :=
  let first := s.slotAt c (lo + s.cutLead c)
  (List.range ((hi - lo) / s.slotLen c + 3)).map (fun i => first + i) |>.filter (fun n =>
    decide (lo + s.cutLead c ≤ s.airNs c n ∧ s.airNs c n ≤ hi + s.cutLead c) && s.serves c n)

/-- Cells that are not STOPPED. -/
def State.liveCells (s : State) : List Nat := (List.map (fun (e : Nat × Cell) => e.1) s.radio.cells).filter (fun c => s.cellSt c != 0)
/-- Those of a cluster. -/
def State.clusterCells (s : State) (k : Nat) : List Nat := s.liveCells.filter (fun c => s.regN (Reg.cellCluster c) == k)

/-- Orders admitted and not served (R301, R310): ORDERS_DISCARDED names their types. -/
def State.discardOrders (s : State) (c n : Nat) : State :=
  let w := s.slotWork c n
  let d := (if w.dl.isSome then 1 else 0) + (if w.ul.isSome then 2 else 0)
  if d = 0 then s else s.cellEvent c 15 n d

/-- A cell is reset at a frame boundary (R312): held until then; a return from HOLD that waits is gone. -/
def State.resetAt (s : State) (c t : Nat) : State :=
  (s.updCell c (fun x => { x with waiting := Table.insert (Table.erase x.waiting 4) 5 t, heldBy := 3, missed := 0 })).setCellSt c 3

/-! Sizes (R274, R303). -/

/-- Hundredths of a unit that the cells of a cluster hold. -/
def State.clusterUnits (s : State) (k : Nat) : Nat := ((s.clusterCells k).map s.unitsOf).sum
/-- Tiles that a radio partition is to hold: max(2, ceil(U)), 0 with no cell (R274). -/
def radioTiles (units : Nat) : Nat := if units = 0 then 0 else max 2 (ceilDiv units 100)
/-- The radio partition of a cell's cluster may shrink 4 ms after an instant (R303). -/
def State.shrinkAfter (s : State) (c ns : Nat) : State :=
  let k := s.regN (Reg.cellCluster c)
  { s with radio := { s.radio with shrinkAt := Table.put 0 s.radio.shrinkAt k (max (Table.get 0 s.radio.shrinkAt k) (ns + 4000000 + 1)) } }

/-- Transmission ends before an instant, or before the one that a former STOP named (R303). -/
def State.lastSlotBefore (s : State) (c t : Nat) : State :=
  s.updCell c (fun x => { x with lastSlot := if x.lastSlot = 0 then s.slotAt c t + 1 else min x.lastSlot (s.slotAt c t + 1) })
/-- A cell becomes STOPPED: what it holds beside its objects goes, but for the slots whose uplink is still to be reported, with the
soft buffers and estimates that this takes (R303). -/
def State.stopCell (s : State) (c : Nat) : State :=
  let x := s.cell c
  (s.setCell c { slots := x.slots, home := x.home, soft := x.soft, softOrder := x.softOrder, spilled := x.spilled, kept := x.kept, estimates := x.estimates }).setCellSt c 0

/-! Moves (R324). -/

/-- A move ends without success: the source goes on as ON_AIR, the target stops; the event and its cause (R301). -/
def State.abortMove (s : State) (c cause : Nat) : State :=
  match (s.cell c).move with
  | none => s
  | some m =>
    let s := s.cellEventNow c 12 cause
    if m.source then (s.updCell c (fun x => { x with move := none })).setCellSt c 2
    else (s.shrinkAfter c s.nowNs).stopCell c

/-- A peer is declared dead (R297, R321, R324): a move whose H lies ahead aborts; from H on the source stops without a further copy
and its partition shrinks. -/
def State.movePeerDead (s : State) (node : Nat) : State :=
  s.liveCells.foldl (fun s c =>
    match (s.cell c).move with
    | none => s
    | some m =>
      if m.peer ≠ node then s
      else if s.nowNs < m.h then s.abortMove c 3
      else if m.source then (((s.shrinkAfter c m.h).cellEventNow c 3 0).stopCell c).updCell c (fun x => { x with quietUntil := m.h + 10000001 })
      else s) s

end Sys2Proof.Machine
end

