-- ==== Sys2Proof/Machine/Passes.lean ====
section
/-! DEFINITION. Cube and MV passes (ch. 5, R215 to R217, R596): the descriptor, its checks, the operands, and the results
computed bit for bit. -/

set_option linter.unusedVariables false

namespace Sys2Proof.Machine

/-- A pass descriptor (R215) with the fields that R216 reads differently kept as they stand. -/
structure PassDesc where
  mv : Bool
  aFmt : Nat
  bFmt : Nat
  outFmt : Nat
  arrange : Nat
  b24 : Bool
  aMap : Bool
  bMap : Bool
  aMx : Bool
  bMx : Bool
  init : Nat
  wb : Bool
  shift : Nat
  bSrc : Bool
  k : Nat
  taps : Nat
  aBase : Nat
  bBase : Nat
  outBase : Nat
  aPitch : Nat
  bPitch : Nat
  outPitch : Nat
  aScaleBase : Nat
  bScaleBase : Nat
  aScalePitch : Nat
  bScalePitch : Nat
  aMapBase : Nat
  bMapBase : Nat
  aMapPitch : Nat
  bMapPitch : Nat
  metaBase : Nat
  metaPitch : Nat
deriving DecidableEq, Repr

/-- The descriptor that 64 bytes spell (R215). -/
def passDesc (mv : Bool) (bs : List Byte) : PassDesc :=
  let n := natOf bs
  { mv := mv, aFmt := bits n 511 508, bFmt := bits n 507 504, outFmt := bits n 503 500, arrange := bits n 499 497
    b24 := bit n 496, aMap := bit n 495, bMap := bit n 494, aMx := bit n 493, bMx := bit n 492
    init := bits n 491 490, wb := bit n 489, shift := bits n 488 484, bSrc := bit n 480, k := bits n 479 464
    taps := bits n 463 448, aBase := bits n 447 416, bBase := bits n 415 384, outBase := bits n 383 352
    aPitch := bits n 351 336 * 64, bPitch := bits n 335 320 * 64, outPitch := bits n 319 304 * 64
    aScaleBase := bits n 303 272, bScaleBase := bits n 271 240, aScalePitch := bits n 239 224
    bScalePitch := bits n 223 208, aMapBase := bits n 207 176, bMapBase := bits n 175 144
    aMapPitch := bits n 143 128, bMapPitch := bits n 127 112, metaBase := bits n 111 80, metaPitch := bits n 79 64 }

/-- k_step: 16, 8, 4, 4 on the cubes (R137), 32 or 64 on the MV path (R134). -/
def PassDesc.kStep (d : PassDesc) : Nat :=
  if d.mv then (if fmtBits d.aFmt = 4 then 64 else 32)
  else match fmtBits d.aFmt with | 4 => 16 | 8 => 8 | _ => 4
/-- Accumulator type (R137): 0 FP32, 1 INT32, 2 complex. -/
def PassDesc.kind (d : PassDesc) : Nat :=
  if d.aFmt = 8 then 2 else if d.aFmt = 7 then 1 else if d.aFmt = 6 && !d.aMx && !d.bMx then 1 else 0
/-- A RELAY pass (R145). -/
def PassDesc.relay (d : PassDesc) : Bool := !d.mv && d.arrange == 4
/-- M and N of one cube (R137). -/
def PassDesc.edge (d : PassDesc) : Nat := if d.aFmt = 8 then 4 else 8
/-- Rows and columns of the output block (R140, R145, R596): of an MV pass b vectors by N weight rows. -/
def PassDesc.rows (d : PassDesc) : Nat :=
  if d.mv then d.arrange + 1
  else d.edge * (match d.arrange with | 0 => 1 | 1 => 2 | 2 => 4 | _ => 8)
/-- Columns of the output block. -/
def PassDesc.cols (d : PassDesc) : Nat :=
  if d.mv then d.taps
  else d.edge * (match d.arrange with | 0 => 8 | 1 => 4 | 2 => 2 | _ => 1)
/-- Rows of A that the pass reads (R147). -/
def PassDesc.aRows (d : PassDesc) : Nat := if d.relay then d.rows + d.taps - 1 else d.rows
/-- Chunks per tap, C of R147. -/
def PassDesc.chunks (d : PassDesc) : Nat := ceilDiv d.k d.kStep
/-- Reduction indices of a column of B: taps of C chunks in RELAY, tap-major (R147), the last chunk cut at K. -/
def PassDesc.bLen (d : PassDesc) : Nat := if d.relay then (d.taps - 1) * (d.chunks * d.kStep) + d.k else d.k
/-- Bytes of `n` elements of a format. -/
def fmtBytes (fmt n : Nat) : Nat := (n * fmtBits fmt + 7) / 8
/-- Bytes of a row of A. -/
def PassDesc.aRowBytes (d : PassDesc) : Nat := fmtBytes d.aFmt d.k
/-- Bytes of a column of B as stored (R149: two kept elements a group of four). -/
def PassDesc.bColBytes (d : PassDesc) : Nat := if d.b24 then fmtBytes d.bFmt (2 * ceilDiv d.bLen 4) else fmtBytes d.bFmt d.bLen
/-- Bytes of one accumulator element at INIT 2 (R596), and of one output element under WB. -/
def PassDesc.accBytes (d : PassDesc) : Nat := if d.kind = 2 then 16 else 4
/-- Bytes of one row of the output block as written. -/
def PassDesc.outRowBytes (d : PassDesc) : Nat := fmtBytes d.outFmt d.cols

/-- Formats of R118: equal formats, or the two FP8 formats mixed. -/
def formatsMatch (a b : Nat) : Bool := a == b || ((a == 3 || a == 4) && (b == 3 || b == 4))
/-- Formats that take MX scales (R110, R217). -/
def mxFormat (f : Nat) : Bool := f == 3 || f == 4 || f == 5 || f == 6

/-- The byte ranges a pass reads or writes: base, pitch, rows, bytes of a row. -/
def PassDesc.ranges (d : PassDesc) : List (Nat × Nat × Nat × Nat) :=
  [(d.aBase, d.aPitch, d.aRows, d.aRowBytes)]
  ++ (if d.bSrc then [] else [(d.bBase, d.bPitch, d.cols, d.bColBytes)])
  ++ (if d.aMx then [(d.aScaleBase, d.aScalePitch, d.aRows, ceilDiv d.k 32)] else [])
  ++ (if d.bMx then [(d.bScaleBase, d.bScalePitch, d.cols, ceilDiv d.bLen 32)] else [])
  ++ (if d.aMap then [(d.aMapBase, d.aMapPitch, ceilDiv d.aRows 8, ceilDiv (ceilDiv d.k 8) 8)] else [])
  ++ (if d.bMap then [(d.bMapBase, d.bMapPitch, ceilDiv d.cols 8, ceilDiv (ceilDiv d.bLen 8) 8)] else [])
  ++ (if d.b24 then [(d.metaBase, d.metaPitch, d.cols, ceilDiv (ceilDiv d.bLen 4) 2)] else [])
  ++ (if d.init = 2 then [(d.outBase, d.outPitch, d.rows, d.cols * d.accBytes)] else [])
  ++ (if d.wb then [(d.outBase, d.outPitch, d.rows, d.outRowBytes)] else [])

/-- The checks of R217 and R596, given the accumulators of the task's previous pass: true is DESCRIPTOR_INVALID. -/
def PassDesc.invalid (d : PassDesc) (prev : Option Accum) : Bool :=
  -- formats (R118), and formats the unit has (R156, R216)
  !formatsMatch d.aFmt d.bFmt || d.aFmt == 0 || d.aFmt ≥ 9 || d.bFmt == 0 || d.bFmt ≥ 9
  || (d.mv && !(3 ≤ d.aFmt && d.aFmt ≤ 7))
  || (d.aMx && !mxFormat d.aFmt) || (d.bMx && !mxFormat d.bFmt)
  || (d.b24 && (d.aFmt == 8 || d.mv))
  || ((d.aMap || d.bMap) && (d.aFmt == 8 || d.mv)) || (d.aMap && d.relay)
  -- bases and pitches (R141)
  || d.aBase % 64 != 0 || (!d.bSrc && d.bBase % 64 != 0) || d.outBase % 64 != 0
  || (d.relay && (d.chunks == 0 || d.chunks > 4))
  || (if d.mv then d.arrange ≥ 4 else d.arrange ≥ 5) || d.init == 3
  || d.k == 0
  || (!d.mv && (if d.arrange == 4 then (d.taps == 0 || d.taps > 4096) else d.taps != 0))
  || d.outFmt ≥ 9 || ((d.outFmt == 8) != (d.aFmt == 8))
  || (d.init == 1 && (match prev with | some p => p.arrange != d.arrange || p.kind != d.kind | none => false))
  || (d.aMx && d.aScalePitch < ceilDiv d.k 32) || (d.bMx && d.bScalePitch < ceilDiv d.k 32)
  || (d.aMap && 8 * d.aMapPitch < ceilDiv d.k 8) || (d.bMap && 8 * d.bMapPitch < ceilDiv d.k 8)
  || (d.b24 && (d.metaPitch % 8 != 0 || d.metaPitch < ceilDiv d.k 8))
  || d.aPitch < d.aRowBytes || (!d.bSrc && d.bPitch < d.bColBytes)
  || (d.init == 2 && d.outPitch < d.cols * d.accBytes) || (d.wb && d.outPitch < d.outRowBytes)
  || d.ranges.any (fun r => decide (sramBytes < r.1 + (r.2.2.1 - 1) * r.2.1 + r.2.2.2))
  || (d.mv && (d.taps == 0 || d.taps > 256 / (d.arrange + 1) || d.shift != 0 || fmtBytes d.aFmt d.k * (d.arrange + 1) > 32768))

/-- Every range lies in pages of context `c` (R217: else the instruction faults VS_ACCESS). -/
def PassDesc.owned (d : PassDesc) (t : Tile) (c : Nat) : Bool :=
  d.ranges.all (fun r => (List.range r.2.2.1).all (fun i => t.ownsRange c (r.1 + i * r.2.1) r.2.2.2))

/-! Operands. -/

/-- Stream bytes that the unit has taken for its pass. -/
def PassDesc.fedOf (d : PassDesc) (t : Tile) : List Byte := if d.mv then t.live.fedMv else t.live.fed
/-- One byte of the B operand: tile SRAM, or the stream, whose columns follow one another without gaps (log entry 150). -/
def PassDesc.bByte (d : PassDesc) (t : Tile) (col i : Nat) : Nat :=
  if d.bSrc then ((d.fedOf t).getD (col * d.bColBytes + i) 0).toNat
  else (t.byte (d.bBase + col * d.bPitch + i)).toNat

/-- Element `i` of a row of bytes: 4-bit elements share a byte, low first (R109). -/
def elemOf (fmt : Nat) (byte : Nat → Nat) (i : Nat) : Nat :=
  match fmtBits fmt with
  | 4 => if i % 2 = 0 then byte (i / 2) % 16 else byte (i / 2) / 16
  | 8 => byte i
  | 16 => byte (2 * i) + 256 * byte (2 * i + 1)
  | _ => byte (4 * i) + 256 * byte (4 * i + 1) + 65536 * byte (4 * i + 2) + 16777216 * byte (4 * i + 3)

/-- Whether a zero-block map keeps the element (R152, R153). -/
def mapBit (t : Tile) (base pitch row k : Nat) : Bool :=
  let i := row / 8 * (8 * pitch) + k / 8
  bit (t.byte (base + i / 8)).toNat (i % 8)

/-- Map blocks of 8 reduction indices of a row or column of `len` indices, as (first index, indices) of those that are read (R153). -/
def readBlocks (t : Tile) (mapped : Bool) (base pitch row len : Nat) : List (Nat × Nat) :=
  ((List.range (ceilDiv len 8)).filter (fun j => !mapped || mapBit t base pitch row (8 * j))).map (fun j => (8 * j, min 8 (len - 8 * j)))
/-- The byte ranges of an operand that the pass reads, one line of it: data, scales (one byte per 32 indices), metadata of a 2:4 column; a
block whose map bit is 0 is not read (R153). -/
def lineReads (t : Tile) (blocks : List (Nat × Nat)) (fmt addr : Nat) (half mx : Bool) (scale meta' : Nat) : List (Nat × Nat) :=
  blocks.flatMap (fun b =>
    (if half then [(addr + fmtBytes fmt (b.1 / 2), fmtBytes fmt (2 * ceilDiv b.2 4)), (meta' + b.1 / 8, 1)]
     else [(addr + fmtBytes fmt b.1, fmtBytes fmt b.2)]) ++ (if mx then [(scale + b.1 / 32, 1)] else []))
/-- Every byte range that the pass reads. -/
def PassDesc.reads (d : PassDesc) (t : Tile) : List (Nat × Nat) :=
  (List.range d.aRows).flatMap (fun r => lineReads t (readBlocks t d.aMap d.aMapBase d.aMapPitch r d.k) d.aFmt (d.aBase + r * d.aPitch) false d.aMx
      (d.aScaleBase + r * d.aScalePitch) 0)
  ++ (List.range d.cols).flatMap (fun c =>
      (lineReads t (readBlocks t d.bMap d.bMapBase d.bMapPitch c d.bLen) d.bFmt (d.bBase + c * d.bPitch) d.b24 d.bMx
        (d.bScaleBase + c * d.bScalePitch) (d.metaBase + c * d.metaPitch)).filter (fun e => !d.bSrc || decide (e.1 < d.bBase ∨ d.bBase + d.cols * d.bPitch ≤ e.1)))
  ++ (if d.aMap then (List.range (ceilDiv d.aRows 8)).map (fun i => (d.aMapBase + i * d.aMapPitch, ceilDiv (ceilDiv d.k 8) 8)) else [])
  ++ (if d.bMap then (List.range (ceilDiv d.cols 8)).map (fun i => (d.bMapBase + i * d.bMapPitch, ceilDiv (ceilDiv d.bLen 8) 8)) else [])
  ++ (if d.init = 2 then (List.range d.rows).map (fun r => (d.outBase + r * d.outPitch, d.cols * d.accBytes)) else [])
/-- A poisoned word lies among the bytes that the pass reads (R153, R369). -/
def PassDesc.poisoned (d : PassDesc) (t : Tile) : Bool := !t.poison.isEmpty && (d.reads t).any (fun e => t.poisoned e.1 e.2)

/-- Raw element of A at row `r`, index `k` (R141, R153). -/
def PassDesc.aRaw (d : PassDesc) (t : Tile) (r k : Nat) : Nat :=
  if d.aMap && !mapBit t d.aMapBase d.aMapPitch r k then 0
  else elemOf d.aFmt (fun i => (t.byte (d.aBase + r * d.aPitch + i)).toNat) k

/-- Raw element of B at column `c`, reduction index `k`: 2:4 columns expand to dense form (R149, R150, R153). -/
def PassDesc.bRaw (d : PassDesc) (t : Tile) (c k : Nat) : Nat :=
  if d.bMap && !mapBit t d.bMapBase d.bMapPitch c k then 0
  else if !d.b24 then elemOf d.bFmt (d.bByte t c) k
  else
    let g := k / 4
    let m := (t.byte (d.metaBase + c * d.metaPitch + g / 2)).toNat / (if g % 2 = 0 then 1 else 16) % 16
    if m / 4 = k % 4 then elemOf d.bFmt (d.bByte t c) (2 * g + 1)
    else if m % 4 = k % 4 then elemOf d.bFmt (d.bByte t c) (2 * g)
    else 0

/-- Value of an element of A with its scale (R111, R142). -/
def PassDesc.aVal (d : PassDesc) (t : Tile) (r k : Nat) : Num :=
  let x := decodeElem d.aFmt d.aMx (d.aRaw t r k)
  if d.aMx then scaledElem x (t.byte (d.aScaleBase + r * d.aScalePitch + k / 32)).toNat else x
/-- Value of an element of B with its scale. -/
def PassDesc.bVal (d : PassDesc) (t : Tile) (c k : Nat) : Num :=
  let x := decodeElem d.bFmt d.bMx (d.bRaw t c k)
  if d.bMx then scaledElem x (t.byte (d.bScaleBase + c * d.bScalePitch + k / 32)).toNat else x

/-- The steps of one output, in order: the row of A, and for each product the index in that row and in the column of B
(R123, R145, R147). A tap of B is padded to C × k_step elements where K is no multiple of k_step, which the spec leaves open (DESIGN
CHOICE, log entry 151). -/
def PassDesc.steps (d : PassDesc) (row : Nat) : List (Nat × List (Nat × Nat)) :=
  let per := d.chunks
  (List.range (if d.relay then d.taps * per else per)).map (fun s =>
    let tap := if d.relay then s / per else 0
    let ch := if d.relay then s % per else s
    (row + tap, ((List.range d.kStep).map (fun i => ch * d.kStep + i)).filterMap (fun k =>
      if k < d.k then some (k, tap * (per * d.kStep) + k) else none)))

/-! Results. -/

/-- One output with FP32 accumulation over some steps (R120, R121): code and flags. -/
def PassDesc.fpOver (d : PassDesc) (t : Tile) (steps : List (Nat × List (Nat × Nat))) (col init : Nat) : Res :=
  steps.foldl (fun (a : Res) st =>
    let e := exactSum (st.2.map (fun k => (d.aVal t st.1 k.1).cubeMul (d.bVal t col k.2)))
    let r := accumFp32 a.code e.1
    { code := r.code, invalid := a.invalid || e.2 || r.invalid, saturated := a.saturated || r.saturated }) { code := init }

/-- One output with FP32 accumulation. -/
def PassDesc.outFp (d : PassDesc) (t : Tile) (row col init : Nat) : Res := d.fpOver t (d.steps row) col init

/-- One output with INT32 accumulation over some steps (R122). -/
def PassDesc.intOver (d : PassDesc) (t : Tile) (steps : List (Nat × List (Nat × Nat))) (col : Nat) (init : Int) : Int × Bool :=
  steps.foldl (fun (a : Int × Bool) st =>
    let w := fmtBits d.aFmt
    let e := (st.2.map (fun k => signed w (d.aRaw t st.1 k.1) * signed w (d.bRaw t col k.2))).foldl (· + ·) 0
    let r := accumInt32 a.1 e
    (r.1, a.2 || r.2)) (init, false)

/-- One output with INT32 accumulation. -/
def PassDesc.outInt (d : PassDesc) (t : Tile) (row col : Nat) (init : Int) : Int × Bool := d.intOver t (d.steps row) col init

/-- One complex output: real and imaginary accumulators in Q18.30 (R125). -/
def PassDesc.outCplx (d : PassDesc) (t : Tile) (row col : Nat) (init : Int × Int) : Int × Int × Bool :=
  (d.steps row).foldl (fun (a : Int × Int × Bool) st =>
    let e := (st.2.map (fun k =>
      let x := d.aRaw t st.1 k.1
      let y := d.bRaw t col k.2
      let xr := signed 16 x; let xi := signed 16 (x / 65536); let yr := signed 16 y; let yi := signed 16 (y / 65536)
      (xr * yr - xi * yi, xr * yi + xi * yr))).foldl (fun (p : Int × Int) q => (p.1 + q.1, p.2 + q.2)) (0, 0)
    let r := accumQ48 a.1 e.1
    let i := accumQ48 a.2.1 e.2
    (r.1, i.1, a.2.2 || r.2 || i.2)) (init.1, init.2, false)

/-- The initial values by output position, row order; two per complex output (R215 INIT, R596). -/
def PassDesc.initVals (d : PassDesc) (t : Tile) (prev : Option Accum) : List Int :=
  let n := d.rows * d.cols
  match d.init, prev with
  | 1, some p => (List.range n).flatMap (fun i =>
      let j := i / d.cols * p.cols + i % d.cols
      if d.kind = 2 then [p.vals.getD (2 * j) 0, p.vals.getD (2 * j + 1) 0]
      else if i % d.cols < p.cols then [p.vals.getD j 0]
      else
        -- a row that the previous MV pass did not have: its accumulator is not stated (log entry 146)
        let w := (Config.staleAcc i).toNat
        [if d.kind = 1 then signed 32 w else if w = 0x80000000 then 0 else w])
  | 2, _ => (List.range n).flatMap (fun i =>
      let a := d.outBase + i / d.cols * d.outPitch
      if d.kind = 2 then [signed 48 (natOf (t.read (a + 16 * (i % d.cols)) 8)), signed 48 (natOf (t.read (a + 16 * (i % d.cols) + 8) 8))]
      else
        let w := natOf (t.read (a + 4 * (i % d.cols)) 4)
        [if d.kind = 1 then signed 32 w else if w = 0x80000000 then 0 else w])
  | _, _ => List.replicate (if d.kind = 2 then 2 * n else n) 0

/-- The accumulators after a pass, and its flags (R123, R143). -/
def PassDesc.compute (d : PassDesc) (t : Tile) (prev : Option Accum) : Accum × Bool × Bool :=
  let init := d.initVals t prev
  -- an MV pass takes vector v as row v of A and weight row i as column i of B (R216)
  let l : List (List Int × Bool × Bool) := (List.range (d.rows * d.cols)).map (fun i =>
    let r := i / d.cols
    let c := i % d.cols
    match d.kind with
    | 0 => let x := d.outFp t r c (init.getD i 0).toNat; ([(x.code : Int)], x.invalid, x.saturated)
    | 1 => let x := d.outInt t r c (init.getD i 0); ([x.1], false, x.2)
    | _ => let x := d.outCplx t r c (init.getD (2 * i) 0, init.getD (2 * i + 1) 0); ([x.1, x.2.1], false, x.2.2))
  ({ arrange := d.arrange, kind := d.kind, cols := d.cols, vals := l.flatMap (fun e => e.1) }, l.any (fun e => e.2.1), l.any (fun e => e.2.2))

/-- The narrowed outputs in row order under WB, and their flags (R114 to R116, R126). -/
def PassDesc.outputs (d : PassDesc) (acc : Accum) : List Res :=
  (List.range (d.rows * d.cols)).map (fun i =>
    match d.kind with
    | 0 => narrowFp32 d.outFmt (acc.vals.getD i 0).toNat
    | 1 => narrowInt32 d.outFmt (acc.vals.getD i 0)
    | _ =>
      let r := narrowQ30 (acc.vals.getD (2 * i) 0) d.shift
      let q := narrowQ30 (acc.vals.getD (2 * i + 1) 0) d.shift
      { code := unsigned 16 r.1 + 65536 * unsigned 16 q.1, saturated := r.2 || q.2 })

/-- Bytes of one output row. -/
def packRow (fmt : Nat) (codes : List Nat) : List Byte := bytesOf (fmtBytes fmt codes.length) (packNat (fmtBits fmt) codes)

/-- Write the output block (R596). -/
def PassDesc.writeBack (d : PassDesc) (t : Tile) (codes : List Nat) : Tile :=
  (List.range d.rows).foldl (fun t' r =>
    t'.write (d.outBase + r * d.outPitch) (packRow d.outFmt ((codes.drop (r * d.cols)).take d.cols))) t

/-- Bytes of the whole B operand of a pass. -/
def PassDesc.bBytes (d : PassDesc) : Nat := d.cols * d.bColBytes
/-- Whether a pass that takes B from the stream port has all of it (R144, R159). -/
def PassDesc.streamed (d : PassDesc) (t : Tile) : Bool := !d.bSrc || decide (d.bBytes ≤ (d.fedOf t).length)
/-- A pass that takes B from the stream port and still lacks bytes takes the waves of the stage that are its own, in order: their halves are
free to be filled again (R139, R144). -/
def PassDesc.feed (d : PassDesc) (t : Tile) (own : Staged → Bool) : Tile :=
  if d.streamed t then t
  else if d.mv then { t with live := { t.live with fedMv := t.live.fedMv ++ (t.streamMv.filter own).flatMap (fun e => e.data) }, streamMv := t.streamMv.filter (fun e => !own e) }
  else { t with live := { t.live with fed := t.live.fed ++ (t.streamB.filter own).flatMap (fun e => e.data) }, streamB := t.streamB.filter (fun e => !own e) }
/-- The stream bytes of a pass that has ended are gone. -/
def PassDesc.used (d : PassDesc) (t : Tile) : Tile :=
  if !d.bSrc then t
  else if d.mv then { t with live := { t.live with fedMv := t.live.fedMv.drop d.bBytes } }
  else { t with live := { t.live with fed := t.live.fed.drop d.bBytes } }

/-- A pass runs to its end on tile `t`: accumulators, flags, write-back (R143, R189). -/
def PassDesc.finish (d : PassDesc) (t : Tile) : Tile :=
  let prev := if d.mv then t.live.mvAcc else t.live.acc
  let r := d.compute t prev
  let o := if d.wb then d.outputs r.1 else []
  let t' := if d.wb then d.writeBack t (o.map (fun x => x.code)) else t
  let vs := t'.live.vs.flag (r.2.1 || anyInvalid o) (r.2.2 || anySaturated o)
  d.used { t' with live := if d.mv then { t'.live with vs := vs, mvAcc := some r.1 } else { t'.live with vs := vs, acc := some r.1 } }

end Sys2Proof.Machine
end

