-- ==== Sys2Proof/Machine/VsControl.lean ====
section
/-! DEFINITION. C-class instructions (R188, R192, R193): one meaning each. -/

set_option linter.unusedVariables false

namespace Sys2Proof.Machine

/-- BR: branch to PC + IMM32 after two delay slots (R192). -/
def execBr (tile : Nat) (f : CFields) (s : State) : Out :=
  .next (vsRun s tile (cCode 0x01 f) (vsControl (fun t => t.branch (relTarget t.live.vs f.imm32))))
/-- BEQZ (R188, R192). -/
def execBeqz (tile : Nat) (f : CFields) (s : State) : Out :=
  .next (vsRun s tile (cCode 0x02 f) (vsControl (fun t => t.branch (if t.live.vs.getS f.sa = 0 then relTarget t.live.vs f.imm32 else t.live.vs.pc + 3))))
/-- BNEZ (R188, R192). -/
def execBnez (tile : Nat) (f : CFields) (s : State) : Out :=
  .next (vsRun s tile (cCode 0x03 f) (vsControl (fun t => t.branch (if t.live.vs.getS f.sa ≠ 0 then relTarget t.live.vs f.imm32 else t.live.vs.pc + 3))))
/-- BLTZ, signed (R188, R192). -/
def execBltz (tile : Nat) (f : CFields) (s : State) : Out :=
  .next (vsRun s tile (cCode 0x04 f) (vsControl (fun t => t.branch (if (t.live.vs.getS f.sa).toInt < 0 then relTarget t.live.vs f.imm32 else t.live.vs.pc + 3))))
/-- JAL: S[SD] = PC + 3, branch to PC + IMM32 (R188, R192). -/
def execJal (tile : Nat) (f : CFields) (s : State) : Out :=
  .next (vsRun s tile (cCode 0x05 f) (vsControl (fun t => ({ t with live := { t.live with vs := t.live.vs.setS f.sd (BitVec.ofNat 64 (t.live.vs.pc + 3)) } }).branch (relTarget t.live.vs f.imm32))))
/-- JR: branch to S[SA][15:0]; a target outside the code faults when it is reached (R188, R598). -/
def execJr (tile : Nat) (f : CFields) (s : State) : Out :=
  .next (vsRun s tile (cCode 0x06 f) (vsControl (fun t => t.branch ((t.live.vs.getS f.sa).toNat % 65536))))
/-- REPEAT: the next BODY + 1 instructions IMM32[15:0] times (R193). -/
def execVsRepeat (tile : Nat) (f : CFields) (s : State) : Out :=
  .next (vsRun s tile (cCode 0x08 f) (vsRepeatOp (f.body + 1) (f.imm32 % 65536) f.yield))
/-- REPEATS: as REPEAT with count S[SA][15:0] (R193). -/
def execRepeats (tile : Nat) (f : CFields) (s : State) : Out :=
  .next (vsRun s tile (cCode 0x09 f) (fun t => vsRepeatOp (f.body + 1) ((t.live.vs.getS f.sa).toNat % 65536) f.yield t))
/-- SADD, modulo 2⁶⁴ (R181, R188). -/
def execSadd (tile : Nat) (f : CFields) (s : State) : Out :=
  .next (vsRun s tile (cCode 0x10 f) (vsRegs (fun x => x.setS f.sd (x.getS f.sa + x.getS f.sb))))
/-- SSUB (R188). -/
def execSsub (tile : Nat) (f : CFields) (s : State) : Out :=
  .next (vsRun s tile (cCode 0x11 f) (vsRegs (fun x => x.setS f.sd (x.getS f.sa - x.getS f.sb))))
/-- SMUL (R188). -/
def execSmul (tile : Nat) (f : CFields) (s : State) : Out :=
  .next (vsRun s tile (cCode 0x12 f) (vsRegs (fun x => x.setS f.sd (x.getS f.sa * x.getS f.sb))))
/-- SAND (R188). -/
def execSand (tile : Nat) (f : CFields) (s : State) : Out :=
  .next (vsRun s tile (cCode 0x13 f) (vsRegs (fun x => x.setS f.sd (x.getS f.sa &&& x.getS f.sb))))
/-- SOR (R188). -/
def execSor (tile : Nat) (f : CFields) (s : State) : Out :=
  .next (vsRun s tile (cCode 0x14 f) (vsRegs (fun x => x.setS f.sd (x.getS f.sa ||| x.getS f.sb))))
/-- SXOR (R188). -/
def execSxor (tile : Nat) (f : CFields) (s : State) : Out :=
  .next (vsRun s tile (cCode 0x15 f) (vsRegs (fun x => x.setS f.sd (x.getS f.sa ^^^ x.getS f.sb))))
/-- SSHL by S[SB][5:0] (R188). -/
def execSshl (tile : Nat) (f : CFields) (s : State) : Out :=
  .next (vsRun s tile (cCode 0x16 f) (vsRegs (fun x => x.setS f.sd (x.getS f.sa <<< ((x.getS f.sb).toNat % 64)))))
/-- SSRA, arithmetic (R188). -/
def execSsra (tile : Nat) (f : CFields) (s : State) : Out :=
  .next (vsRun s tile (cCode 0x17 f) (vsRegs (fun x => x.setS f.sd ((x.getS f.sa).sshiftRight ((x.getS f.sb).toNat % 64)))))
/-- SSLT: 1 or 0, signed (R188). -/
def execSslt (tile : Nat) (f : CFields) (s : State) : Out :=
  .next (vsRun s tile (cCode 0x18 f) (vsRegs (fun x => x.setS f.sd (if (x.getS f.sa).slt (x.getS f.sb) then 1 else 0))))
/-- SADDI: S[SA] + sign-extended IMM32 (R188). -/
def execSaddi (tile : Nat) (f : CFields) (s : State) : Out :=
  .next (vsRun s tile (cCode 0x19 f) (vsRegs (fun x => x.setS f.sd (x.getS f.sa + BitVec.ofInt 64 (signed 32 f.imm32)))))
/-- RDFLG: the sticky flags (R117, R188). -/
def execRdflg (tile : Nat) (f : CFields) (s : State) : Out :=
  .next (vsRun s tile (cCode 0x20 f) (vsRegs (fun x => x.setS f.sd (BitVec.ofNat 64 x.flagWord))))
/-- RDLNC: the present LNC (R188). -/
def execRdlnc (tile : Nat) (f : CFields) (s : State) : Out :=
  .next (vsRun s tile (cCode 0x21 f) (vsRegs (fun x => x.setS f.sd (BitVec.ofNat 64 s.lnc))))
/-- RDCYC: the 48-bit tile cycle counter of R52 (R188). -/
def execRdcyc (tile : Nat) (f : CFields) (s : State) : Out :=
  .next (vsRun s tile (cCode 0x22 f) (vsRegs (fun x => x.setS f.sd (BitVec.ofNat 64 ((s.tile tile).tenths / 10 % 281474976710656)))))

/-- HALT waits until every issued X operation is complete, then its rank has ended (R188). -/
def vsHalt (t : Tile) : Tile :=
  if t.live.pass.isNone && t.live.mv.isNone && t.live.moves.isEmpty then t.pause .halted else t.pause .halt

/-- A rank that has ended: its flags join the task's; when every rank has ended the task has (R416). -/
def State.rankEnd (s : State) (n : Nat) : State :=
  let t := s.tile n
  if t.wait == .halted && decide (t.task ≠ 0) then
    let k := s.task (t.task - 1)
    let h := if k.halted.contains t.rank then k.halted else t.rank :: k.halted
    let k' := { k with halted := h, invalid := k.invalid || t.live.vs.invalid, saturated := k.saturated || t.live.vs.saturated,
                       status := if h.length = k.vcount then TaskStatus.ended else k.status }
    let s' := s.setTask (t.task - 1) k'
    if h.length = k.vcount then s'.freeTiles (t.task - 1) k.tiles else s'
  else s

/-- HALT (R188, R192, R193). -/
def execHalt (tile : Nat) (f : CFields) (s : State) : Out :=
  .next (if s.vsReady tile && s.fetches tile (cCode 0x3F f) then (vsRun s tile (cCode 0x3F f) (vsControl vsHalt)).rankEnd tile else s)

end Sys2Proof.Machine
end

