-- ==== Sys2Proof/Machine/Issue.lean ====
section
/-! DEFINITION. X-class instructions and what ends them (R166, R167, R188 to R191, R197, R215 to R218): issue to the cubes, the
MV path and the move unit, local sync channels, pass completion, the preemption bound. -/

set_option linter.unusedVariables false

namespace Sys2Proof.Machine

/-! Move commands (R218). -/

/-- A move command (R218). -/
structure MoveCmd where
  mode : Nat
  width : Nat
  srcVa : Bool
  dstVa : Bool
  rb : Nat
  length : Nat
  src : Nat
  dst : Nat
deriving DecidableEq, Repr

/-- The command that 32 bytes spell (R218). -/
def moveCmd (bs : List Byte) : MoveCmd :=
  let n := natOf bs
  { mode := bits n 255 252, width := bits n 251 249, srcVa := bit n 248, dstVa := bit n 247, rb := bits n 239 224
    length := bits n 223 192, src := bits n 191 128, dst := bits n 127 64 }

/-- Whether the mode is a BFP mode. -/
def MoveCmd.bfp (m : MoveCmd) : Bool := m.mode == 3 || m.mode == 4
/-- Mantissa width of a BFP mode. -/
def MoveCmd.w (m : MoveCmd) : Nat := (bfpWidth m.width).getD 8
/-- Bytes read. -/
def MoveCmd.srcBytes (m : MoveCmd) : Nat :=
  match m.mode with | 1 => 0 | 3 => m.rb * bfpBytes m.w | 4 => m.rb * 56 | _ => m.length
/-- Bytes written. -/
def MoveCmd.dstBytes (m : MoveCmd) : Nat :=
  match m.mode with | 3 => m.rb * 56 | 4 => m.rb * bfpBytes m.w | _ => m.length
/-- R218: true is DESCRIPTOR_INVALID. -/
def MoveCmd.invalid (m : MoveCmd) : Bool :=
  m.mode > 4 || (m.bfp && m.width > 4) || (!m.bfp && (m.width != 0 || m.rb != 0)) || (m.bfp && m.length != 0)
  || (m.mode == 1 && (m.srcVa || m.dstVa || m.src != 0))
  || (m.mode != 1 && !m.srcVa && decide (sramBytes < m.src + m.srcBytes))
  || (!m.dstVa && decide (sramBytes < m.dst + m.dstBytes))
/-- The stretches of tile SRAM under `n` bytes of a context's VA range: tile, address, length, cut at units of 64 KiB (R357). -/
def State.stretches (s : State) (fuel ctx va n : Nat) (rd : Bool) : List (Nat × Nat × Nat) :=
  match fuel with
  | 0 => []
  | fuel + 1 =>
    if n = 0 then []
    else
      let k := min n (65536 - va % 65536)
      let rest := s.stretches fuel ctx (va + k) (n - k) rd
      match s.translate ctx va rd (!rd) with | .tile p a => (p, a, k) :: rest | _ => rest
/-- R167 with ends that a VA leads to: both touch the same bytes of one tile's SRAM. -/
def State.moveOverlaps (s : State) (tile ctx : Nat) (m : MoveCmd) : Bool :=
  let src := if m.mode = 1 then [] else if m.srcVa then s.stretches (m.srcBytes / 65536 + 2) ctx m.src m.srcBytes true else [(tile, m.src, m.srcBytes)]
  let dst := if m.dstVa then s.stretches (m.dstBytes / 65536 + 2) ctx m.dst m.dstBytes false else [(tile, m.dst, m.dstBytes)]
  src.any (fun a => dst.any (fun b => a.1 == b.1 && decide (a.2.1 < b.2.1 + b.2.2 ∧ b.2.1 < a.2.1 + a.2.2)))
/-- The tile-local ranges lie in pages of context `c` (R218). -/
def MoveCmd.owned (m : MoveCmd) (t : Tile) (c : Nat) : Bool :=
  (m.mode == 1 || m.srcVa || t.ownsRange c m.src m.srcBytes) && (m.dstVa || t.ownsRange c m.dst m.dstBytes)

/-! Issue. Kinds: 0 cube pass, 1 MV pass, 2 move. -/

/-- The unit can take an operation (R190). -/
def Tile.unitFree (t : Tile) (kind : Nat) : Bool :=
  match kind with | 0 => t.live.pass.isNone | 1 => t.live.mv.isNone | _ => decide (t.live.moves.length < 8)

/-- Hand an operation to its unit, or fault (R167, R189, R217, R218; 8 DESCRIPTOR_INVALID, 9 MOVE_OVERLAP, 6 VS_ACCESS).
`tick` marks cube activity (R91); `meets` tells a move whose ends overlap. -/
def Tile.start (t : Tile) (kind addr sync tick : Nat) (meets : MoveCmd → Bool) : Except Nat Tile :=
  let d := t.read addr (if kind = 2 then 32 else 64)
  let op : XOp := { desc := d, sync := sync, ctx := t.ctx }
  match kind with
  | 2 =>
    let m := moveCmd d
    if m.invalid then .error 8 else if meets m then .error 9 else if !m.owned t t.ctx then .error 6
    else .ok { t with live := { t.live with moves := t.live.moves ++ [op] }, wait := .none }
  | 1 =>
    let p := passDesc true d
    if p.invalid t.live.mvAcc then .error 8 else if !p.owned t t.ctx then .error 6
    else .ok { t with live := { t.live with mv := some op }, wait := .none }
  | _ =>
    let p := passDesc false d
    if p.invalid t.live.acc then .error 8 else if !p.owned t t.ctx then .error 6
    else .ok { t with live := { t.live with pass := some op }, wait := .none, lastActive := tick + 1 }

/-- An X instruction that names a descriptor: address checks, a stall while its unit is busy, else issue (R189, R190). The address is
taken modulo 2³² (DESIGN CHOICE, log entry 152). -/
def vsIssue (kind : Nat) (f : XFields) (tick : Nat) (meets : MoveCmd → Bool) (t : Tile) : Except Nat Tile :=
  let a := ((t.live.vs.getP f.pk).toNat + f.imm32) % 4294967296
  let n := if kind = 2 then 32 else 64
  if a % n ≠ 0 then .error 5
  else if !t.ownsRange t.ctx a n then .error 6
  else if !t.unitFree kind then .ok (t.pause (.unit kind a (f.sync % 8)))
  else match t.start kind a (f.sync % 8) tick meets with
    | .error e => .error e
    | .ok t' => .ok t'.retire

/-- XPASS (R188, R189). -/
def execXpass (tile : Nat) (f : XFields) (s : State) : Out := .next (vsRun s tile (xCode 0x01 f) (vsIssue 0 f s.time.ticks (fun _ => false)))
/-- XMV (R188, R189). -/
def execXmv (tile : Nat) (f : XFields) (s : State) : Out := .next (vsRun s tile (xCode 0x02 f) (vsIssue 1 f s.time.ticks (fun _ => false)))
/-- XMOVE (R188, R189). -/
def execXmove (tile : Nat) (f : XFields) (s : State) : Out := .next (vsRun s tile (xCode 0x03 f) (vsIssue 2 f s.time.ticks (s.moveOverlaps tile (s.tile tile).ctx)))

/-- Every channel of the mask is signalled. -/
def Live.signalled (l : Live) (mask : Nat) : Bool := l.channels &&& mask == mask
/-- Clear the channels of the mask. -/
def Live.clear (l : Live) (mask : Nat) : Live := { l with channels := l.channels &&& (255 - mask % 256) }

/-- XWAIT: go on when every channel is signalled, and clear them; otherwise a preemptible wait (R188, R194). -/
def vsWaitOp (mask : Nat) (t : Tile) : Except Nat Tile :=
  if t.live.signalled mask then .ok ({ t with live := t.live.clear mask, wait := .none }).retire
  else .ok (t.pause (.channels mask))
/-- XWAIT (R188). -/
def execXwait (tile : Nat) (f : XFields) (s : State) : Out := .next (vsRun s tile (xCode 0x04 f) (vsWaitOp (f.chmask % 256)))

/-- The stalled X instruction is accepted once its unit has room: it reads its descriptor now and retires, or faults (R190). -/
def execXIssueAccepted (tile : Nat) (s : State) : Out :=
  let t := s.tile tile
  match t.wait with
  | .unit kind addr sync =>
    .next (s.when (t.unitFree kind && decide (t.task ≠ 0) && t.switching == 0 && t.sleep == 0)
      (match t.start kind addr sync s.time.ticks (s.moveOverlaps tile t.ctx) with
        | .error e => s.vsFault tile e
        | .ok t' => s.setTile tile t'.unpause.retire))
  | _ => .next s

/-! Completion. -/

/-- Signal a local sync channel (R189, R191); a VS that waits on channels goes on when all are signalled, and a HALT when no
X operation is left. -/
def Tile.signal (t : Tile) (ch : Nat) : Tile :=
  let t := { t with live := { t.live with channels := t.live.channels ||| 2 ^ (ch % 8) } }
  match t.wait with
  | .channels m => if t.live.signalled m then ({ t.unpause with live := t.live.clear m }).retire else t
  | .halt => vsHalt t
  | _ => t

/-- A unit of the tile can complete: its clock runs and no switch stops it (R195). -/
def Tile.unitRuns (t : Tile) : Bool := t.switching == 0 && t.sleep == 0 && t.duty != 0

/-- The waves in the stage that a task's pass may take: those of its invocation, or of none. -/
def State.ownWaves (s : State) (t : Tile) (e : Staged) : Bool := e.owner == (s.task (t.task - 1)).inv
/-- PASS_COMPLETE: results, write-back under WB, the channel (R143, R189). A pass that still lacks bytes of its stream takes what the
stage holds (R139, R144). -/
def execPassComplete (tile : Nat) (s : State) : Out :=
  let t := s.tile tile
  match t.live.pass with
  | none => .next s
  | some op =>
    let d := passDesc false op.desc
    let t := d.feed t (s.ownWaves t)
    .next (s.when t.unitRuns
      (if !d.streamed t then s.setTile tile t
       else if d.poisoned t then s.containedTile tile 1 2 d.aBase else
       let t' := d.finish t
       (s.setTile tile ({ t' with live := { t'.live with pass := none }, lastActive := s.time.ticks + 1 }.signal op.sync)).rankEnd tile))

/-- MV_PASS_COMPLETE (R157, R158, R189). -/
def execMvPassComplete (tile : Nat) (s : State) : Out :=
  let t := s.tile tile
  match t.live.mv with
  | none => .next s
  | some op =>
    let d := passDesc true op.desc
    let t := d.feed t (s.ownWaves t)
    .next (s.when t.unitRuns
      (if !d.streamed t then s.setTile tile t
       else if d.poisoned t then s.containedTile tile 1 2 d.aBase else
       let t' := d.finish t
       (s.setTile tile ({ t' with live := { t'.live with mv := none } }.signal op.sync)).rankEnd tile))

/-- PREEMPT_BOUND: a borrowable task whose count of tile cycles since its last preemption point, stalls included, would
exceed 256 faults (R197; 7 PREEMPT_BOUND). The count lies between what the instructions and the tile's clock tell (R52). -/
def execPreemptBound (tile cycles : Nat) (s : State) : Out :=
  let t := s.tile tile
  .next (s.when (s.bounded t && !t.atPoint && decide (cycles > 256 ∧ t.sincePoint ≤ cycles ∧ 10 * cycles ≤ t.tenths - t.pointAt + tickSpan)
      && t.switching == 0) (s.vsFault tile 7))

end Sys2Proof.Machine
end

