-- ==== Sys2Proof/Machine/Pdus.lean ====
section
/-! DEFINITION. The lists of slot orders as their bytes spell them (R281 to R287), and what a conductor's work for a slot depends on
(R231). -/

set_option linter.unusedVariables false

namespace Sys2Proof

/-! FAPI bodies (SCF 222), whose layout the spec does not give (log entry 9): uninterpreted functions of a body's bytes. -/

/-- Transport block sizes of a PDSCH or PUSCH body, by codeword. -/
opaque Config.fapiBlockSizes : List Byte → List Nat
/-- Its code blocks: base graph, Zc, h of R270. -/
opaque Config.fapiCoding : List Byte → List (Nat × Nat × Nat)
/-- A PUSCH body carries new data. -/
opaque Config.fapiNewData : List Byte → Bool
/-- Its HARQ process. -/
opaque Config.fapiHarq : List Byte → Nat
/-- Bits of each DCI of a PDCCH or UL_DCI PDU body. -/
opaque Config.fapiDcis : List Byte → List (List Bool)
/-- Every field lies in its FAPI range: order type, PDU type, body. -/
opaque Config.fapiLegal : Nat → Nat → List Byte → Bool
/-- No option that R264 excludes: order type, PDU type, body. -/
opaque Config.fapiSupported : Nat → Nat → List Byte → Bool

/-- A slot task that a conductor registers (R266, R314): radio virtual tile, nominal run in ns, direction, receive buffer, the moves that
the conductor issues for it (R166, R172): source and destination in the tile, length; the PDUs whose results it makes. -/
structure RadioPiece where
  vtile : Nat
  nominalNs : Nat
  uplink : Bool
  rxBase : Nat
  rxLength : Nat
  moves : List (Nat × Nat × Nat)
  pdus : List Nat
deriving DecidableEq, Repr

/-- What the output of a slot is a function of (R231): the cell and its configuration, the slot, the PDUs and payload entries of its orders,
the hold source of a held slot, the mode of its moves. -/
structure SlotKey where
  cell : Nat
  config : List Nat
  slot : Nat
  dl : List Pdu
  ul : List Pdu
  dci : List Pdu
  entries : List TxEntry
  hold : List Byte
  normalise : Bool
deriving DecidableEq, Repr

/-- The tasks that a conductor builds for a slot, whose number and layout the spec leaves to its firmware (R266; log entry 105). -/
opaque Config.slotPieces : SlotKey → List RadioPiece
/-- Length of a C-plane (1) or U-plane (2) frame, which the O-RAN encoding sets: kind, symbol, stream (log entry 10). -/
opaque Config.sectionBytes : SlotKey → Nat → Nat → Nat → Nat

/-- The filter indices of PRACH (R335), which the O-RAN standard lists (log entry 10). -/
opaque Config.prachFilter : Nat → Bool
/-- Place of a section in the receive buffer of an uplink task, which the spec leaves to its firmware (R341; log entry 105): stream, symbol,
first PRB. -/
opaque Config.sectionPlace : SlotKey → Nat → Nat → Nat → Nat

end Sys2Proof

namespace Sys2Proof.Machine

/-- An order type and PDU type with an extension of 16 bytes (R284): PDSCH and PUSCH. -/
def pduExtended (order type : Nat) : Bool := (order == 1 || order == 2) && type == 1

/-- Fields of the extension (R285, R286) lie in their ranges. -/
def extensionOk (order ext : Nat) : Bool :=
  if order = 1 then decide (bits ext 127 124 ≤ 2) && (bits ext 127 124 != 1 || decide (bits ext 123 120 ≤ 3 ∧ 1 ≤ bits ext 63 56))
  else decide (1 ≤ bits ext 127 120 ∧ bits ext 127 120 ≤ 10 ∧ bits ext 119 118 ≠ 3)

/-- Number of PDU types of an order type (R284). -/
def pduTypes (order : Nat) : Nat := match order with | 1 => 4 | 2 => 5 | _ => 1

/-- The PDU that the bytes spell (R283 to R286). -/
def pduOf (order : Nat) (bs : List Byte) : Pdu :=
  let h := natOf (bs.take 8)
  let type := bits h 63 48
  let extended := pduExtended order type
  let body := (bs.drop 8).take (bs.length - 8 - (if extended then 16 else 0))
  let ext := if extended then natOf (bs.drop (bs.length - 16)) else 0
  let coded := extended && decide (24 ≤ bs.length)
  { type := type, size := bits h 47 32, handle := bits h 31 0
    tbs := if coded then Config.fapiBlockSizes body else []
    coding := if coded then Config.fapiCoding body else []
    maxIter := bits ext 127 120
    precMode := bits ext 127 124
    cbType := bits ext 123 120
    srsRef := bits ext 95 64
    pmiLength := bits ext 63 56
    pmiAddr := 8 * bits ext 53 0
    spill := bits ext 119 118
    llrExport := bit ext 117
    newData := coded && Config.fapiNewData body
    harq := if coded then Config.fapiHarq body else 0
    supported := Config.fapiSupported order type body
    fieldsOk := decide (type < pduTypes order) && (!extended || (coded && extensionOk order ext)) && Config.fapiLegal order type body
    dcis := if (order = 1 ∨ order = 4) ∧ type = 0 then Config.fapiDcis body else [] }

/-- `n` PDUs that tile the list exactly (R283, R288). -/
def readPdus (order n : Nat) (bs : List Byte) : Option (List Pdu) :=
  match n with
  | 0 => if bs.isEmpty then some [] else none
  | n + 1 =>
    let size := bits (natOf (bs.take 8)) 47 32
    if bs.length < 8 ∨ size < 8 ∨ size % 8 ≠ 0 ∨ bs.length < size then none
    else (readPdus order n (bs.drop size)).map (fun l => pduOf order (bs.take size) :: l)

/-- `n` payload entries that fill the list (R287). -/
def readEntries (n : Nat) (bs : List Byte) : Option (List TxEntry) :=
  match n with
  | 0 => if bs.isEmpty then some [] else none
  | n + 1 =>
    let e := natOf (bs.take 24)
    if bs.length < 24 then none
    else (readEntries n (bs.drop 24)).map (fun l =>
      { handle := bits e 191 160, cw := bits e 159 152, length := bits e 127 96, addr := bits e 63 0 } :: l)

/-- PDUs of the order's list (R283, R284); a TX_DATA has none. -/
def orderPdus (o : OrderBody) (order : Nat) : List Pdu := if order = 3 then [] else (readPdus order o.pduCount o.list).getD []
/-- Payload entries of its list (R287). -/
def orderEntries (o : OrderBody) (order : Nat) : List TxEntry := if order = 3 then (readEntries o.pduCount o.list).getD [] else []
/-- The sizes tile the list exactly (R283, R287, R288). -/
def orderTiled (o : OrderBody) (order : Nat) : Bool :=
  o.list.length == o.listLength && (if order = 3 then (readEntries o.pduCount o.list).isSome else (readPdus order o.pduCount o.list).isSome)

/-- The cell's radio configuration, bindings included (R295, R355). -/
def State.cellConfig (s : State) (c : Nat) : List Nat :=
  [Reg.cellCluster c, Reg.cellNumerology c, Reg.cellBandwidth c, Reg.cellPaths c, Reg.cellLayers c, Reg.cellFrameOffset c, Reg.cellT1aMax c,
   Reg.cellTa4Max c, Reg.cellExtraLead c, Reg.cellRuCategory c, Reg.bindStreams c, Reg.bindCompMethod c, Reg.bindIqWidth c,
   Reg.bindCompHdrMode c, Reg.bindSendChinfo c, Reg.bindVlanTag c].map s.regN

/-- The key of a slot: `hold` of a slot that is sent as the hold pattern. -/
def State.slotKey (s : State) (c n : Nat) (hold : List Byte) : SlotKey :=
  let w := s.slotWork c n
  let of := fun (o : Option OrderIn) => match o with | some o => o.pdus | none => []
  let held : Bool := !hold.isEmpty || decide (2 ≤ w.released)
  { cell := c, config := s.cellConfig c, slot := n
    dl := if held then [] else of w.dl, ul := if held then [] else of w.ul, dci := if held then [] else of w.dci
    entries := if held then [] else (match w.tx with | some o => o.entries | none => [])
    hold := hold, normalise := w.normalise }

end Sys2Proof.Machine
end

