-- ==== Sys2Proof/Machine/Orders.lean ====
section
/-! DEFINITION. Slot orders (R278 to R289): admission, the cut-off at which a conductor checks completeness and coding share and
registers the slot's tasks (R282, R314, R317), missing orders (R311), and the launch of tasks. -/

set_option linter.unusedVariables false

namespace Sys2Proof.Machine

/-! Admission (R278 to R288). -/

/-- The order of a type that a slot holds: 1 DL_TTI, 2 UL_TTI, 3 TX_DATA, 4 UL_DCI. -/
def SlotWork.order (w : SlotWork) (type : Nat) : Option OrderIn := match type with | 1 => w.dl | 2 => w.ul | 3 => w.tx | _ => w.dci
/-- Set it. -/
def SlotWork.setOrder (w : SlotWork) (type : Nat) (o : OrderIn) : SlotWork :=
  match type with | 1 => { w with dl := some o } | 2 => { w with ul := some o } | 3 => { w with tx := some o } | _ => { w with dci := some o }

/-- Launch count that a descriptor's LNC names, past or future (R50). -/
def nearLnc (x n : Nat) : Nat := match dueOf x n with | .now => n | .future d => n + d | .past d => n - d

/-- The slot that an order's LNC names (R279): the count of slots since the epoch, if its LNC is that slot's start and SFN, HSFN and
SLOT are its name. -/
def State.orderSlot (s : State) (d : Desc) (o : OrderBody) : Option Nat :=
  let air := 50 * nearLnc d.lnc (s.fetchLnc d)
  let n := s.slotAt o.cell air
  if s.regN (Reg.cellFrameOffset o.cell) ≤ air ∧ s.airNs o.cell n = air ∧ s.slotName o.cell n = (o.hsfn, o.sfn, o.slot) then some n else none

/-- A field of the descriptor out of range (R281). -/
def State.orderFields (s : State) (o : OrderBody) : Bool :=
  decide (1 ≤ o.orderType ∧ o.orderType ≤ 4 ∧ o.cell < 256 ∧ o.sfn < 1024 ∧ o.hsfn < 1024 ∧ o.slot < s.perFrame o.cell ∧ o.resultRing < 64 ∧ o.pduCount ≤ 1024
    ∧ o.listLength ≤ 4194304 ∧ o.listAddr % 8 = 0 ∧ o.resultAddr % 64 = 0)

/-- The reason that refuses a slot order, in the model's order (R278, R279, R288; log entry 12). -/
def State.orderReason (s : State) (d : Desc) (o : OrderBody) : Option Nat :=
  let period := s.reg (Reg.ringFetchPeriod d.func d.ring)
  if s.reg (Reg.ringKind d.func d.ring) ≠ 1 ∨ period = 0 ∨ 80000 < period then some 26
  else if !s.orderFields o then some 25
  else if s.cellOwner o.cell ≠ d.func then some 4
  else if s.cellSt o.cell = 0 then some 24
  else match s.orderSlot d o with
  | none => some 23
  | some n =>
    let x := s.cell o.cell
    let air := s.airNs o.cell n
    let at' := 50 * s.fetchLnc d
    let w := s.slotWork o.cell n
    if x.lastSlot ≠ 0 ∧ x.lastSlot ≤ n + 1 then some 24
    else if at' + 20000000 + s.regN (Reg.cellExtraLead o.cell) < air then some 21
    else if air < at' + s.cutLead o.cell ∨ w.cut then some 20
    else if (w.order o.orderType).isSome then some 22
    else none

/-- Number the elements of a list from `i` on. -/
def numbered {α : Type} (i : Nat) (l : List α) : List (Nat × α) := match l with | [] => [] | a :: r => (i, a) :: numbered (i + 1) r

/-- PDUs dropped at fetch (R289): 3 PDU_INVALID, 4 UNSUPPORTED. -/
def fetchErrors (ps : List Pdu) : List (Nat × Nat) :=
  (numbered 0 ps).filterMap (fun e => if !e.2.fieldsOk then some (e.1, 3) else if !e.2.supported then some (e.1, 4) else none)

/-- Buffers of a HARQ process: keys of R268's soft buffers. -/
def ofHarq (h k : Nat) : Bool := k / 256 == h

/-- Admit a slot order; a UL_TTI that retransmits into a spilled buffer loads it back (R293). -/
def State.admitOrder (s : State) (d : Desc) (o : OrderBody) (type n : Nat) : State :=
  let ps := orderPdus o type
  let errors := fetchErrors ps
  let x : OrderIn := { func := d.func, ring := d.ring, seq := d.seq, ctx := d.context, resultRing := o.resultRing, orderSeq := o.orderSeq
                       resultAddr := o.resultAddr, resultLength := o.resultLength, pdus := ps, entries := orderEntries o type, errors := errors }
  let s := s.setSlotWork o.cell n ((s.slotWork o.cell n).setOrder type x)
  let s := s.bump (Reg.cellPdusDropped o.cell) errors.length
  let again := if type = 2 then (ps.filter (fun p => p.type == 1 && !p.newData)).map (fun p => p.harq) else []
  if again.isEmpty then s
  else s.updCell o.cell (fun c => { c with spilled := c.spilled.filter (fun k => !again.any (fun h => ofHarq h k)) })

/-- A slot order of type `type`: admitted, or refused; an admitted one has no DESCRIPTOR record (R288, R447). Its list is read once its fields
are good. -/
def slotOrder (type f r : Nat) (list : List Byte) (s : State) : State :=
  s.admitDesc f r (isOrder type) [1, 2] (fun s d x =>
    let o := orderBodyOf x []
    match s.orderReason d o with
    | some r => s.refuse d r
    | none => s.descRead d o.listAddr o.listLength list (fun list =>
      let o := orderBodyOf x list
      if !orderTiled o type then s.refuse d 25
      else match s.orderSlot d o with
        | some n => s.admitOrder d o type n
        | none => s.refuse d 23))

/-- DL_TTI (R278 to R289). -/
def execDlTti (f r : Nat) (list : List Byte) (s : State) : Out := .next (slotOrder 1 f r list s)
/-- UL_TTI (R278 to R289, R293). -/
def execUlTti (f r : Nat) (list : List Byte) (s : State) : Out := .next (slotOrder 2 f r list s)
/-- TX_DATA (R278, R279, R287, R288). -/
def execTxData (f r : Nat) (list : List Byte) (s : State) : Out := .next (slotOrder 3 f r list s)
/-- UL_DCI (R278 to R289). -/
def execUlDci (f r : Nat) (list : List Byte) (s : State) : Out := .next (slotOrder 4 f r list s)

/-! The cut-off. -/

/-- Base-graph rows used by a code block: graph, lifting size, h (R270). -/
def codingRows (b : Nat × Nat × Nat) : Nat := max 4 (b.2.2 - (if b.1 = 1 then 21 else 9))
/-- Work of a PDU's code blocks at `i` iterations, in units of 11 / 4,800 ns for decoding and 11 / 960 ns for encoding (R270). -/
def pduWork (i : Nat) (p : Pdu) : Nat := (p.coding.map (fun b => i * codingRows b * b.2.1)).sum

/-- Drop with CODING_OVERLOAD, in ascending index, the PDUs whose work would take the total above the share (R271). `limit` is the
share in units of work; PDUs already dropped do not count (log entry 39). -/
def overload (limit : Nat) (work : Pdu → Nat) (gone : List Nat) (total : Nat) (l : List (Nat × Pdu)) : List (Nat × Nat) :=
  match l with
  | [] => []
  | (i, p) :: r =>
    if gone.contains i then overload limit work gone total r
    else if limit < total + work p then (i, 1) :: overload limit work gone total r
    else overload limit work gone (total + work p) r

/-- The share of a cell in a slot: U × T_slot / 16 ns, counted in work units whose length is 11 / `den` ns (R271). -/
def State.codingShare (s : State) (c den : Nat) : Nat := s.unitsOf c * s.slotLen c * den / (100 * 16 * 11)

/-- Every codeword of a PDSCH has its payload entry, of the length of its block (R287, R289). -/
def pduPaid (p : Pdu) (l : List TxEntry) : Bool :=
  (numbered 0 p.tbs).all (fun b => l.any (fun t => t.handle == p.handle && t.cw == b.1 && t.length == b.2))
/-- The precoding reference of a PDSCH stands (R285, R289, R293): a retained estimate in mode 2, readable PMI bits in mode 1. -/
def State.precoded (s : State) (c ctx : Nat) (p : Pdu) : Bool :=
  match p.precMode with
  | 1 => s.vaReadable ctx p.pmiAddr (ceilDiv p.pmiLength 8)
  | 2 => decide (s.nowNs < Table.get 0 (s.cell c).estimates p.srsRef)
  | _ => true

/-- PDUs dropped at the cut-off: 2 NO_PAYLOAD, 5 PRECODING_REF for PDSCH (R289). -/
def State.cutErrors (s : State) (c : Nat) (tx : Option OrderIn) (o : OrderIn) : List (Nat × Nat) :=
  let entries := match tx with | some t => t.entries | none => []
  (numbered 0 o.pdus).filterMap (fun e =>
    if e.2.type ≠ 1 ∨ (o.errors.map (fun x => x.1)).contains e.1 then none
    else if !pduPaid e.2 entries then some (e.1, 2)
    else if !s.precoded c o.ctx e.2 then some (e.1, 5)
    else none)

/-- Add errors to an order. -/
def OrderIn.addErrors (o : OrderIn) (l : List (Nat × Nat)) : OrderIn := { o with errors := o.errors ++ l }
/-- The order without PDUs of other types, numbered. -/
def OrderIn.ofType (o : OrderIn) (type : Nat) : List (Nat × Pdu) := (numbered 0 o.pdus).filter (fun e => e.2.type == type)

/-- The downlink and uplink order after the checks of the cut-off (R271, R289). -/
def State.checkedDl (s : State) (c : Nat) (tx : Option OrderIn) (o : OrderIn) : OrderIn :=
  let o := o.addErrors (s.cutErrors c tx o)
  o.addErrors (overload (s.codingShare c 960) (pduWork 1) (o.errors.map (fun x => x.1)) 0 (o.ofType 1))
/-- See checkedDl: decode work counts at MAX_ITER. -/
def State.checkedUl (s : State) (c : Nat) (o : OrderIn) : OrderIn :=
  o.addErrors (overload (s.codingShare c 4800) (fun p => pduWork p.maxIter p) (o.errors.map (fun x => x.1)) 0 (o.ofType 1))

/-! Tasks of a slot (R266, R276, R277, R314). -/

/-- Nominal radio work registered on a tile within a window of ns. -/
def State.workOn (s : State) (tile lo hi : Nat) : Nat :=
  ((Table.get [] s.radio.work tile).filter (fun e =>
    let k := s.task e.1
    match k.radio with
    | some r => decide (50 * k.target < hi ∧ lo < 50 * k.target + r.budgetNs)
    | none => false)).map (fun e => e.2) |>.sum

/-- The standby tile of a task (R19, R314): another virtual tile of the partition, the one with the least work within the budget window;
ties to the lowest number. That its work is at most 45 % of the budget the sizing of R275 ensures; where it is more the least loaded one
stands all the same (DESIGN CHOICE, log entry 143). -/
def State.standbyOf (s : State) (p vt start budget : Nat) : Nat :=
  let best := (numbered 0 (s.part p).tiles).foldl (fun (m : Option (Nat × Nat)) e =>
    let w := s.workOn e.2 start (start + budget)
    if e.1 = vt then m
    else match m with | none => some (e.1, w) | some b => if w < b.2 then some (e.1, w) else m) none
  match best with | some b => b.1 | none => vt

/-- A move command of a conductor (R172, R218): NORMALISE or COPY within the tile. -/
def slotMove (normalise : Bool) (m : Nat × Nat × Nat) : List Byte :=
  bytesOf 32 ((if normalise then 2 else 0) * 2 ^ 252 + m.2.2 % 2 ^ 32 * 2 ^ 192 + m.1 % 2 ^ 64 * 2 ^ 128 + m.2.1 % 2 ^ 64 * 2 ^ 64)
/-- The move unit takes the command for the radio's own work on the tile: valid, in its pages, its ends apart (R165, R167, R218). -/
def State.takesMove (s : State) (tile : Nat) (d : List Byte) : Bool :=
  let m := moveCmd d
  !m.invalid && m.owned (s.tile tile) 65535 && !s.moveOverlaps tile 65535 m
/-- Register a radio task (R92 books it next): its nominal work counts on its tile; the conductor issues its moves (R166), eight at most
(R190). -/
def State.addRadioTask (s : State) (c n : Nat) (x : RadioPiece) (startNs budget : Nat) (hold : Bool) : State × Nat × Nat :=
  let p := s.radioPart c
  let tile := (s.part p).tiles.getD x.vtile 0
  let sb := s.standbyOf p x.vtile startNs budget
  let ds := ((x.moves.map (slotMove (s.slotWork c n).normalise)).filter (s.takesMove tile)).take 8
  let k : Task := { func := s.cellOwner c, ctx := 0xFFFF, part := p, vfirst := x.vtile, tiles := [tile], target := startNs / 50, fetched := s.lnc
                    radio := some { cell := c, slot := n, uplink := x.uplink, hold := hold, budgetNs := budget, standby := sb, moves := ds, pdus := x.pdus, rxBase := x.rxBase, rxLength := x.rxLength } }
  let i := s.nextTask
  let s := s.addTask k
  ({ s with radio := { s.radio with work := Table.put [] s.radio.work tile (Table.get [] s.radio.work tile ++ [(i, x.nominalNs)]) } }, i, sb)

/-- The receive buffer of an uplink task is zeroised on its tile and on its standby before its window opens (R341), outside the loan window
(R74). -/
def State.zeroReceive (s : State) (p : Nat) (vts : List Nat) (base length : Nat) : State :=
  vts.foldl (fun s v => match (s.part p).tiles[v]? with | some t => s.updTile t (fun x => x.zeroRange base (min (base + length) x.loanBase)) | none => s) s
/-- Register the tasks that the conductor builds for a slot: none has more nominal work than 45 % of its budget (R19). -/
def State.addSlotTasks (s : State) (c n : Nat) (works : List RadioPiece) : State :=
  works.foldl (fun s x =>
    let start := if x.uplink then s.launchUl c n else s.launchDl c n
    let budget := if x.uplink then s.budgetUl c else s.budgetDl c
    let r := s.addRadioTask c n { x with nominalNs := min x.nominalNs (budget * 9 / 20) } start budget false
    let t := r.1.setSlotWork c n { r.1.slotWork c n with tasks := (r.1.slotWork c n).tasks ++ [(r.2.1, x.uplink, x.vtile, r.2.2)] }
    if x.uplink then t.zeroReceive (s.radioPart c) [x.vtile, r.2.2] x.rxBase x.rxLength else t) s

/-- Which orders a slot lacks: bit 0 DL_TTI, bit 1 UL_TTI (R282, R301). -/
def State.missing (s : State) (c n : Nat) : Nat :=
  let w := s.slotWork c n
  (if Config.tddDownlink c n && w.dl.isNone then 1 else 0) + (if Config.tddUplink c n && w.ul.isNone then 2 else 0)

/-- A slot with a missing order (R311): held and reported; consecutive ones count while ON_AIR (log entry 40). -/
def State.missSlot (s : State) (c n missing : Nat) : State :=
  let s := (s.holdSlot c n 5).bump (Reg.cellMissedOrders c) 1
  (s.updCell c (fun x => { x with missed := if s.cellSt c = 2 then x.missed + 1 else 0 })).cellEvent c 5 n missing

/-- Slot `n` takes NORMALISE moves (R313): in a run that is under way, or in the frame from a boundary that is named when the slot is
prepared: the start frame, a return from HOLD, the reset frame, H on the target of a move. -/
def State.normalises (s : State) (c n : Nat) : Bool :=
  let x := s.cell c
  let run := fun (t : Option Nat) => match t with | some t => decide (s.slotAt c t ≤ n ∧ n < s.slotAt c t + s.perFrame c) | none => false
  decide (n < x.normTo) || run (if x.startAt = 0 then none else some (x.startAt - 1)) || run (Table.find? x.waiting 4) || run (Table.find? x.waiting 5)
    || run (match x.move with | some m => if m.source then none else some m.h | none => none)

/-- The transport blocks of the PDSCHs that are served, as the chip reads them from host memory after the cut-off and stages them (R287,
R316): PDU, codeword, bytes. `payloads`: what stands at the address of each entry of the TX_DATA order, in its order. -/
def stagedBlocks (dl tx : Option OrderIn) (payloads : List (List Byte)) : List (Nat × Nat × List Byte) :=
  match dl, tx with
  | some o, some t =>
    (numbered 0 o.pdus).flatMap (fun e =>
      if e.2.type ≠ 1 ∨ (o.errors.map (fun x => x.1)).contains e.1 then []
      else (numbered 0 e.2.tbs).filterMap (fun b =>
        ((numbered 0 t.entries).find? (fun x => x.2.handle == e.2.handle && x.2.cw == b.1 && x.2.length == b.2)).map
          (fun x => (e.1, b.1, fit b.2 (payloads.getD x.1 [])))))
  | _, _ => []

/-- A slot that is served computed: the checks, the tasks, the mode of its moves (R271, R282, R313, R317). -/
def State.serveSlot (s : State) (c n : Nat) (payloads : List (List Byte)) : State :=
  let w := s.slotWork c n
  let dl := w.dl.map (s.checkedDl c w.tx)
  let ul := w.ul.map (s.checkedUl c)
  let count := fun (a b : Option OrderIn) => match a, b with | some x, some y => y.errors.length - x.errors.length | _, _ => 0
  let s := s.setSlotWork c n { w with dl := dl, ul := ul, cut := true, normalise := s.normalises c n, staged := stagedBlocks dl w.tx payloads }
  let s := s.bump (Reg.cellPdusDropped c) (count w.dl dl + count w.ul ul)
  let s := s.updCell c (fun x => { x with missed := 0 })
  s.addSlotTasks c n (Config.slotPieces (s.slotKey c n []))

/-- Forget slots of a cell that ended more than 20 ms ago. -/
def State.pruneSlots (s : State) (c : Nat) : State :=
  s.updCell c (fun x => { x with slots := Table.keep x.slots (fun m _ => decide (s.nowNs < s.airNs c m + 20000000 + s.slotLen c)) })

/-- ORDER_CUTOFF (R278, R282, R287, R297, R305, R310, R311, R317, R322): once, at the cut-off, by the conductor of the cell. A slot that the
other chip of a move serves discards its orders. A cell held for missing orders comes back with the orders of slot 0 of a frame. -/
def execOrderCutoff (c slot : Nat) (payloads : List (List Byte)) (s : State) : Out :=
  let s0 := s.pruneSlots c
  let w := s0.slotWork c slot
  let x := s0.cell c
  let missing := s0.missing c slot
  let back : Bool := s0.cellSt c == 3 && x.heldBy == 2 && (s0.slotName c slot).2.2 == 0 && missing == 0 && !Table.has x.waiting 4
  let s1 : State := if back then s0.updCell c (fun x => x.await 4 (s0.airNs c slot)) else s0
  let cause := s1.holdCause c slot
  let ok := decide (c < 256) && s.cellSt c != 0 && decide (s.airNs c slot ≤ s.nowNs + s.cutLead c ∧ s.nowNs < s.airNs c slot) && !w.cut && w.released == 0
    && s.conducted c slot
  .next (s.when ok
    (if !s0.serves c slot then
       (if (s0.cell c).move.isSome ∨ s0.cellSt c = 4 then (s0.discardOrders c slot).setSlotWork c slot { w with cut := true } else s0)
     else if cause ≠ 0 then s1.holdSlot c slot cause
     else if missing ≠ 0 then s1.missSlot c slot missing
     else s1.serveSlot c slot payloads))

/-- MISSED_LIMIT_REACHED (R297, R311): at the end of the slot that made MISSED_LIMIT consecutive slots held for missing orders the
cell enters HOLD. -/
def execMissedLimitReached (c : Nat) (s : State) : Out :=
  let x := s.cell c
  let limit := s.regN (Reg.cellMissedLimit c)
  let last := (List.filter (fun (e : Nat × SlotWork) => e.2.held == 5) x.slots).foldl (fun m (e : Nat × SlotWork) => max m e.1) 0
  let reached := last - (x.missed - limit)
  .next (s.when (s.cellSt c == 2 && decide (limit ≤ x.missed ∧ s.airNs c reached + s.slotLen c ≤ s.nowNs))
    ((s.updCell c (fun x => { x with heldBy := 2, missed := 0 })).setCellSt c 3))

/-! Launches of tasks. -/

/-- The HARQ processes of a slot on the target of a move whose context has not arrived: decoded without combining (R301, R324). -/
def State.harqGaps (s : State) (c n : Nat) : List Nat :=
  let x := s.cell c
  match x.move, (s.slotWork c n).ul with
  | some m, some o =>
    if m.source || m.finalSent then []
    else ((o.pdus.filter (fun p => p.type == 1 && !p.newData)).map (fun p => p.harq)).filter (fun h => !List.any x.soft (fun e => ofHarq h e.1))
  | _, _ => []

/-- TASK_LAUNCH (R14, R49, R324): at its target LNC the launch unit starts the ranks of a registered task whose clocks are ready; an
uplink launch on the target of a move reports each process without its context. -/
def execTaskLaunch (task : Nat) (s : State) : Out :=
  let k := s.task task
  let s1 := s.startRanks task
  let s2 := match k.radio with
    | some r => if r.uplink ∧ (s1.task task).startLnc ≠ 0 then (s1.harqGaps r.cell r.slot).foldl (fun s h => s.cellEvent r.cell 13 r.slot h) s1 else s1
    | none => s1
  .next (s.when (s.hasTask task && k.status == .registered) s2)

end Sys2Proof.Machine
end

