-- ==== Sys2Proof/Machine/Kgf.lean ====
section
/-! DEFINITION. The KGF container (R219 to R223): header, section table, node records and kernel packages as their bytes spell them, and
the checks of R222 that need the container alone. -/

set_option linter.unusedVariables false

namespace Sys2Proof

/-- What the bodies of a container say whose layout the spec does not give: OPERANDS of a node, PLACEMENT, SERVICE_TABLE, the declared
inputs and outputs. An uninterpreted function of the container's bytes (log entry 147). -/
opaque Config.kgfPlan : List Byte → KgfPlan

end Sys2Proof

namespace Sys2Proof.Machine

/-- The `n` bytes at offset `o` as a number. -/
def fieldAt (bs : List Byte) (o n : Nat) : Nat := natOf ((bs.drop o).take n)

/-- The file header (R220). -/
structure KgfHeader where
  magic : Nat
  format : Nat
  major : Nat
  minor : Nat
  flags : Nat
  sections : Nat
  chips : Nat
  tiles : Nat
  batch : Nat
  total : Nat
deriving DecidableEq, Repr
/-- The header that the first 64 bytes spell (R219, R220). -/
def kgfHeader (bs : List Byte) : KgfHeader :=
  let n := fieldAt bs 0 64
  { magic := bits n 511 480, format := bits n 479 464, major := bits n 463 456, minor := bits n 455 448, flags := bits n 447 416
    sections := bits n 415 400, chips := bits n 399 384, tiles := bits n 383 368, batch := bits n 367 352, total := bits n 351 288 }

/-- A section header (R221). -/
structure KgfSection where
  type : Nat
  required : Bool
  offset : Nat
  length : Nat
  /-- DIGEST8 as it stands in the container. -/
  digest : List Byte
deriving DecidableEq, Repr
/-- Section header `i` (R219, R221). -/
def kgfSection (bs : List Byte) (i : Nat) : KgfSection :=
  let h := (bs.drop (64 + 32 * i)).take 32
  let n := natOf h
  { type := bits n 255 240, required := bit n 224, offset := bits n 191 128, length := bits n 127 64, digest := h.take 8 }
/-- The section table. -/
def kgfSections (bs : List Byte) : List KgfSection := (List.range (kgfHeader bs).sections).map (kgfSection bs)
/-- Body of a section. -/
def KgfSection.body (x : KgfSection) (bs : List Byte) : List Byte := (bs.drop x.offset).take x.length
/-- Body of the first section of a type, if the container has one. -/
def kgfBody (bs : List Byte) (type : Nat) : Option (List Byte) := ((kgfSections bs).find? (fun x => x.type == type)).map (fun x => x.body bs)

/-- Sections lie at multiples of 4,096 behind the table, within the container, and do not overlap (R219, R222). -/
def sectionsOk (bs : List Byte) : Bool :=
  let h := kgfHeader bs
  let l := kgfSections bs
  decide (1 ≤ h.sections ∧ h.sections ≤ 64)
    && l.all (fun x => decide (x.offset % 4096 = 0 ∧ 64 + 32 * h.sections ≤ x.offset ∧ x.offset + x.length ≤ h.total))
    && (List.range l.length).all (fun i => (List.range i).all (fun j =>
      match l[i]?, l[j]? with
      | some x, some y => decide (x.offset + x.length ≤ y.offset ∨ y.offset + y.length ≤ x.offset)
      | _, _ => true))
/-- The MANIFEST body that the other sections ask for: their digests in table order (R221). -/
def manifestOf (bs : List Byte) : List Byte :=
  ((kgfSections bs).filter (fun x => x.type != 7)).flatMap (fun x => Config.sha512 (x.body bs))
/-- Each DIGEST8 and the MANIFEST match (R221, R222). -/
def digestsOk (bs : List Byte) : Bool :=
  (kgfSections bs).all (fun x => x.digest == (Config.sha512 (x.body bs)).take 8) && kgfBody bs 7 == some (manifestOf bs)
/-- An unknown section type is marked REQUIRED (R222). -/
def unknownRequired (bs : List Byte) : Bool := (kgfSections bs).any (fun x => x.required && (x.type == 0 || decide (8 < x.type)))

/-! Nodes (R221, R223). -/

/-- A node: its record of 64 bytes, and what the other bodies say of it. -/
def nodeOf (r : List Byte) (p : NodePlan) : NodeRec :=
  let attr := fieldAt r 2 2
  { toNodePlan := p, family := fieldAt r 0 2, arrival := bit attr 0, prefetchBoth := bit attr 1, function := attr / 256
    pred := fieldAt r 4 4, trueNext := fieldAt r 8 4, falseNext := fieldAt r 12 4 }
/-- The nodes of a container, in GRAPH order. -/
def kgfNodes (bs : List Byte) : List NodeRec :=
  let g := (kgfBody bs 1).getD []
  (List.range (g.length / 64)).map (fun i => nodeOf ((g.drop (64 * i)).take 64) ((Config.kgfPlan bs).nodes.getD i {}))

/-- Whether the radices of a DFT come in the order of R205: 16 first, then 8. -/
def radixOrder (l : List PassDesc) : Bool :=
  match l with
  | [] => true
  | d :: r => if d.k = 16 then radixOrder r else l.all (fun x => x.k == 8)
/-- A descriptor is of the shape of its family (R205): MATMUL, MATVEC, CONV, CMATMUL, INTERP. -/
def familyShape (family : Nat) (d : PassDesc) : Bool :=
  match family with
  | 1 => !d.relay && d.aFmt != 8
  | 2 => d.mv
  | 3 => d.relay && d.aFmt != 8
  | 4 => !d.relay && d.aFmt == 8
  | 6 => d.relay && d.aFmt == 8
  | _ => false
/-- The stages of a DFT (R129, R205): CI16 stages of radix 16 then 8, of which the vector sequencer may run the last. -/
def dftShape (l : List (PassDesc × Bool)) : Bool :=
  l.all (fun e => e.1.aFmt == 8 && !e.1.relay && (e.1.k == 16 || e.1.k == 8)) && radixOrder (l.map (fun e => e.1)) && (l.dropLast).all (fun e => !e.2)
/-- What R253 says of the numbers of a GATE node. -/
def gateOk (g : GateNode) : Bool :=
  decide (2 ≤ g.experts ∧ g.experts ≤ 256 ∧ 1 ≤ g.choices ∧ g.choices ≤ 8 ∧ g.choices ≤ g.experts ∧ 65536 ≤ g.factor ∧ g.factor ≤ 1048576 ∧ 1 ≤ g.gateUnits)

/-- Operands of the family's kind, every descriptor accepted by R217, of the family's shape and on the node's arrangement and S (R205 to
R207, R222). -/
def operandsOk (r : NodeRec) : Bool :=
  match r.op with
  | .passes l =>
    l.all (fun e =>
      let d := passDesc (r.family == 2) e.2
      !d.invalid none && familyShape r.family d && (r.family == 2 || d.arrange == r.arrange))
      && (if r.family = 1 ∨ r.family = 3 then decide (1 ≤ r.split ∧ r.split ≤ 64) else decide (r.split = 1))
  | .dft _ l =>
    let ds := l.map (fun e => (passDesc false e.1, e.2))
    r.family == 5 && ds.all (fun e => !e.1.invalid none) && dftShape ds
  | .element _ _ _ _ => r.family == 7
  | .rows _ _ _ _ _ _ => r.family == 8 || r.family == 9
  | .quant _ _ _ _ _ _ => r.family == 0x0A
  | .reduce _ _ _ _ => r.family == 0x0B
  | .gate g => r.family == 0x0C && gateOk g
  | .moves _ => r.family == 0x0D
  | .control => r.family == 0x0E || r.family == 0x0F
  | .atomic _ _ _ => r.family == 0x10
/-- A wave within WEIGHTS and within the limits of its destination (R245). -/
def waveOk (weights : Nat) (w : Wave) : Bool :=
  decide (w.offset + w.length ≤ weights) && (match w.dest with | 0 => decide (w.length ≤ 32768) | 1 => true | 2 => decide (w.length ≤ 4194304 ∧ w.addr + w.length ≤ sramBytes) | _ => false)
/-- A node uses an item that R230 has its container refused for: REDUCE with ORDER_ARRIVAL, or a gate with policy ARRIVAL. -/
def nodeForbidden (r : NodeRec) : Bool := (r.family == 0x0B && r.arrival) || (match r.op with | .gate g => g.policy == 2 | _ => false)

/-- The kernel packages of a KERNELS body, which follow one another (R201, R221); a rest that holds none stands as it is. -/
def packagesIn (fuel : Nat) (bs : List Byte) : List (List Byte) :=
  match fuel with
  | 0 => []
  | fuel + 1 =>
    if bs.isEmpty then []
    else
      let n := 128 + 8 * fieldAt bs 8 4
      if bs.length < n then [bs] else bs.take n :: packagesIn fuel (bs.drop n)
/-- The kernel packages of a container. -/
def kgfPackages (bs : List Byte) : List (List Byte) := let b := (kgfBody bs 3).getD []; packagesIn (b.length / 128 + 1) b
/-- Every node passes R217 and every wave R245. -/
def nodesOk (bs : List Byte) : Bool :=
  let w := ((kgfBody bs 2).getD []).length
  (kgfNodes bs).all (fun r => operandsOk r && r.waves.all (waveOk w))
/-- The index of the first node that uses a forbidden item. -/
def firstForbidden (bs : List Byte) : Option Nat :=
  (List.range (kgfNodes bs).length).find? (fun i => match (kgfNodes bs)[i]? with | some r => nodeForbidden r | none => false)

end Sys2Proof.Machine
end

