-- ==== Sys2Proof/Machine/Moves.lean ====
section
/-! DEFINITION. The move unit (R166 to R172, R218, R385): what each mode reads and writes, in the tile, in device memory, on the host
and over the fabric. A move with a remote end takes several occurrences of its command: requests out, then the transfer. -/

set_option linter.unusedVariables false

namespace Sys2Proof.Machine

/-! Block headers (R169). -/

/-- BLOCK_EXP of a header, signed. -/
def headerExp (h : Nat) : Int := signed 8 (bits h 55 48)
/-- Data bytes of the group. -/
def headerLen (h : Nat) : Nat := bits h 23 0 / 4 * 4
/-- A header: CI16, exponent, last shift, ZERO, SAT, NORM, data bytes. -/
def headerOf (e : Int) (lastShift : Nat) (zero sat norm : Bool) (len : Nat) : Nat :=
  8 * 2 ^ 60 + unsigned 8 e * 2 ^ 48 + lastShift * 2 ^ 40 + (if zero then 2 ^ 34 else 0) + (if sat then 2 ^ 33 else 0)
    + (if norm then 2 ^ 32 else 0) + len % 2 ^ 24

/-- The 16-bit parts of bytes. -/
def partsOf (bs : List Byte) : List Int := (List.range (bs.length / 2)).map (fun i => signed 16 (natOf ((bs.drop (2 * i)).take 2)))
/-- Bytes of 16-bit parts. -/
def bytesOfParts (ps : List Int) : List Byte := ps.flatMap (fun p => bytesOf 2 (unsigned 16 p))
/-- Every part is zero. -/
def allZero (ps : List Int) : Bool := ps.all (fun p => p == 0)

/-- NORMALISE of one group: header and data (R130, R171). -/
def normaliseGroup (h : Nat) (data : List Byte) : List Byte :=
  let ps := partsOf data
  let e := headerExp h
  let r := if allZero ps then 0 else min ((ps.map redundantSigns).foldl min 15) (e + 128).toNat
  bytesOf 8 (headerOf (e - r) r (allZero ps) false true (headerLen h)) ++ bytesOfParts (ps.map (fun p => p * (2 ^ r : Nat)))

/-- NORMALISE of a run of groups: each header's LENGTH says where its group ends; the next header is 8-byte aligned; a run that
ends inside a group is copied as it is from there. -/
def normaliseRun (fuel : Nat) (bs : List Byte) : List Byte :=
  match fuel with
  | 0 => bs
  | fuel + 1 =>
    let len := headerLen (natOf (bs.take 8))
    let next := (8 + len + 7) / 8 * 8
    if bs.length < 8 + len ∨ bs.length < 8 then bs
    else normaliseGroup (natOf (bs.take 8)) ((bs.drop 8).take len) ++ (bs.drop (8 + len)).take (next - 8 - len) ++ normaliseRun fuel (bs.drop next)

/-- UNPACK_BFP of resource blocks (R131, R132, R169): each becomes a header and 24 parts. -/
def unpackRun (w : Nat) (n : Nat) (bs : List Byte) : List Byte :=
  match n with
  | 0 => []
  | n + 1 =>
    let u := bfpUnpack w (bs.take (bfpBytes w))
    bytesOf 8 (headerOf u.2 0 (allZero u.1) false false 48) ++ bytesOfParts u.1 ++ unpackRun w n (bs.drop (bfpBytes w))

/-- PACK_BFP of groups of one resource block each (R133): the blocks, and whether SATURATED is set. -/
def packRun (w : Nat) (n : Nat) (bs : List Byte) : List Byte × Bool :=
  match n with
  | 0 => ([], false)
  | n + 1 =>
    let p := bfpPack w (partsOf ((bs.drop 8).take 48)) (headerExp (natOf (bs.take 8)))
    let r := packRun w n (bs.drop 56)
    (p.1 ++ r.1, p.2 || r.2)

/-- The bytes a command writes from the bytes it reads, and whether SATURATED is set (R168). -/
def MoveCmd.transform (m : MoveCmd) (bs : List Byte) : List Byte × Bool :=
  match m.mode with
  | 1 => (zeros m.length, false)
  | 2 => (normaliseRun bs.length bs, false)
  | 3 => (unpackRun m.w m.rb bs, false)
  | 4 => packRun m.w m.rb bs
  | _ => (bs, false)

/-! Ends of a move. -/

/-- What one end of a move turns out to be. -/
inductive End where
  /-- Bytes are at hand, or the writes are done. -/
  | ready
  /-- Requests are out; the move goes on when they are answered. -/
  | waits
  /-- A fault code and INFO. -/
  | fault (code info : Nat)
deriving DecidableEq, Repr

/-- A remote address of a context (R383 to R385): the job entry and the home node, if the binding is ACTIVE and the rank exists. -/
def State.remoteHome (s : State) (ctx va : Nat) : Option (Nat × Nat) :=
  match s.jobOf ctx with
  | none => none
  | some j =>
    if s.jobState j ≠ 2 ∨ s.regN (Reg.jobChips j) ≤ bits va 54 43 ∨ bits va 63 55 ≠ 1 then none else some (j, s.rankNode j (bits va 54 43))

/-- Line chunks of a range: start offset from the base, and length, none crossing a 256-byte line. -/
def lineChunks (fuel va n done : Nat) : List (Nat × Nat) :=
  match fuel with
  | 0 => []
  | fuel + 1 =>
    if n ≤ done then []
    else
      let c := min (n - done) (256 - (va + done) % 256)
      (done, c) :: lineChunks fuel va n (done + c)

/-- One LOAD of a move, or its bytes from a line held here (R385, R397, R399). -/
def State.loadChunk (s : State) (ctx j node id va : Nat) (e : Nat × Nat) : State :=
  let off := bits va 42 0 + e.1
  let k := remoteKey (s.regN (Reg.jobId j)) node off
  let line := match Table.find? s.fabric.shared k with | some l => some l | none => Table.find? s.fabric.ncro k
  match line with
  | some l => s.stage id e.1 ((l.drop (off % 256)).take e.2) false
  | none =>
    let skip := off % 4
    let whole := s.isQuadPeer node || s.inNcro j off
    if s.jobState j ≠ 2 then s
    else s.ask { blankPacket with
      opcode := if s.isQuadPeer node then 0x28 else 0x01, vc := requestVc (s.regN (Reg.jobClass j)), ncro := !s.isQuadPeer node && s.inNcro j off
      dst := node, job := s.regN (Reg.jobId j), len := if whole then 63 else ceilDiv (skip + e.2) 4 - 1
      offset := off - skip, operand := skip, compare := e.2 } ctx (.moveLoad id e.1)

/-- One STORE of a move. -/
def State.storeChunk (s : State) (ctx j node id va : Nat) (bs : List Byte) (e : Nat × Nat) : State :=
  if s.jobState j ≠ 2 then s
  else s.ask { blankPacket with
    opcode := 0x02, vc := requestVc (s.regN (Reg.jobClass j)), dst := node, job := s.regN (Reg.jobId j), len := ceilDiv e.2 4 - 1
    offset := bits va 42 0 + e.1, data := (bs.drop e.1).take e.2 } ctx (.moveStore id)

/-- Requests of a move that have no response. -/
def State.moveOpen (s : State) (id : Nat) : Bool :=
  let mine := fun (k : Sink) => match k with | .moveLoad i _ => i == id | .moveStore i => i == id | _ => false
  List.any s.fabric.requests (fun (e : Nat × Request) => mine e.2.sink) || s.fabric.waiting.any (fun r => mine r.2.sink)

/-- Lines under a range that other chips hold or have not yet dropped: a write must first invalidate them (R398). -/
def State.sharedUnder (s : State) (ctx off n : Nat) : List Nat :=
  ((lineChunks (n + 1) off n 0).map (fun e => (off + e.1) / 256 * 256)).filter (fun l => !(s.sharersOf (lineKey ctx l)).isEmpty || !(s.droppingOf (lineKey ctx l)).isEmpty)

/-- Give the first move of a tile a move number. -/
def Tile.moveId (t : Tile) (id : Nat) : Tile :=
  match t.live.moves with | [] => t | m :: r => { t with live := { t.live with moves := { m with id := id } :: r } }
/-- The first move of a tile is carried out up to its completion: the bytes that go to this chip's memory are ready, and a flag is set. -/
def Tile.moveWritten (t : Tile) (bs : List Byte) (saturated : Bool) : Tile :=
  match t.live.moves with
  | [] => t
  | m :: r => { t with live := { t.live with moves := { m with written := true, data := bs } :: r, vs := t.live.vs.flag false saturated } }

/-- Read the source, but for what was read before a save (R195): the state after, what it turned out to be, the bytes, and whether they
are poisoned. -/
def State.moveRead (s : State) (tile : Nat) (op : XOp) (arrived : List Byte) : State × End × List Byte × Bool :=
  let m := moveCmd op.desc
  let n := m.srcBytes
  let t := s.tile tile
  if m.mode = 1 ∨ n = 0 then (s, .ready, [], false)
  else if !m.srcVa then
    let k := op.data.length
    (s, .ready, op.data ++ t.read (m.src + k) (n - k), t.poisoned (m.src + k) (n - k))
  else match s.translate op.ctx m.src true false with
  | .remote _ _ =>
    (match s.remoteHome op.ctx m.src with
     | none => (s, .fault 10 (bits m.src 56 8), [], false)
     | some (j, node) =>
       if node = s.node then
         (match (s.job j).bound with
          | 0 => (s, .fault 10 (bits m.src 56 8), [], false)
          | c + 1 => match s.readLocal c (bits m.src 42 0) n with
            | some bs => (s, .ready, bs, s.localPoisoned c (bits m.src 42 0) n)
            | none => (s, .fault 10 (bits m.src 56 8), [], false))
       else if op.id = 0 then
         let id := s.fabric.nextRequest + 1
         let s := s.setTile tile (t.moveId id)
         ((lineChunks (n + 1) m.src n 0).foldl (fun s e => s.loadChunk op.ctx j node id m.src e) s, .waits, [], false)
       else
         let got := Table.get [] s.fabric.staged op.id
         if got.length < n then (s, .waits, [], false)
         else (s, .ready, got.map (fun (e : Nat × Byte) => e.2), s.fabric.tainted.contains op.id))
  | .host a => (match s.vaFault op.ctx m.src n true false with
     | some v => (s, .fault 10 (bits v 56 8), [], false)
     | none => (s, .ready, fit n arrived, false))
  | _ => (match s.vaFault op.ctx m.src n true false with
     | some v => (s, .fault 10 (bits v 56 8), [], false)
     | none => match s.readLocal op.ctx (bits m.src 42 0) n with
       | some bs => (s, .ready, bs, s.localPoisoned op.ctx (bits m.src 42 0) n)
       | none => (s, .fault 10 (bits m.src 56 8), [], false))

/-- Write bytes of a context's local region, after the sharers of their lines have dropped them (R398). -/
def State.moveStoreLocal (s : State) (j ctx off : Nat) (bs : List Byte) (va : Nat) : State × End :=
  match s.sharedUnder ctx off bs.length with
  | l :: r => ((l :: r).foldl (fun s x => s.invalidateLine j ctx x) s, .waits)
  | [] => match s.writeLocal ctx off bs with
    | some s' => (s', .ready)
    | none => (s, .fault 10 (bits va 56 8))

/-- Send the bytes of a move whose destination is another chip or the host, and check one on this chip. -/
def State.moveSend (s : State) (tile : Nat) (op : XOp) (bs : List Byte) : State × End :=
  let m := moveCmd op.desc
  if !m.dstVa then (s, .ready)
  else match s.translate op.ctx m.dst false true with
  | .remote _ _ =>
    (match s.remoteHome op.ctx m.dst with
     | none => (s, .fault 10 (bits m.dst 56 8))
     | some (j, node) =>
       if node = s.node then (s, .ready)
       else
         let id := if op.id = 0 then s.fabric.nextRequest + 1 else op.id
         let s := s.updTile tile (fun t => t.moveId id)
         ((lineChunks (bs.length + 1) m.dst bs.length 0).foldl (fun s e => s.storeChunk op.ctx j node id m.dst bs e) s, .ready))
  | .host a => (match s.vaFault op.ctx m.dst bs.length false true with
     | some v => (s, .fault 10 (bits v 56 8))
     | none => (s.emit (.hostWrite (op.ctx / 16) a bs), .ready))
  | .fault => (s, .fault 10 (bits m.dst 56 8))
  | _ => (match s.vaFault op.ctx m.dst bs.length false true with
     | some v => (s, .fault 10 (bits v 56 8))
     | none => (s, .ready))

/-- The bytes of a move reach this chip's memory, where its destination lies there. -/
def State.moveLand (s : State) (tile : Nat) (op : XOp) : State × End :=
  let m := moveCmd op.desc
  if !m.dstVa then (s.updTile tile (fun t => t.write m.dst op.data), .ready)
  else match s.translate op.ctx m.dst false true with
  | .remote _ _ =>
    (match s.remoteHome op.ctx m.dst with
     | none => (s, .ready)
     | some (j, node) =>
       if node ≠ s.node then (s, .ready)
       else match (s.job j).bound with
         | 0 => (s, .fault 10 (bits m.dst 56 8))
         | c + 1 => s.moveStoreLocal j c (bits m.dst 42 0) op.data m.dst)
  | .host _ => (s, .ready)
  | .fault => (s, .fault 10 (bits m.dst 56 8))
  | _ => s.moveStoreLocal ((s.jobOf op.ctx).getD 64) op.ctx (bits m.dst 42 0) op.data m.dst

/-- A move that faults ends its task; one of no task goes. -/
def State.moveFault (s : State) (tile code info : Nat) : State :=
  let t := s.tile tile
  if t.task = 0 then s.updTile tile (fun t => { t with live := { t.live with moves := t.live.moves.drop 1 } }) else s.faultTask (t.task - 1) code info
/-- The SATURATED flag of a MOVE node's command joins the invocation's (R117). -/
def State.moveFlag (s : State) (tile : Nat) (saturated : Bool) : State :=
  let n := (s.tile tile).task - 1
  let k := s.task n
  if saturated && decide ((s.tile tile).task ≠ 0 ∧ k.inv ≠ 0) then s.setTask n { k with saturated := true } else s

/-- Transfer of a tile's first move, when its mode is `mode` (R166): read, transform, send. What goes to this chip's memory is written at the
completion, which makes it visible (R164). Poisoned source bytes are a contained error of the task (R369). GDDR7 bytes are charged to
the function (R101). -/
def State.moveRun (s : State) (tile mode : Nat) (arrived : List Byte) : State :=
  let t := s.tile tile
  match t.live.moves with
  | [] => s
  | op :: _ =>
    let m := moveCmd op.desc
    if m.mode ≠ mode ∨ op.written ∨ !t.unitRuns then s
    else
      let r := s.moveRead tile op arrived
      match r.2.1 with
      | .fault c i => r.1.moveFault tile c i
      | .waits => r.1
      | .ready =>
        if r.2.2.2 then r.1.containedTile tile 1 2 m.src
        else
          let o := m.transform r.2.2.1
          let w := r.1.moveSend tile op o.1
          match w.2 with
          | .fault c i => w.1.moveFault tile c i
          | .waits => w.1
          | .ready =>
            let gddr := (if m.srcVa && bits m.src 56 55 == 0 then m.srcBytes else 0) + (if m.dstVa && bits m.dst 56 55 == 0 then m.dstBytes else 0)
            let s := if gddr = 0 ∨ op.ctx = 65535 then w.1 else w.1.chargeBytes (op.ctx / 16) 6 gddr
            (s.updTile tile (fun t => t.moveWritten o.1 o.2)).moveFlag tile o.2

/-- COPY (R168): bytes unchanged, block headers included. `arrived` are the bytes the host returns for a host source. -/
def execCopy (tile : Nat) (arrived : List Byte) (s : State) : Out := .next (s.moveRun tile 0 arrived)
/-- ZERO (R168): zeros with valid check bits. -/
def execZero (tile : Nat) (s : State) : Out := .next (s.moveRun tile 1 [])
/-- NORMALISE (R130, R171). -/
def execNormalise (tile : Nat) (arrived : List Byte) (s : State) : Out := .next (s.moveRun tile 2 arrived)
/-- UNPACK_BFP (R132). -/
def execUnpackBfp (tile : Nat) (arrived : List Byte) (s : State) : Out := .next (s.moveRun tile 3 arrived)
/-- PACK_BFP (R133). -/
def execPackBfp (tile : Nat) (arrived : List Byte) (s : State) : Out := .next (s.moveRun tile 4 arrived)

/-- The first move of a tile ends: its channel is signalled and the next command's turn comes. -/
def State.moveEnds (s : State) (tile : Nat) : State :=
  let t := s.tile tile
  match t.live.moves with
  | [] => s
  | op :: rest =>
    (({ s with fabric := { s.fabric with staged := Table.erase s.fabric.staged op.id } }).setTile tile
      ({ t with live := { t.live with moves := rest } }.signal op.sync)).rankEnd tile

/-- MOVE_COMPLETE (R164, R166, R385): the last byte is written at its destination, every line of a remote one acknowledged, and the
command's channel is signalled. -/
def execMoveComplete (tile : Nat) (s : State) : Out :=
  let t := s.tile tile
  match t.live.moves with
  | [] => .next s
  | op :: _ =>
    let w := s.moveLand tile op
    .next (s.when (op.written && t.unitRuns && (op.id == 0 || !s.moveOpen op.id))
      (match w.2 with
       | .ready => w.1.moveEnds tile
       | .waits => w.1
       | .fault c i => w.1.moveFault tile c i))

end Sys2Proof.Machine
end

