-- ==== Sys2Proof/Machine/TaskEnd.lean ====
section
/-! DEFINITION. The end of a task (R98, R260, R392, R416, R447 to R449). -/

set_option linter.unusedVariables false

namespace Sys2Proof.Machine

/-- The outcome of R98 for a task that started: DELAYED above DELAY_REPORT, else SERVED. -/
def State.startOutcome (s : State) (k : Task) : Nat := if s.regN Reg.delayReport < k.startDelay then 3 else 0

/-- The record of an ended task (R448): tile-cycles, preemptions, flags, FAULT and INFO. -/
def State.endRecord (s : State) (k : Task) : Record :=
  { s.taskRecord k with
    outcome := s.startOutcome k, cycles := min (k.tenths / 10) 281474976710655, preempts := min k.preempts 4095
    invalid := k.invalid, saturated := k.saturated, fault := k.fault, info := k.info % 2 ^ 49 }

/-- Apply the signal entries of an ended task in order (R392, R416): an entry with FENCE waits for a fence of its context. The
entries left are those behind a fence. -/
def applySignals (fuel : Nat) (s : State) (n : Nat) : State :=
  match fuel with
  | 0 => s
  | fuel + 1 =>
    let k := s.task n
    match k.signals with
    | [] => s
    | e :: rest =>
      if s.fabric.fences.any (fun x => x.task == n + 1) then s
      else if e.fence && !(s.outstanding k.ctx).isEmpty then
        let x : Fence := { ctx := k.ctx, covers := s.outstanding k.ctx, task := n + 1 }
        ({ s with fabric := { s.fabric with fences := s.fabric.fences ++ [x] } }).setTask n
          { k with signals := { e with fence := false } :: rest }
      else
        let s := s.setTask n { k with signals := rest }
        let s := match s.objectOf k.ctx e.vid with
          | none => s
          | some (i, o) => if o.abandoned then s else s.signalObject i o k.ctx e.count
        applySignals fuel s n

/-- Write a task's record, unless it is QUIET and without fault (R447), and forget the task. -/
def State.completeTask (s : State) (n : Nat) : State :=
  let k := s.task n
  let s := if k.quiet && k.fault == 0 then s else s.writeRecord k.func (s.recordRing k.func k.ring) (s.endRecord k) k.urgent
  (s.releaseTask n).dropTask n

/-- What becomes of a cell's slot when one of its tasks has ended (R304, R305, R308): its sections are queued, or, after its re-run
has failed too, a downlink slot is held with cause 3 and an uplink task leaves no result, reported as HELD cause 3. -/
def State.radioEnd (s : State) (n : Nat) (k : Task) (r : RadioWork) : State :=
  let w := s.slotWork r.cell r.slot
  let failed := decide (k.fault ≠ 0)
  let ended := s.setSlotWork r.cell r.slot { w with ended := n :: w.ended }
  let s := if failed then
      (if r.hold then s
       else if r.uplink then (s.setSlotWork r.cell r.slot { w with ended := n :: w.ended, failed := w.failed ++ r.pdus }).cellEvent r.cell 4 r.slot 3
       else ended.holdSlot r.cell r.slot 3)
    else if r.hold then s.setSlotWork r.cell r.slot { w with holdReady := true } else ended
  ({ s with radio := { s.radio with work := Table.mapVals [] s.radio.work (fun _ l => l.filter (fun e => e.1 != n)) } }.releaseTask n).dropTask n

/-- TASK_COMPLETE (R416, R448): an ended task applies its signal entries, if it ended without fault, and writes its record. A radio
task, whose code is the device's own, ends here. -/
def execTaskComplete (task : Nat) (s : State) : Out :=
  let k := s.task task
  match k.radio with
  | some r => .next (s.when (s.hasTask task && (k.status == .ended || (k.status == .running && k.tiles.all (fun p => (s.tile p).live.moves.isEmpty))))
      (s.radioEnd task k r))
  | none =>
    let s1 := if k.fault = 0 then applySignals 3 s task else s
    .next (s.when (s.hasTask task && k.status == .ended && k.inv == 0)
      (if k.fault = 0 ∧ ((s1.task task).signals ≠ [] ∨ s1.fabric.fences.any (fun x => x.task == task + 1)) then s1 else s1.completeTask task))

end Sys2Proof.Machine
end

