-- ==== Sys2Proof/Machine/ModelBase.lean ====
section
/-! DEFINITION. Model slots, invocations and residency (R233 to R251, R257, R258): the lookups, the binding of fallbacks, the service
table, the areas of a tile, and the prediction that every command of running models shares. -/

set_option linter.unusedVariables false

namespace Sys2Proof.Machine

/-- What slot `m` holds. -/
def State.slot (s : State) (m : Nat) : Slot := Table.get {} s.models.slots m
/-- Set it. -/
def State.setSlot (s : State) (m : Nat) (x : Slot) : State := { s with models := { s.models with slots := Table.put {} s.models.slots m x } }
/-- Invocation `i`. -/
def State.inv (s : State) (i : Nat) : Invocation := Table.get {} s.models.invs i
/-- Whether it is admitted. -/
def State.hasInv (s : State) (i : Nat) : Bool := Table.has s.models.invs i
/-- Set it. -/
def State.setInv (s : State) (i : Nat) (x : Invocation) : State := { s with models := { s.models with invs := Table.insert s.models.invs i x } }
/-- Key of a state handle. -/
def handleKey (p h : Nat) : Nat := p * 2048 + h
/-- State handle `h` of partition `p`. -/
def State.stateHandle (s : State) (p h : Nat) : Handle := Table.get {} s.models.handles (handleKey p h)
/-- Set the handle of a key. -/
def State.putHandle (s : State) (key : Nat) (x : Handle) : State := { s with models := { s.models with handles := Table.put {} s.models.handles key x } }
/-- Set it. -/
def State.setStateHandle (s : State) (p h : Nat) (x : Handle) : State := s.putHandle (handleKey p h) x

/-! Service table (R257). -/

/-- s_i of a node: the largest of its last 64 measurements, the initial value among them until there are 64. -/
def Slot.service_ (x : Slot) (node : Nat) : Nat :=
  let l := Table.get [] x.service node
  l.foldl max (if l.length < 64 then (x.nodes.getD node { family := 0 }).serviceNs else 0)
/-- Sum of s_i over the nodes that satisfy `f`. -/
def Slot.sumOver (x : Slot) (f : Nat → Bool) : Nat := (((List.range x.nodes.length).filter f).map x.service_).sum
/-- SERVICE_SUM follows the table. -/
def State.countService (s : State) (m : Nat) : State := s.setReg (Reg.slotServiceSum m) ((s.slot m).sumOver (fun _ => true))
/-- A measurement of a node. -/
def State.measureNode (s : State) (m node ns : Nat) : State :=
  let x := s.slot m
  (s.setSlot m { x with service := Table.put [] x.service node ((ns :: Table.get [] x.service node).take 64) }).countService m

/-! Areas (R242, R243). -/

/-- Working, pinned and state area of a virtual tile. -/
def Slot.area (x : Slot) (vt : Nat) : Nat × Nat × Nat := x.areas.getD vt (0, 0, 0)
/-- Bytes of the three. -/
def Slot.need (x : Slot) (vt : Nat) : Nat := (x.area vt).1 + (x.area vt).2.1 + (x.area vt).2.2
/-- Pages of the three. -/
def Slot.needPages (x : Slot) (vt : Nat) : Nat := ceilDiv (x.need vt) 65536
/-- Bytes of the state areas of the first `n` virtual tiles: where the next one's begins in a save area, and the whole save area (R243). -/
def Slot.stateBytes (x : Slot) (n : Nat) : Nat := ((List.range n).map (fun vt => (x.area vt).2.2)).sum

/-- Physical address of byte `i` of a run of GDDR7 pages. -/
def runAddr (pages : List Nat) (i : Nat) : Nat := pages.getD (i / pageBytes) 0 * pageBytes + i % pageBytes
/-- `n` bytes of a run of pages. -/
def State.runRead (s : State) (pages : List Nat) (off n : Nat) : List Byte := (List.range n).map (fun i => Table.get 0 s.mem.gddr (runAddr pages (off + i)))
/-- Write bytes into a run of pages, at most `fuel` of them. -/
def State.runWrite (s : State) (fuel : Nat) (pages : List Nat) (off : Nat) (bs : List Byte) : State :=
  match fuel with
  | 0 => s
  | fuel + 1 =>
    let k := pageBytes - off % pageBytes
    if bs.isEmpty then s else State.runWrite (s.gddrWrite (runAddr pages off) (bs.take k)) fuel pages (off + k) (bs.drop k)
/-- A granule of the bytes returns poison (R369). -/
def State.runPoisoned (s : State) (pages : List Nat) (off n : Nat) : Bool :=
  s.mem.poison.any (fun g => (List.range pages.length).any (fun j =>
    pages.getD j 0 == g / 8192 && decide (j * pageBytes + 256 * (g % 8192) < off + n ∧ off < j * pageBytes + 256 * (g % 8192) + 256)))

/-! Fallback (R238). -/

/-- Slot `n` can serve in place of slot `m`. -/
def State.canServe (s : State) (m n : Nat) : Bool :=
  let x := s.slot m
  let y := s.slot n
  n != m && s.reg (Reg.slotState n) == 2 && s.reg (Reg.slotOwner n) == s.reg (Reg.slotOwner m)
    && s.reg (Reg.slotPartition n) == s.reg (Reg.slotPartition m) && y.fallback.isNone && x.fallback == some (s.blob (Reg.slotManifestDigest n))
    && x.ios.map (fun e => (e.length, e.output)) == y.ios.map (fun e => (e.length, e.output)) && s.reg (Reg.slotBatch n) == s.reg (Reg.slotBatch m)
    && x.areas.map (fun e => e.2.2) == y.areas.map (fun e => e.2.2)
/-- Binding is evaluated again for every slot with a FALLBACK section: the lowest slot that can serve. -/
def State.bindFallbacks (s : State) : State :=
  s.models.slots.foldl (fun s (e : Nat × Slot) =>
    s.setReg (Reg.slotFallbackSlot e.1)
      (if e.2.fallback.isNone then 0xFFFF
       else match (List.range 256).find? (s.canServe e.1) with | some n => (n : Int) | none => 0xFFFF)) s
/-- The bound slot of slot `m`. -/
def State.boundTo (s : State) (m : Nat) : Option Nat := if s.reg (Reg.slotFallbackSlot m) = 0xFFFF then none else some (s.regN (Reg.slotFallbackSlot m))

/-! Residency (R244). Resident bytes that no invocation uses are held with their handle (log entry 148). -/

/-- Items in order with their bytes: those to evict until `used` fits tile SRAM, and what is used then. -/
def evictUntil {α : Type} (used : Nat) (l : List (α × Nat)) : List α × Nat :=
  match l with
  | [] => ([], used)
  | e :: r => if used ≤ sramBytes then ([], used) else let x := evictUntil (used - e.2) r; (e.1 :: x.1, x.2)
/-- Insert into a list sorted by a key. -/
def insertKey (key : α → List Nat) (l : List α) (e : α) : List α :=
  match l with
  | [] => [e]
  | x :: r => if key e < key x then e :: x :: r else x :: insertKey key r e

/-- State areas resident on tile `p`: key of the handle, virtual tile; least recently used first, ties to the lower handle. -/
def State.statesOn (s : State) (p : Nat) : List (Nat × Nat) :=
  ((s.models.handles.flatMap (fun (e : Nat × Handle) =>
      (List.filter (fun (a : Nat × Nat × List Byte) => a.2.1 == p) e.2.areas).map (fun a => (e.2.lastEnd, e.1, a.1)))).foldl
    (insertKey (fun x => [x.1, x.2.1, x.2.2])) []).map (fun x => x.2)
/-- Bytes of a state area. -/
def State.stateSize (s : State) (e : Nat × Nat) : Nat := ((s.slot ((Table.get {} s.models.handles e.1).slot - 1)).area e.2).2.2

/-- What residency of slot `m` and handle `h` takes on one tile: pinned areas that leave, each a slot and virtual tile; state areas that
leave, each a handle's key and virtual tile; bytes written back, bytes brought in. -/
structure Residency where
  slots : List (Nat × Nat)
  states : List (Nat × Nat)
  out : Nat
  into : Nat
deriving DecidableEq, Repr

/-- R244 on physical tile `p`, which holds virtual tile `vt`: pinned areas of other slots first (in ascending slot number; log entry 28), then
state areas of other handles; the invocation's own state, where it is resident on another tile, leaves that. -/
def State.residency (s : State) (part m h vt p : Nat) : Residency :=
  let a := (s.slot m).area vt
  let key := handleKey part h
  let here := Table.get [] s.models.pinnedOn p
  let others := (here.filter (fun n => n != (m, vt))).foldl (insertKey (fun x => [x.1, x.2])) []
  let states := (s.statesOn p).filter (fun e => e != (key, vt))
  let own := if h = 0 then 0 else a.2.2
  let pinned := fun (e : Nat × Nat) => ((s.slot e.1).area e.2).2.1
  let used := a.1 + a.2.1 + own + (others.map pinned).sum + (states.map s.stateSize).sum
  let x := evictUntil used (others.map (fun n => (n, pinned n)))
  let y := evictUntil x.2 (states.map (fun e => (e, s.stateSize e)))
  let at' := Table.find? (s.stateHandle part h).areas vt
  let there := match at' with | some q => q.1 == p | none => false
  { slots := x.1, states := y.1
    out := (y.1.map s.stateSize).sum + (if at'.isSome && !there then own else 0)
    into := (if here.contains (m, vt) then 0 else a.2.1) + (if there then 0 else own) }

/-- A state area is written to its save area in GDDR7 and is no longer resident (R244). -/
def State.evictArea (s : State) (e : Nat × Nat) : State :=
  let h := Table.get {} s.models.handles e.1
  match Table.find? h.areas e.2 with
  | none => s
  | some a => (s.runWrite (h.pages.length + 1) h.pages ((s.slot (h.slot - 1)).stateBytes e.2) a.2).putHandle e.1 { h with areas := Table.erase h.areas e.2 }
/-- A tile leaves its partition: its state areas are written to their save areas, its pinned areas dropped (R70, R244). -/
def State.clearResidency (s : State) (p : Nat) : State :=
  let s := (s.statesOn p).foldl State.evictArea s
  { s with models := { s.models with pinnedOn := Table.erase s.models.pinnedOn p } }
/-- What was resident on tile `a` is resident on tile `b` (R10, R532). -/
def State.moveResidency (s : State) (a b : Nat) : State :=
  let moved := fun (x : Nat × List Byte) => if x.1 = a then (b, x.2) else x
  { s with models := { s.models with
    handles := Table.mapVals {} s.models.handles (fun _ h => { h with areas := h.areas.map (fun (e : Nat × Nat × List Byte) => (e.1, moved e.2)) })
    pinnedOn := Table.put [] (Table.erase s.models.pinnedOn a) b (Table.get [] s.models.pinnedOn a) } }

/-! Changing models (R251) and the prediction (R258). -/

/-- GDDR7 bandwidth of the configuration in bytes per ns (R251). -/
def State.gddrBandwidth (s : State) : Nat := s.mem.devices * s.mem.rate * 4
/-- The first wave of a slot: what each virtual tile receives first of the first node that has waves (R251 and its example; log entry
156). -/
def Slot.firstWaves (x : Slot) : List Wave :=
  match (x.nodes.map (fun r => r.waves)).find? (fun l => !l.isEmpty) with
  | none => []
  | some l => ((List.range l.length).zip l).filterMap (fun e => if e.2.vtiles.any (fun vt => (l.take e.1).all (fun w => !w.vtiles.contains vt)) then some e.2 else none)
/-- t_switch of R251 in ns, rounded up; 0 without a switch. -/
def State.tSwitch (s : State) (p m h : Nat) : Nat :=
  if Table.get 0 s.models.lastSlot p = m + 1 then 0
  else
    let tiles := (s.part p).tiles
    let r := ((List.range tiles.length).zip tiles).map (fun e => s.residency p m h e.1 e.2)
    let swap := max 1 (min (s.gddrBandwidth * s.regN (Reg.partSwapShare p)) (min ((s.clustersOf p).length * 230400) (s.regN (Reg.slotTiles m) * 57600)))
    let w := (s.slot m).firstWaves.map (fun w => w.length)
    3000 + ceilDiv (100 * ((r.map (fun x => x.out + x.into)).sum)) swap + max (ceilDiv (100 * w.sum) swap) (ceilDiv (w.foldl max 0) 576)

/-- The invocation before one on its partition. -/
def State.previousInv (s : State) (p i : Nat) : Option Invocation :=
  ((List.filter (fun (e : Nat × Invocation) => e.2.part == p && decide (e.1 < i)) s.models.invs).getLast?).map (fun e => e.2)
/-- Predicted completion at admission in ns (R258). -/
def State.predict (s : State) (p m h target before : Nat) : Nat :=
  max (50 * target) before + s.tSwitch p m h + (s.slot m).sumOver (fun _ => true) + s.regN Reg.monitorMargin
/-- Count a flag fall of a slot (R260). -/
def State.flagFall (s : State) (m : Nat) : State := (s.bump Reg.flagFalls 1).bump (Reg.slotFlagFalls m) 1

/-! Tiles of an invocation. -/

/-- Physical tile of a virtual tile of an invocation. -/
def State.invTile (s : State) (i vt : Nat) : Option Nat := (s.task (s.inv i).task).tiles[vt]?
/-- The same with the byte at which its areas begin there. -/
def State.areaAt (s : State) (i vt : Nat) : Option (Nat × Nat) := (s.invTile i vt).map (fun p => (p, (s.inv i).bases.getD vt 0))
/-- Every rank of the invocation holds its tile, and none is being saved or restored. -/
def State.invPlaced (s : State) (i : Nat) : Bool :=
  let n := (s.inv i).task
  let k := s.task n
  k.status == .running && k.tiles.length == k.vcount && k.tiles.all (fun p => (s.tile p).task == n + 1 && (s.tile p).switching == 0 && decide ((s.tile p).sleep ≤ 1))

/-- The areas of an invocation on a tile: the working area reads zero, the pinned tensors and the handle's state are there, in this order
(log entry 29). -/
def Tile.layAreas (t : Tile) (base : Nat) (a : Nat × Nat × Nat) (pinned state : List Byte) : Tile :=
  ((t.zeroRange base (base + a.1)).write (base + a.1) pinned).write (base + a.1 + a.2.1) state
/-- Kernels of a slot that a tile's instruction memory lacks are copied in, charged to the invocation's task (R204, R251). -/
def State.loadSlotCode (s : State) (n m p : Nat) : State :=
  let k := s.task n
  let t := s.tile p
  let new := (s.slot m).kernels.filter (fun h => !t.code.contains h)
  let tenths := 10 * ceilDiv ((new.map s.codeBytes).sum) 256
  if new.isEmpty then s
  else ((s.setTile p { t with code := s.trimCode (s.codeRoom p) (t.code ++ new) }).setTask n { k with tenths := k.tenths + tenths }).chargeCycles k.func k.klass tenths
/-- Make an invocation's areas resident on the tile of virtual tile `vt` (R242, R244) and its kernels loaded (R251); bytes moved are
GDDR7 bytes of the function. -/
def State.bringIn (s : State) (i vt p : Nat) : State :=
  let v := s.inv i
  let m := v.serving
  let k := s.task v.task
  let x := s.slot m
  let a := x.area vt
  let key := handleKey v.part v.handle
  let base := v.bases.getD vt 0
  let r := s.residency v.part m v.handle vt p
  let held := match Table.find? (s.stateHandle v.part v.handle).areas vt with | some q => if q.1 = p then some q.2 else none | none => none
  let s := r.states.foldl State.evictArea s
  let s := if held.isNone then s.evictArea (key, vt) else s
  let h := s.stateHandle v.part v.handle
  let state := if v.handle = 0 then [] else fit a.2.2 (held.getD (s.runRead h.pages (x.stateBytes vt) a.2.2))
  let pinned := s.runRead x.pages (x.pins.getD vt 0) a.2.1
  let pins := (Table.get [] s.models.pinnedOn p).filter (fun n => !r.slots.contains n && n != (m, vt))
  let s := { s with models := { s.models with pinnedOn := Table.put [] s.models.pinnedOn p (if a.2.1 = 0 then pins else pins ++ [(m, vt)]) } }
  let s := if v.handle = 0 then s else s.putHandle key { h with areas := Table.insert h.areas vt (p, []) }
  let s := if r.out + r.into = 0 then s else s.chargeBytes k.func 6 (r.out + r.into)
  (s.updTile p (fun t => ((List.range (x.needPages vt)).foldl (fun t g => t.grantPage (base / 65536 + g) k.func k.ctx) t).layAreas base a pinned state)).loadSlotCode
    v.task m p
/-- Make the areas of an invocation resident on all its tiles; its slot is the last one of the partition. -/
def State.bringAll (s : State) (i : Nat) (tiles : List Nat) : State :=
  let v := s.inv i
  let s := ((List.range tiles.length).zip tiles).foldl (fun s (e : Nat × Nat) => s.bringIn i e.1 e.2) s
  { s with models := { s.models with lastSlot := Table.put 0 s.models.lastSlot v.part (v.serving + 1) } }

/-- The handle's state as its areas hold it now stays with the handle (R244: written in place). -/
def State.keepState (s : State) (i : Nat) : State :=
  let v := s.inv i
  let x := s.slot v.serving
  let k := s.task v.task
  let h := s.stateHandle v.part v.handle
  if v.handle = 0 ∨ h.slot = 0 then s
  else
    let now := fun (vt : Nat) (q : Nat × List Byte) =>
      let a := x.area vt
      if k.tiles[vt]? = some q.1 then (q.1, (s.tile q.1).read (v.bases.getD vt 0 + a.1 + a.2.1) a.2.2) else q
    s.setStateHandle v.part v.handle { h with lastEnd := s.lnc, areas := h.areas.map (fun (e : Nat × Nat × List Byte) => (e.1, now e.1 e.2)) }

/-- Give up the pages that an invocation's areas had, but those that its context has mapped (R594), and the loan windows it borrowed. -/
def State.leaveTiles (s : State) (i : Nat) : State :=
  let v := s.inv i
  let k := s.task v.task
  let x := s.slot v.serving
  let mapped := fun vt g => s.mem.maps.any (fun (e : Nat × Mapping) => e.1 / regionUnits == k.ctx &&
    (match e.2 with | .sram p w h _ _ => p == v.part && w == vt && h == g | _ => false))
  ((List.range k.tiles.length).zip k.tiles).foldl (fun s (e : Nat × Nat) =>
    let base := v.bases.getD e.1 0 / 65536
    s.updTile e.2 (fun t =>
      let t := (((List.range (x.needPages e.1)).map (fun g => base + g)).filter (fun g => !mapped e.1 g)).foldl (fun t g => t.dropPage g k.ctx) t
      if t.borrower = v.task + 1 then t.unlend else t)) s

/-- An invocation that is to start afresh from its first node (R79, R519). -/
def Invocation.restarted (v : Invocation) : Invocation :=
  { v with running := false, begun := [], done := [], skipped := [], abandoned := false, exit := 0, waves := [], ran := [], gates := [], summed := [], stateWritten := false
           bases := [] }
/-- The waves of an invocation that stand in the stages are gone. -/
def State.clearStage (s : State) (i : Nat) : State :=
  let keep := fun (l : List Staged) => l.filter (fun e => e.owner != i + 1)
  { s with tiles := Table.mapVals {} s.tiles (fun _ t => { t with streamB := keep t.streamB, streamMv := keep t.streamMv }) }
/-- A run of an invocation is given up; it waits to be placed and started again (R79, R519). -/
def State.restartInv (s : State) (i : Nat) : State :=
  let v := s.inv i
  let s := ((s.keepState i).leaveTiles i).clearStage i
  let s := ((s.releaseTask v.task).setInv i v.restarted)
  let s := { s with models := { s.models with reductions := Table.keep s.models.reductions (fun k _ => k / 65536 != i) } }
  s.setTask v.task { s.task v.task with
    status := .waiting, rerunDue := false, tiles := [], saves := [], started := [], halted := [], replies := [], again := [], remoteWait := 0 }

/-- A contained error of an invocation that memory of the chip gives it (R369, R519): logged, and its task handled. -/
def State.containedInv (s : State) (i pa : Nat) : State :=
  let v := s.inv i
  (s.logError { klass := 1, unit := 10, code := 2, cluster := 9, function := (s.task v.task).func, partition := some v.part, detail := pa }).containedTask v.task

end Sys2Proof.Machine
end

