-- ==== Sys2Proof/Machine/SecBase.lean ====
section
/-! DEFINITION. The chip's identity (R569, R570, R573): measurement blocks, the derivation of the alias key, its identifier. The
functions are those of outside standards (log entry 8). -/

set_option linter.unusedVariables false

namespace Sys2Proof.Machine

/-- Digest and SVN of a running image. -/
def imageMark (i : Option FwImage) : List Byte := match i with | some x => fit 64 x.digest ++ bytesOf 2 x.svn | none => zeros 66
/-- Owner key of a slot; empty where the slot is. -/
def State.ownerKey (s : State) (k : Nat) : List Byte := s.blob (Reg.okeyOwnerKey k)
/-- Measurement blocks 1 to 7 (R573). -/
def State.measureBlock (s : State) (i : Nat) : List Byte :=
  let run := fun k => imageMark (Table.find? s.sec.running k)
  match i with
  | 1 => Config.sha512 Config.romImage
  | 2 => run 1
  | 3 => run 2
  | 4 => (List.range 8).flatMap (fun n => run (48 + n))
  | 5 => (List.range 8).flatMap (fun n => run (64 + n))
  | 6 => [if s.sec.unlocked then 1 else 0, if s.sec.ownerSign then 1 else 0]
      ++ (List.range 4).flatMap (fun k => bytesOf 2 (s.regN (Reg.rollbackCount k))) ++ Config.sha512 ((List.range 4).flatMap (fun k => s.ownerKey k))
  | 7 => s.blob Reg.bookDigest
  | _ => []
/-- Private seed of the alias key: label ZK-ALIAS. -/
def State.aliasSeed (s : State) : List Byte :=
  let cdi1 := Config.hmacSha512 cdi0 (Config.sha512 ((List.range 5).flatMap (fun i => s.measureBlock (i + 2))))
  (Config.hmacSha512 cdi1 (ascii [0x5A, 0x4B, 0x2D, 0x41, 0x4C, 0x49, 0x41, 0x53])).take 32
/-- ALIAS_KEY_ID (R103). -/
def State.aliasId (s : State) : List Byte := (Config.sha512 (Config.ed25519Public s.aliasSeed)).take 32

/-- A change of a measurement block: the alias key is to be derived again (R570). -/
def State.rederive (s : State) : State := { s with sec := { s.sec with deriving' := true } }

end Sys2Proof.Machine
end

