-- ==== Sys2Proof/Machine/FabricRows.lean ====
section
/-! DEFINITION. The commands of the fabric (ch. 13): packets that arrive, links, jobs, failure detection, fences, requests that
wait too long, and the sync messages of proxies (R424). -/

set_option linter.unusedVariables false

namespace Sys2Proof.Machine

/-! Sync messages (R424). The operand block: home ID in [15:0], proxy ID in [31:16] of the first word, count in the second
(log entry 26). -/

/-- Home ID of a sync message. -/
def homeIdOf (p : Packet) : Nat := p.operand % 65536
/-- Proxy ID of a sync message. -/
def proxyIdOf (p : Packet) : Nat := p.operand / 65536 % 65536
/-- Count a received SYNC_SIGNAL or SYNC_GRANT (R427). -/
def State.countReceived (s : State) (j : Nat) : State := s.setQuiet j { s.quietOf j with received := (s.quietOf j).received + 1 }

/-- The home object that a sync message names: one of the context bound to the job entry. -/
def State.homeObject (s : State) (p : Packet) (c : Nat) : Option SyncObj :=
  match s.object (homeIdOf p) with | some o => if o.owner + 1 = c then some o else none | none => none
/-- The holder number of the proxy that a message comes from (R424). -/
def proxyHolder (p : Packet) : Nat := 65536 * (p.src + 1) + proxyIdOf p
/-- The home knows its proxies, which an abandonment tells (R421). -/
def SyncObj.knows (o : SyncObj) (j : Nat) (p : Packet) : SyncObj :=
  { o with proxies := if o.proxies.contains (j, p.src, proxyIdOf p) then o.proxies else o.proxies ++ [(j, p.src, proxyIdOf p)] }

/-- SYNC_SIGNAL at the home: a SIGNAL under R410 and R420, once. -/
def State.homeSignal (s : State) (p : Packet) : State :=
  s.atHome p (fun s j c => s.once p 0x22 (fun s =>
    let s := s.countReceived j
    let s := match s.homeObject p c with
      | some o => if o.abandoned then s else (s.setObject (homeIdOf p) (o.knows j p)).signalObject (homeIdOf p) (o.knows j p) (proxyHolder p) p.compare
      | none => s
    (s.record p 0 0).respond p 0x22 0 0 []))

/-- The wait of a proxy is evaluated at the home (R415). -/
def State.waitAt (s : State) (i : Nat) (w : Waiter) : State :=
  match s.object i with
  | none => s
  | some o =>
    if o.kind = 1 then
      let r := s.arrive i o
      if r.2.2 then (r.1.grant i o w).1.settle r.2.1
      else match r.1.object i with
        | some o' => r.1.setObject i { o' with waiters := queueWaiter o'.waiters w }
        | none => r.1
    else
      let ws := queueWaiter o.waiters w
      let r := serveWaiters (s.setObject i { o with waiters := ws }) i ws
      r.1.settle r.2

/-- SYNC_WAIT at the home: the waiter is queued under R415 and granted when it can be, but waits at a frozen part (R427). It is
acknowledged at once; the answer tells the holders and the state of the object (log entry 132). A wait for an object that is gone is
answered as for an abandoned one. -/
def State.homeWait (s : State) (p : Packet) : State :=
  s.atHome p (fun s j c => s.once p 0x22 (fun s =>
    let i := homeIdOf p
    let gone := s.syncSend j (s.regN (Reg.jobClass j)) p.src 0x1B i (proxyIdOf p) 0
    let s := match s.homeObject p c with
      | none => gone
      | some o =>
        if o.abandoned then gone
        else
          let w : Waiter := { since := s.lnc, ctx := 65535, seq := 0, task := 0, entry := 0, count := p.compare, node := p.src, job := j, proxy := proxyIdOf p }
          let part := s.partNo o.owner
          let q := s.quietOf part
          let s := s.setObject i (o.knows j p)
          if q.frozen then s.setQuiet part { q with heldWaits := q.heldWaits ++ [(i, w)] } else s.waitAt i w
    let seen := match s.homeObject p c with | some o => min o.holders.length 8 * 2 ^ 32 + o.value % 2 ^ 32 | none => 0
    (s.record p 0 seen).respond p 0x22 0 seen []))

/-- SYNC_GRANT at the proxy: the first local waiter for that count is satisfied; units that no waiter is left for go back to the home
(R421, R424; log entry 132). -/
def State.proxyGrant (s : State) (p : Packet) : State :=
  s.atHome p (fun s j c => s.once p 0x21 (fun s =>
    let s := s.countReceived j
    let i := proxyIdOf p
    let s := match s.object i with
      | some o =>
        (match o.waiters.find? (fun (w : Waiter) => w.count == p.compare) with
         | some w =>
           let g := (s.setObject i { o with waiters := o.waiters.erase w }).grant i o w
           g.1.settle g.2
         | none => if o.kind = 0 ∧ o.remoteJob ≠ 0 then s.signalObject i o o.owner p.compare else s)
      | none => s
    (s.record p 0 0).respond p 0x21 0 0 []))

/-- SYNC_ABANDON (R421): at a proxy, its home object is abandoned, and so is the proxy. At the home, a proxy's context has ended: the
object is abandoned if units are held through the proxy, else only the proxy's waits go. -/
def State.syncAbandoned (s : State) (p : Packet) : State :=
  s.atHome p (fun s j c => s.once p 0x21 (fun s =>
    let isProxy := match s.object (proxyIdOf p) with | some o => o.remoteJob == j + 1 && o.homeNode == p.src && o.homeId == homeIdOf p | none => false
    let s := if isProxy then s.abandonObject (proxyIdOf p) false State.returnUnits
      else match s.homeObject p c with
      | none => s
      | some o =>
        if Table.has o.holders (proxyHolder p) then s.abandon (homeIdOf p)
        else
          let mine := fun (w : Waiter) => w.task == 0 && w.node == p.src && w.proxy == proxyIdOf p
          let ws := o.waiters.filter (fun w => !mine w)
          let r := serveWaiters (s.setObject (homeIdOf p) { o with waiters := ws, proxies := o.proxies.filter (fun x => x != (j, p.src, proxyIdOf p)) }) (homeIdOf p) ws
          r.1.settle r.2
    (s.record p 0 0).respond p 0x21 0 0 []))

/-! Heartbeats (R404, R405). -/

/-- A heartbeat from a peer that is not declared dead; its W64 bit tells whether the peer names this chip in its QUAD_PEERS, which
QUAD_STATUS shows (R396; log entry 130). -/
def State.gotHeartbeat (s : State) (p : Packet) : State :=
  if !s.hears p then s
  else
    let at' := ((s.quadPlaces.filter (fun e => e.2 == p.src)).map (fun e => e.1)).head?
    let s := { s with fabric := { s.fabric with heard := Table.put 0 s.fabric.heard p.src (s.time.ticks + 1) } }
    match at' with
    | none => s
    | some i =>
      let q := s.regN Reg.quadStatus
      s.setReg Reg.quadStatus (if bit q i == p.w64 then q else if p.w64 then q + 2 ^ i else q - 2 ^ i : Nat)

/-- DEAD_SET reads the dead nodes (R409). -/
def State.setDead (s : State) (dead : List Nat) : State :=
  let bytes := (List.range 512).map (fun i => BitVec.ofNat 8 (((List.range 8).map (fun b => if dead.contains (8 * i + b) then 2 ^ b else 0)).sum))
  ({ s with fabric := { s.fabric with dead := dead } }).setBlob Reg.deadSet (if dead.isEmpty then [] else bytes)

/-! Packets that arrive. -/

/-- A packet that names no ACTIVE job entry with its source in the map (R384); chip control, time words and fillers have none. -/
def State.jobless (s : State) (p : Packet) : Bool := decide (p.job ≠ controlJob ∧ p.opcode ≠ 0 ∧ p.opcode < 0x30) && (s.homeOf p).isNone

/-- What a packet for this node does, by opcode (R384, R387, R424). -/
def State.handle (s : State) (p : Packet) : State :=
  if s.hears p && s.jobless p then s.bump Reg.noJobDrops 1
  else match p.opcode with
  | 0x01 => s.homeLoad p
  | 0x02 => s.homeStore p
  | 0x03 => s.homeReadWord p
  | 0x18 => s.homeSignal p
  | 0x19 => s.homeWait p
  | 0x1A => s.proxyGrant p
  | 0x1B => s.syncAbandoned p
  | 0x20 => s.gotData p
  | 0x21 => s.gotAck p
  | 0x22 => s.gotReply p
  | 0x28 => s.homeGetS p
  | 0x29 => s.holderInv p
  | 0x2A => s.homeInvAck p
  | 0x2B => s.homeEvict p
  | 0x30 => s.gotHeartbeat p
  | op => if 0x08 ≤ op ∧ op ≤ 0x10 then s.homeAtomic p else s

/-- A packet from a link: for this node it is handled, else forwarded on its channel (R380, R382); one from a node that is declared dead is
discarded (R405). -/
def State.deliver (s : State) (p : Packet) : State :=
  if s.node = 0xFFFF ∨ s.fabric.dead.contains p.src then s else if p.dst = s.node then s.handle p else s.route p

/-- A packet command: the packet arrives with the opcode of its row. -/
def State.arrives (s : State) (p : Packet) (op : Nat) : State := s.deliver { p with opcode := op }

/-- LOAD (R387). -/
def execLoad (p : Packet) (s : State) : Out := .next (s.arrives p 0x01)
/-- STORE (R387, R398, R402). -/
def execStore (p : Packet) (s : State) : Out := .next (s.arrives p 0x02)
/-- READ (R387). -/
def execRead (p : Packet) (s : State) : Out := .next (s.arrives p 0x03)
/-- FETCH_ADD (R387). -/
def execFetchAdd (p : Packet) (s : State) : Out := .next (s.arrives p 0x08)
/-- SWAP (R387). -/
def execSwap (p : Packet) (s : State) : Out := .next (s.arrives p 0x09)
/-- CAS (R387). -/
def execCas (p : Packet) (s : State) : Out := .next (s.arrives p 0x0A)
/-- MIN_S (R387). -/
def execMinS (p : Packet) (s : State) : Out := .next (s.arrives p 0x0B)
/-- MAX_S (R387). -/
def execMaxS (p : Packet) (s : State) : Out := .next (s.arrives p 0x0C)
/-- MIN_U (R387). -/
def execMinU (p : Packet) (s : State) : Out := .next (s.arrives p 0x0D)
/-- MAX_U (R387). -/
def execMaxU (p : Packet) (s : State) : Out := .next (s.arrives p 0x0E)
/-- FADD_F32 (R135, R387). -/
def execFaddF32 (p : Packet) (s : State) : Out := .next (s.arrives p 0x0F)
/-- FADD_F64 (R387). -/
def execFaddF64 (p : Packet) (s : State) : Out := .next (s.arrives p 0x10)
/-- DATA (R387, R389). -/
def execData (p : Packet) (s : State) : Out := .next (s.arrives p 0x20)
/-- ACK (R385, R389). -/
def execAck (p : Packet) (s : State) : Out := .next (s.arrives p 0x21)
/-- GET_S (R397). -/
def execGetS (p : Packet) (s : State) : Out := .next (s.arrives p 0x28)
/-- INV (R398). -/
def execInv (p : Packet) (s : State) : Out := .next (s.arrives p 0x29)
/-- EVICT_S (R387, R397). -/
def execEvictS (p : Packet) (s : State) : Out := .next (s.arrives p 0x2B)
/-- HEARTBEAT (R404). -/
def execHeartbeat (p : Packet) (s : State) : Out := .next (s.arrives p 0x30)
/-- SYNC_SIGNAL (R424). -/
def execSyncSignal (p : Packet) (s : State) : Out := .next (s.arrives p 0x18)
/-- SYNC_WAIT (R424). -/
def execSyncWait (p : Packet) (s : State) : Out := .next (s.arrives p 0x19)
/-- SYNC_GRANT (R424). -/
def execSyncGrant (p : Packet) (s : State) : Out := .next (s.arrives p 0x1A)
/-- SYNC_ABANDON (R421, R424). -/
def execSyncAbandon (p : Packet) (s : State) : Out := .next (s.arrives p 0x1B)

/-! Links. -/

/-- Forget what a link had under way. -/
def Link.cleared (x : Link) : Link := { rxNext := 0, txNext := 0, paused := [], retrainAt := 0, sinceBe := x.sinceBe }

/-- The link reads DOWN and the loss is logged (R343, R517, R527). -/
def State.linkLost (s : State) (l : Nat) : State := (s.setLinkUp l 0).logError { klass := 0, unit := 13, code := 12, cluster := 9, detail := l }

/-- A NAK or ACK of a received flit (R379): flits it covers leave the retry buffer; on NAK the rest is replayed, and after 8
replays without progress the link retrains. -/
def State.acknowledge (s : State) (l ack : Nat) (nak : Bool) : State :=
  let x := s.link l
  let left := x.buffer.filter (fun (e : Nat × Packet) => decide ((e.1 + 65536 - ack) % 65536 < 32768 ∧ e.1 ≠ ack))
  let moved := decide (left.length < x.buffer.length)
  let s := s.setLink l { x with buffer := left, replays := if moved then 0 else x.replays }
  if !nak ∨ left.isEmpty then pump x.queue.length s l
  else
    let n := (s.link l).replays + 1
    let s := s.bump (Reg.linkFlitReplays l) 1
    if 8 < n then
      ((s.setLink l { (s.link l).cleared with queue := x.queue, retrainAt := s.time.ticks + 1 }).setLinkUp l 1).bump (Reg.linkRetrains l) 1
    else left.foldl (fun s (e : Nat × Packet) => s.emit (.packet l e.2)) ((s.setLink l { s.link l with replays := n }).emit (.flit l 2 ((ack + 1) % 65536)))

/-- The space of packets that have been delivered is free: their credits go back, channel by channel (R378, R393). -/
def State.returnCredits (s : State) (l : Nat) (ps : List Packet) : State :=
  vcOrder.foldl (fun s v =>
    let n := ((ps.filter (fun p => p.vc == v)).map packetCredits).sum
    if n = 0 then s else s.emit (.flit l (3 + v) n)) s

/-- FLIT_RECEIVE (R378, R379, R393): a flit with a bad CRC or out of order is discarded and NAKed; a good one is acknowledged, its ACK,
NAK and credits taken, and its packets delivered or forwarded. -/
def execFlitReceive (link : Nat) (f : Flit) (s : State) : Out :=
  let x := s.link link
  let last := (x.rxNext + 65535) % 65536
  let good :=
    let s1 := (s.setLink link { x with
      rxNext := (x.rxNext + 1) % 65536
      used := Table.put 0 x.used f.cvc (Table.get 0 x.used f.cvc - f.credits) }).emit (.flit link 0 f.seq)
    (f.packets.foldl State.deliver (s1.acknowledge link f.ack f.nak)).returnCredits link f.packets
  .next (s.when (s.linkUp link && s.linkZfl link && decide (x.retrainAt = 0))
    (if f.crcOk ∧ f.seq = x.rxNext then good else s.emit (.flit link 1 last)))

/-- LINK_RETRAIN_COMPLETE (R379): back in service, or DOWN. -/
def execLinkRetrainComplete (link : Nat) (ok : Bool) (s : State) : Out :=
  let x := s.link link
  let s1 := s.setLink link { x.cleared with queue := x.queue }
  .next (s.when (decide (x.retrainAt ≠ 0))
    (if ok then pump x.queue.length (s1.setLinkUp link 2) link
     else (s.setLink link x.cleared).linkLost link))

/-- LINK_DOWN (R379, R395): the link reads DOWN, leaves every path list, and its packets are lost. -/
def execLinkDown (link : Nat) (s : State) : Out :=
  .next (s.when (decide ((s.link link).up ≠ 0)) ((s.setLink link (s.link link).cleared).linkLost link))

/-- FABRIC_LINK_UP (R377): a link with a mode trains and reads UP, with the node at its far end. -/
def execFabricLinkUp (link peer : Nat) (s : State) : Out :=
  .next (s.when (decide (s.reg (Reg.linkMode link) ≠ 0) && decide ((s.link link).up ≤ 1))
    (((s.setLink link (s.link link).cleared).setLinkUp link 2).setReg (Reg.linkPeer link) (if s.linkZfl link then (peer : Int) else 65535)))

/-- FABRIC_FRAME_RECEIVE (R41, R47, R381): by its EtherType a frame delivers its packets, a PTP message, or the PFC that pauses the given
priorities from now on. A frame with an FCS error is lost. -/
def execFabricFrameReceive (link etherType : Nat) (packets : List Packet) (priorities : List Nat) (ptp : Option PtpMsg) (fcsOk : Bool) (s : State) : Out :=
  let paused := (List.range 7).filter (fun v => priorities.contains (s.pcpOf v))
  let s1 : State :=
    if etherType = s.regN Reg.fabricEthertype then packets.foldl State.deliver s
    else if etherType = 0x88F7 then (match ptp with | some m => s.ptpHear link m | none => s)
    else if etherType = 0x8808 then pump (s.link link).queue.length (s.setLink link { s.link link with paused := paused }) link
    else s
  .next (s.when (s.linkUp link && decide (5 ≤ s.reg (Reg.linkMode link)) && fcsOk) s1)

/-! Heartbeats and death. -/

/-- HEARTBEAT_SEND (R404): every HB_PERIOD, over every path to every peer; not while both chip control cores hang. -/
def execHeartbeatSend (s : State) : Out :=
  let beat := fun (s : State) n => (s.paths n).foldl (fun s l => s.linkSend l
    { blankPacket with opcode := 0x30, vc := 6, src := s.node, dst := n, job := controlJob, w64 := s.quadPeerList.contains n }) s
  .next (s.when (s.node != 0xFFFF && s.passed s.fabric.heartbeatAt (s.regN Reg.hbPeriod) && decide (s.relia.ctHung.length < 2))
    (s.peers.foldl beat { s with fabric := { s.fabric with heartbeatAt := s.time.ticks } }))

/-- READMIT (R405): refused while any job entry maps the node. -/
def readmitRule (s : State) (node : Nat) : Option State :=
  if (List.range 64).any (fun j => s.jobState j != 0 && (s.jobNodes j).contains node) then some s else none
/-- The verdict is lifted. -/
def readmitEffect (s : State) (node : Nat) : State :=
  let s := s.setDead (s.fabric.dead.filter (fun n => n != node))
  { s with fabric := { s.fabric with heard := Table.put 0 s.fabric.heard node (s.time.ticks + 1) } }

/-! Requests that wait. -/

/-- REQUEST_RETRY (R401): 1, 2 and 3 × REQ_TIMEOUT after the first transmission the request is sent again with RETRY set and the
same tag, on the path that R395 now selects. A request of the device to a node that was dead when it was issued completes with
PEER_DEAD (R405; log entry 131). -/
def execRequestRetry (id : Nat) (s : State) : Out :=
  match Table.find? s.fabric.requests id with
  | none => .next s
  | some r =>
    let p := { r.packet with retry := true }
    let s1 := { s with fabric := { s.fabric with requests := Table.insert s.fabric.requests id { r with retries := r.retries + 1 } } }
    let s2 := match (List.range 64).find? (fun j => s.jobState j != 0 && s.regN (Reg.jobId j) == p.job) with | some j => s1.bump (Reg.jobRetries j) 1 | none => s1
    if s.fabric.dead.contains r.packet.dst then .next (s.failRequest id 16)
    else .next (s.when (decide (r.retries < 3) && s.passed r.sentAt ((r.retries + 1) * s.regN Reg.reqTimeout))
      ((s2.chargeBytes (s2.jobPayer p.job) 7 (packetBytes p)).route p))

/-- REQUEST_LOST (R401): no response by 4 × REQ_TIMEOUT. -/
def execRequestLost (id : Nat) (s : State) : Out :=
  match Table.find? s.fabric.requests id with
  | none => .next s
  | some r => .next (s.when (s.passed r.sentAt (4 * s.regN Reg.reqTimeout)) (s.failRequest id 17))

/-- REPLAY_ENTRY_AGE (R402): 1 ms after it was applied an entry becomes AGED and its result is discarded. -/
def execReplayEntryAge (job node tag : Nat) (s : State) : Out :=
  let k := pairKey job node
  let r := Table.get {} s.fabric.replays k
  let old := r.applied.any (fun (e : Nat × Applied) => e.1 == tag && !e.2.aged && s.passed e.2.at' 1000000)
  let l := r.applied.map (fun (e : Nat × Applied) => if e.1 = tag then (e.1, { e.2 with aged := true, result := 0 }) else e)
  .next (s.when old { s with fabric := { s.fabric with replays := Table.put {} s.fabric.replays k { r with applied := l } } })

/-! ATOMIC lists and fences (R386, R391). -/

/-- Issue entries of a run's list in order while its rank holds its tile: at most 64 outstanding per tile, a FENCE entry stops; at most
`fuel`. -/
def issueEntries (fuel : Nat) (s : State) (run : Nat) : State :=
  match fuel with
  | 0 => s
  | fuel + 1 =>
    match Table.find? s.fabric.atomics run with
    | none => s
    | some a =>
      let e := natOf ((s.tile (s.runTile run)).read (a.addr + 32 * a.next) 32)
      let op := bits e 255 250
      let out := (List.filter (fun (r : Nat × Request) => r.2.ofRun run) s.fabric.requests).length
      if a.count ≤ a.next ∨ 64 ≤ out ∨ op = 0x3F ∨ s.holdsRun run = false then s
      else
        let w64 := bit e 249
        let noret := bit e 248
        let va := bits e 191 128
        let size := if op = 0x0F then 4 else if op = 0x10 then 8 else if w64 then 8 else 4
        let s' := { s with fabric := { s.fabric with atomics := Table.insert s.fabric.atomics run { a with next := a.next + 1 } } }
        let legal := (op == 3 || decide (8 ≤ op ∧ op ≤ 0x10)) && (!noret || op == 8 || decide (0x0B ≤ op ∧ op ≤ 0x0E))
        let fault := fun code info => (if a.task = 0 then s else s.faultTask (a.task - 1) code info)
        if !legal ∨ va % size ≠ 0 then fault 8 (bits va 56 8)
        else if s.reg Reg.determinismMode = 1 ∧ atomicForbidden op noret then
          ((s.atomicDone run (a.addr + 32 * a.next) 4 none).bump Reg.forbiddenRefusals 1 |> fun s => if a.task = 0 then s else s.faultTask (a.task - 1) 13 0)
        else match s.jobOf a.ctx with
        | none => fault 10 (bits va 56 8)
        | some j =>
          let rank := bits va 54 43
          if bits va 63 55 ≠ 1 ∨ s.jobState j ≠ 2 ∨ s.regN (Reg.jobChips j) ≤ rank then fault 10 (bits va 56 8)
          else
            let node := s.rankNode j rank
            let p : Packet := { blankPacket with
              opcode := op, vc := requestVc (s.regN (Reg.jobClass j)), dst := node, job := s.regN (Reg.jobId j), len := size / 4 - 1
              offset := bits va 42 0, ncro := op == 3 && s.inNcro j (bits va 42 0), w64 := w64, noret := noret, operand := bits e 127 64, compare := bits e 63 0 }
            if node = s.node then
              match s'.atomicHere j p with
              | (s1, some (status, value)) =>
                issueEntries fuel ((s1.atomicDone run (a.addr + 32 * a.next) status value).badStatus
                  { packet := p, ctx := a.ctx, sink := .atomic run (a.addr + 32 * a.next), sentAt := 0 } status) run
              | (_, none) => (s.atomicHere j p).1
            else issueEntries fuel (s'.ask p a.ctx (.atomic run (a.addr + 32 * a.next))) run

/-- Issue goes on for every running ATOMIC node that has room. -/
def State.issueAtomics (s : State) : State :=
  (List.map (fun (e : Nat × AtomicRun) => e.1) s.fabric.atomics).foldl (fun s r => (issueEntries 64 s r).noteRemote (r / 512)) s

/-- REPLY (R386, R389). -/
def execReply (p : Packet) (s : State) : Out := .next (s.arrives p 0x22).issueAtomics

/-- INV_ACK (R398): entries of this chip's own ATOMIC nodes that waited for the line go on too. -/
def execInvAck (p : Packet) (s : State) : Out :=
  .next (if s.jobless { p with opcode := 0x2A } then s.arrives p 0x2A else (s.arrives p 0x2A).issueAtomics)

/-- PEER_DECLARED_DEAD (R398, R404, R405): silent for HB_MISS periods; an event, its requests fail PEER_DEAD, its shared lines are
cleared from the directory, moves with it end (R324). -/
def execPeerDeclaredDead (node : Nat) (s : State) : Out :=
  let h := Table.get 0 s.fabric.heard node
  let toNode : List (Nat × Request) → List (Nat × Request) := fun l => l.filter (fun (e : Nat × Request) => e.2.packet.dst == node)
  let ns := (toNode (s.fabric.requests ++ s.fabric.waiting)).map (fun (e : Nat × Request) => e.1)
  let s1 := ((s.setDead (node :: s.fabric.dead)).bump Reg.deadDeclared 1).deviceEvent
  let s2 := { s1 with fabric := { s1.fabric with
    sharers := Table.mapVals [] s1.fabric.sharers (fun _ l => l.filter (fun n => n != node))
    requests := (toNode s1.fabric.waiting).foldl (fun (t : Table Request) (e : Nat × Request) => Table.insert t e.1 e.2) s1.fabric.requests
    waiting := s1.fabric.waiting.filter (fun r => r.2.packet.dst != node) } }
  let ks := (List.filter (fun (e : Nat × List Nat) => e.2.contains node) s2.fabric.dropping).map (fun e => e.1)
  let s3 := ks.foldl (fun s k => s.lineDropped (k / 34359738368) (k % 34359738368 * 256) node) s2
  .next (s.when (decide (h ≠ 0 ∧ node < 4096) && s.peers.contains node && !s.fabric.dead.contains node && s.passed (h - 1) (s.regN Reg.hbMiss * s.regN Reg.hbPeriod))
    ((ns.foldl (fun s n => s.failRequest n 16) s3).movePeerDead node).issueAtomics)

/-- FENCE (R386, R391): the next entry of the tile's ATOMIC node is a fence: it covers every request of the context that has no
response yet. -/
def execFence (tile : Nat) (s : State) : Out :=
  let t := s.tile tile
  let run := runKey (t.task - 1) t.rank
  match Table.find? s.fabric.atomics run with
  | none => .next s
  | some a =>
    let op := bits (natOf (t.read (a.addr + 32 * a.next) 32)) 255 250
    let x : Fence := { ctx := a.ctx, covers := s.outstanding a.ctx, run := run + 1 }
    .next (s.when (decide (t.task ≠ 0 ∧ t.switching = 0 ∧ a.next < a.count ∧ op = 0x3F) && !s.fabric.fences.any (fun f => f.run == run + 1))
      (({ s with fabric := { s.fabric with fences := s.fabric.fences ++ [x] } }).noteRemote (t.task - 1)))

/-- A fence is complete: every request it covers has been answered (R391). -/
def State.fenceDone (s : State) (x : Fence) : Bool := x.covers.all (fun n => !Table.has s.fabric.requests n && !s.fabric.waiting.any (fun r => r.1 == n))

/-- FENCE_COMPLETE (R83, R386, R391): complete fences of the context go; an ATOMIC node's entry reads STATUS OK and issue goes on, once its
rank holds its tile. -/
def execFenceComplete (ctx : Nat) (s : State) : Out :=
  let done := s.fabric.fences.filter (fun x => x.ctx == ctx && s.fenceDone x && (x.run == 0 || s.holdsRun (x.run - 1)))
  let s1 := { s with fabric := { s.fabric with fences := s.fabric.fences.filter (fun x => !done.contains x) } }
  .next (done.foldl (fun s x =>
    if x.run = 0 then s
    else match Table.find? s.fabric.atomics (x.run - 1) with
    | none => s
    | some a =>
      let s := s.atomicDone (x.run - 1) (a.addr + 32 * a.next) 0 none
      let s := { s with fabric := { s.fabric with atomics := Table.insert s.fabric.atomics (x.run - 1) { a with next := a.next + 1 } } }
      (issueEntries 64 s (x.run - 1)).noteRemote ((x.run - 1) / 512)) s1)

/-! Jobs. -/

/-- APPLY_LNC (R383): only while the entry is FREE. -/
def jobApplyRule (s : State) (j : Nat) : Option State := if s.jobState j ≠ 0 then some s else none
/-- The entry is PENDING for its LNC. -/
def jobApplyEffect (s : State) (j lnc : Nat) : State := (s.setJob j { applyAt := lnc + 1 }).setReg (Reg.jobState j) 1

/-- JOB_ACTIVATE (R383, R400): ACTIVE at APPLY_LNC; tag sequences start at 0; the ranks' nodes are heard from now on. -/
def execJobActivate (j : Nat) (s : State) : Out :=
  let x := s.job j
  let id := s.regN (Reg.jobId j)
  let s1 := { s with fabric := { s.fabric with
    tags := List.filter (fun (e : Nat × Nat) => e.1 / 4096 != id) s.fabric.tags
    replays := List.filter (fun (e : Nat × Replay) => e.1 / 4096 != id) s.fabric.replays } }
  .next (s.when (s.jobState j == 1 && decide (x.applyAt ≠ 0 ∧ x.applyAt - 1 ≤ s.lnc))
    (((((s1.hearFrom (s.jobNodes j)).forgetQuiet j).setJob j { x with applyAt := 0 }).setReg (Reg.jobState j) 2).setReg (Reg.jobFaultCause j) 0))

/-- JOB_BIND (R383, R384): one context of the owner function and of the job's class; else NO_JOB, or CLASS_MISMATCH. -/
def execJobBind (f r : Nat) (s : State) : Out :=
  .next (s.admitDesc f r (isOp 0x0B) [1, 2] (fun s d x =>
    let j := mapBits x 511 506
    if 63 < j ∨ s.jobState j ≠ 2 ∨ s.regN (Reg.jobOwner j) ≠ d.func ∨ (s.job j).bound ≠ 0 ∨ (s.jobOf d.context).isSome then s.refuse d 27
    else if s.regN (Reg.jobClass j) ≠ d.klass ∨ s.regN (Reg.jobClass j) ≠ s.ctxClassOf d.context then s.refuse d 3
    else (s.setJob j { s.job j with bound := d.context + 1, ring := s.recordRing d.func d.ring }).served d))

/-- TEARDOWN_TIMEOUT (R406): a faulted job that gets no TEARDOWN tears its own part down. -/
def execTeardownTimeout (j : Nat) (s : State) : Out :=
  .next (s.when (s.jobState j == 3 && decide ((s.job j).faultAt ≠ 0) && s.passed ((s.job j).faultAt - 1) (1000000 * s.regN Reg.teardownTimeout))
    (s.tearDown j (s.regN (Reg.jobFaultCause j)) false))

/-- A context ends (R422): its objects are checked and freed, each dirty one reported, 64 at most, then the total; DIRTY_COUNT
rises by the total. `ring` takes the records. -/
def State.endObjects (s : State) (ctx ring : Nat) (report : Bool) : State :=
  let mine := List.filter (fun (e : Nat × SyncObj) => e.2.owner == ctx) s.sync.objects
  let dirty := List.filter (fun (e : Nat × SyncObj) => !e.2.abandoned && !e.2.found) mine
  let rec' := fun (o : SyncObj) => ({ rtype := 3, ctx := ctx, doneLnc := s.lnc % 4294967296, body := o.vid * 2 ^ 116 + o.kind * 2 ^ 114 } : Record)
  let total : Record := { rtype := 3, ctx := ctx, doneLnc := s.lnc % 4294967296, body := 2 ^ 113 + dirty.length * 2 ^ 64 }
  let f := ctx / 16
  let s := if report then (dirty.take 64).foldl (fun s (e : Nat × SyncObj) => s.writeRecord f ring (rec' e.2)) s else s
  let s := if report ∧ !dirty.isEmpty then s.writeRecord f ring total else s
  let s := s.bump (Reg.sqDirtyCount f) dirty.length
  (List.map (fun (e : Nat × SyncObj) => e.1) mine).foldl (fun s i => s.dropObject i f) s

/-- TEARDOWN_COMPLETE (R407): 10 ms after the teardown pages are unmapped and zeroised, JOB_TORN_DOWN is written, the context ends,
the entry is FREE. -/
def execTeardownComplete (j : Nat) (s : State) : Out :=
  let x := s.job j
  let c := x.bound - 1
  let f := s.regN (Reg.jobOwner j)
  let r : Record := { rtype := 4, ctx := c, doneLnc := s.lnc % 4294967296, body := s.regN (Reg.jobId j) * 2 ^ 116 + s.regN (Reg.jobFaultCause j) * 2 ^ 112 }
  let s1 := if x.bound = 0 then s else (s.dropContextMaps c).endObjects c x.ring (!x.quiet)
  let s2 := if x.bound = 0 ∨ x.quiet then s1 else s1.writeRecord f x.ring r
  let s3 := if x.bound = 0 then s2 else { (s2.forgetQuiet (64 + c)).setReg (Reg.ctxEnable (c / 16) (c % 16)) 0 with sync := { (s2.forgetQuiet (64 + c)).sync with halted := s2.sync.halted.filter (fun h => h != c) } }
  .next (s.when (s.jobState j == 4 && decide (x.tearAt ≠ 0) && s.passed (x.tearAt - 1) 10000000)
    (((s3.forgetQuiet j).setJob j {}).setReg (Reg.jobState j) 0))

/-- NCRO_DROP (R399): the job's NCRO lines go. -/
def ncroDropEffect (s : State) (j : Nat) : State :=
  { s with fabric := { s.fabric with ncro := List.filter (fun (e : Nat × List Byte) => e.1 / 34359738368 / 4096 != s.regN (Reg.jobId j)) s.fabric.ncro } }

end Sys2Proof.Machine
end

