-- ==== Sys2Proof/Machine/Sync.lean ====
section
/-! DEFINITION. Sync descriptors (R418 to R423), the stalemate detector (R425 to R428), and the keeping-clock tick, on which
detectors look. -/

set_option linter.unusedVariables false

namespace Sys2Proof.Machine

/-! Descriptors. -/

/-- A sync descriptor of SYNC_OP `k` is admitted; another SYNC_OP than 1 to 5 gives SYNC_INVALID (R418). -/
def State.admitSync (s : State) (f r k : Nat) (act : State → Desc → SyncBody → State) : State :=
  s.admitDesc f r (isSync k) [1, 2] (fun s d x => if syncOpOf x ≠ k then s.refuse d 35 else act s d (syncBodyOf x))

/-- The lowest free physical ID (log entry 27). -/
def State.freeObject (s : State) : Nat := Table.freeKey s.sync.objects 0
/-- Room for one more object of function `f` (R411, R429). -/
def State.objectRoom (s : State) (f : Nat) : Bool := decide (s.sync.objects.length < 65536 ∧ s.syncUsed f < s.regN (Reg.sqSyncQuota f))

/-- CREATE (R85, R410, R411, R418, R419): the object has the class of the context that creates it; SYNC_INVALID, VID_IN_USE, NO_OBJECT in that order (log entry 12), else the object exists in
its found state. -/
def execCreate (f r : Nat) (s : State) : Out :=
  .next (s.admitSync f r 1 (fun s d b =>
    if 3 ≤ b.kind ∨ (b.kind = 1 ∧ (b.value = 0 ∨ 65535 < b.value)) then s.refuse d 35
    else if (s.objectOf d.context b.vid).isSome then s.refuse d 30
    else if !s.objectRoom d.func then s.refuse d 31
    else
      let o : SyncObj := { owner := d.context, vid := b.vid, kind := b.kind, klass := s.ctxClassOf d.context, hold := b.kind == 0 && b.hold
                           initial := if b.kind = 2 then 0 else b.value, value := if b.kind = 0 then b.value else 0 }
      ((s.setObject s.freeObject o).syncCounts d.func).served d))

/-- DESTROY (R419, R421, R422): refused while waiters or holders are present; an object that is not in its found state is
reported and counted. -/
def execDestroy (f r : Nat) (s : State) : Out :=
  .next (s.admitSync f r 2 (fun s d b =>
    match s.objectOf d.context b.vid with
    | none => s.refuse d 32
    | some (i, o) =>
      if !o.waiters.isEmpty ∨ (!o.holders.isEmpty ∧ !o.abandoned) then s.refuse d 34
      else
        let r : Record := { rtype := 3, ctx := d.context, doneLnc := s.lnc % 4294967296, body := o.vid * 2 ^ 116 + o.kind * 2 ^ 114 }
        let s := if o.abandoned ∨ o.found ∨ o.remoteJob ≠ 0 then s
                 else (s.bump (Reg.sqDirtyCount d.func) 1).writeRecord d.func (s.recordRing d.func d.ring) r
        (s.dropObject i d.func).served d))

/-- SIGNAL (R85, R410, R412, R417, R418, R420): applied at once, or after a fence of the context, which a task without code waits for. -/
def execSignal (f r : Nat) (s : State) : Out :=
  .next (s.admitSync f r 3 (fun s d b =>
    match s.objectOf d.context b.vid with
    | none => s.refuse d 32
    | some (i, o) =>
      if s.otherClass o d.context d.klass then s.refuse d 3
      else if (o.kind = 0 ∧ b.value = 0) ∨ (o.kind ≠ 0 ∧ b.value ≠ 0) then s.refuse d 35
      else if o.abandoned then s.refuse d 29
      else if b.fence && !(s.outstanding d.context).isEmpty then
        s.addTask { func := d.func, ctx := d.context, ring := d.ring, seq := d.seq, klass := d.klass, quiet := d.quiet, urgent := d.urgent
                    status := .ended, signals := [{ op := 2, fence := true, vid := b.vid, count := b.value }] }
      else (s.signalObject i o d.context b.value).served d))

/-- EVENT_RESET (R418, R419): an event of this chip becomes UNSET. Like a SIGNAL it changes no object of the other class (R85; DESIGN CHOICE,
log entry 155). -/
def execEventReset (f r : Nat) (s : State) : Out :=
  .next (s.admitSync f r 4 (fun s d b =>
    match s.objectOf d.context b.vid with
    | none => s.refuse d 32
    | some (i, o) =>
      if s.otherClass o d.context d.klass then s.refuse d 3
      else if o.kind ≠ 2 ∨ o.remoteJob ≠ 0 then s.refuse d 35
      else if o.abandoned then s.refuse d 29
      else if !o.waiters.isEmpty ∨ !o.holders.isEmpty then s.refuse d 34
      else (s.setObject i { o with value := 0 }).served d))

/-- PROXY (R423): the local object that stands for one of another rank; `granted` is the home's answer: physical ID, kind, class;
none where the VID is unmapped there. -/
def execProxy (f r : Nat) (granted : Option (Nat × Nat × Nat)) (s : State) : Out :=
  .next (s.admitSync f r 5 (fun s d b =>
    let j := b.jobEntry
    if (s.objectOf d.context b.vid).isSome then s.refuse d 30
    else if 64 ≤ j ∨ s.jobState j ≠ 2 ∨ (s.job j).bound ≠ d.context + 1 ∨ s.regN (Reg.jobChips j) ≤ b.remoteRank then s.refuse d 33
    else match granted with
    | none => s.refuse d 33
    | some (id, kind, klass) =>
      if klass ≠ d.klass ∨ klass ≠ s.ctxClassOf d.context then s.refuse d 33
      else if !s.objectRoom d.func then s.refuse d 31
      else
        let o : SyncObj := { owner := d.context, vid := b.vid, kind := kind, klass := klass, remoteJob := j + 1
                             homeNode := s.rankNode j b.remoteRank, homeId := id }
        ((s.setObject s.freeObject o).syncCounts d.func).served d))

/-! The stalemate detector. -/

/-- Contexts of a part on this chip. -/
def State.partContexts (s : State) (p : Nat) : List Nat :=
  if p < 64 then (match (s.job p).bound with | 0 => [] | c + 1 => [c]) else [p - 64]
/-- A task waits in the queue of an object (R414). -/
def State.inQueue (s : State) (n : Nat) : Bool := List.any s.sync.objects (fun e => e.2.waiters.any (fun w => w.task == n + 1))
/-- Tasks of a part. -/
def State.partTasks (s : State) (p : Nat) : List (Nat × Task) :=
  List.filter (fun (e : Nat × Task) => e.2.radio.isNone && (s.partContexts p).contains e.2.ctx) s.tasks
/-- Quiescent (R425): a descriptor waits, and nothing of the part runs, is suspended or is ready. -/
def State.quiescent (s : State) (p : Nat) : Bool :=
  let ts := s.partTasks p
  !ts.isEmpty && ts.all (fun e => s.inQueue e.1)

/-- Parts that a tick looks at: job entries, and contexts bound to no job that have tasks. -/
def State.partsInSight (s : State) : List Nat := (List.map (fun (e : Nat × Task) => s.partNo e.2.ctx) s.tasks ++ List.map (fun (e : Nat × Quiet) => e.1) s.sync.quiet).eraseDups

/-- A tick of one detector: the time since which its part is quiescent, and a part that leaves quiescence may report again. -/
def State.tickQuiet (s : State) (p : Nat) : State :=
  let q := s.quietOf p
  if s.quiescent p then (if q.since = 0 then s.setQuiet p { q with since := s.time.ticks + 1 } else s)
  else s.setQuiet p { q with since := 0, reported := false }

/-- KEEPING_CLOCK_TICK (R27, R28, R52, R59, R101, R175): everything that advances with the keeping clock: time, cycle counters,
page time, detectors. -/
def execKeepingClockTick (s : State) : Out := .next (s.when (!s.power.off) (s.partsInSight.foldl State.tickQuiet s.tickAll))

/-- The wait-graph record of a part (R428). -/
def State.waitGraph (s : State) (p : Nat) : List Byte :=
  let edge := fun (o : SyncObj) (w : Waiter) =>
    let holder : Nat := if o.remoteJob ≠ 0 then 0xFFFF else
      ((o.holders.filter (fun h => decide (h.1 < 65536))).foldl (fun (b : Option (Nat × Nat)) h => match b with
        | none => some h | some x => if x.2 < h.2 then some h else some x) none).elim 0xFFFF (fun h => h.1)
    bytesOf 16 (w.ctx % 65536 * 2 ^ 112 + w.seq % 2 ^ 32 * 2 ^ 80 + o.vid * 2 ^ 68 + o.kind * 2 ^ 66 + w.entry % 2 * 2 ^ 65
      + (if o.remoteJob ≠ 0 then 2 ^ 64 + o.homeNode * 2 ^ 52 else s.node % 4096 * 2 ^ 52) + (if o.remoteJob ≠ 0 then min o.homeHolders 8 else min o.holders.length 8) * 2 ^ 48 + holder * 2 ^ 32
      + (if o.remoteJob ≠ 0 then o.homeState else o.value) % 2 ^ 32)
  let edges := (s.sync.objects.flatMap (fun (e : Nat × SyncObj) => (e.2.waiters.filter (fun w => w.task != 0 && (s.partContexts p).contains w.ctx)).map (edge e.2))).take 255
  let head := s.lnc % 2 ^ 64 * 2 ^ 64 + (if p < 64 then s.regN (Reg.jobId p) else 0xFFFF) * 2 ^ 48
    + (s.partContexts p).headD 0 * 2 ^ 32 + edges.length * 2 ^ 16
  bytesOf 16 head ++ edges.flatten

/-- Declare a stalemate (R426): a record, every waiting descriptor completes as REFUSED with STALEMATE and keeps its units, and the
part's contexts are halted. -/
def State.declare (s : State) (p : Nat) : State :=
  let g := s.waitGraph p
  let waiting := (s.partTasks p).filter (fun e => s.inQueue e.1)
  let q := s.quietOf p
  let s := s.setQuiet p { q with declared := true, frozen := false, queued := [], heldWaits := [], reports := [], confirms := [], queriedAt := 0 }
  let recs := s.sync.records ++ [g]
  let s := { s with sync := { s.sync with records := recs.drop (recs.length - 4), halted := (s.sync.halted ++ s.partContexts p).eraseDups } }
  let s := s.bump Reg.stalemates 1
  waiting.foldl (fun s (e : Nat × Task) => (s.unqueue e.1).refuseTask e.1 28) s

/-- A STALE_CTRL or STALE_REPORT message to a rank (R424): kind, then words. -/
def State.staleSend (s : State) (j rank kind : Nat) (words : List Nat) : State := s.emit (.message (s.rankNode j rank) kind (s.regN (Reg.jobId j) :: words))
/-- This chip's rank in a job. -/
def State.rankOf (s : State) (j : Nat) : Nat := s.regN (Reg.jobRank j)
/-- Ranks of a job. -/
def State.ranks (s : State) (j : Nat) : List Nat := List.range (s.regN (Reg.jobChips j))

/-- HALT at a rank: a frozen part is declared; queued signals are discarded (R427). -/
def State.staleHalted (s : State) (j : Nat) : State := if (s.quietOf j).frozen then s.declare j else s
/-- RESUME at a rank: a frozen part applies its queued signals in order of arrival, evaluates the waits that came, and may report after a further window. -/
def State.staleResumed (s : State) (j : Nat) : State :=
  let q := s.quietOf j
  if !q.frozen then s
  else
    let s := s.setQuiet j { q with frozen := false, queued := [], heldWaits := [], reported := false, since := s.time.ticks + 1 }
    let s := q.queued.foldl (fun s (e : Nat × Nat × Nat) => match s.object e.1 with | some o => s.signalObject e.1 o e.2.1 e.2.2 | none => s) s
    let s := q.heldWaits.foldl (fun s (e : Nat × Waiter) => s.waitAt e.1 e.2) s
    s.settle (((s.partTasks j).filter (fun e => e.2.status == .waiting && !e.2.rerunDue && e.2.inv == 0 && decide (e.2.target ≤ s.lnc))).map (fun e => e.1))
/-- Rank 0 gives up: RESUME to every rank, and all reports are discarded. -/
def State.staleGiveUp (s : State) (j : Nat) : State :=
  let q := s.quietOf j
  let s := s.setQuiet j { q with reports := [], confirms := [], queriedAt := 0 }
  ((s.ranks j).foldl (fun s r => if r = s.rankOf j then s else s.staleSend j r 0x1D [4]) s).staleResumed j
/-- A CONFIRM at rank 0: when every rank has confirmed within 1 ms, HALT goes to every rank. -/
def State.staleConfirmed (s : State) (j rank : Nat) : State :=
  let q := s.quietOf j
  if q.queriedAt = 0 then s
  else
    let c := (rank :: q.confirms).eraseDups
    let s := s.setQuiet j { q with confirms := c }
    if !(s.ranks j).all (fun r => c.contains r) then s
    else ((s.ranks j).foldl (fun s r => if r = s.rankOf j then s else s.staleSend j r 0x1D [3]) s).staleHalted j
/-- QUERY at a rank: a part still quiescent since its report freezes and answers CONFIRM, else REJECT (1, 2). -/
def State.staleQueried (s : State) (j : Nat) : State × Bool :=
  let q := s.quietOf j
  if s.quiescent j && q.reported then (s.setQuiet j { q with frozen := true }, true) else (s, false)
/-- A report at rank 0: with one from every rank and equal totals, QUERY goes to every rank. -/
def State.staleReported (s : State) (j rank sent received : Nat) : State :=
  let q := s.quietOf j
  let reports := (rank, sent, received) :: q.reports.filter (fun r => r.1 != rank)
  let s := s.setQuiet j { q with reports := reports }
  let total := fun (f : Nat × Nat × Nat → Nat) => (reports.map f).sum
  if (s.ranks j).all (fun r => reports.any (fun x => x.1 == r)) && total (fun x => x.2.1) == total (fun x => x.2.2) && q.queriedAt == 0 then
    let s := s.setQuiet j { s.quietOf j with queriedAt := s.time.ticks + 1, confirms := [] }
    let s := (s.ranks j).foldl (fun s r => if r = s.rankOf j then s else s.staleSend j r 0x1D [0]) s
    let a := s.staleQueried j
    if a.2 then a.1.staleConfirmed j (s.rankOf j) else a.1.staleGiveUp j
  else s

/-- STALEMATE_WINDOW_EXPIRY (R425, R427): a single-context job is declared; a fabric job's part reports to rank 0. -/
def execStalemateWindowExpiry (part : Nat) (s : State) : Out :=
  let q := s.quietOf part
  let due := s.quiescent part && decide (q.since ≠ 0) && s.passed (q.since - 1) (1000000 * s.regN Reg.stalemateWindow) && !q.reported && !q.declared
  .next (s.when due
    (if 64 ≤ part then s.declare part
     else
       let s := s.setQuiet part { q with reported := true }
       if s.rankOf part = 0 then s.staleReported part 0 q.sent q.received else s.staleSend part 0 0x1C [s.rankOf part, q.sent, q.received]))

/-- STALE_REPORT at rank 0 (R427). -/
def execStaleReport (job rank sent received : Nat) (s : State) : Out :=
  .next (s.when (s.jobState job == 2 && s.rankOf job == 0 && decide (job < 64)) (s.staleReported job rank sent received))
/-- STALE_CTRL QUERY at a rank (R427). -/
def execStaleQuery (job : Nat) (s : State) : Out :=
  let a := s.staleQueried job
  .next (s.when (s.jobState job == 2 && decide (job < 64)) (a.1.staleSend job 0 0x1D [if a.2 then 1 else 2, s.rankOf job]))
/-- STALE_CTRL CONFIRM at rank 0 (R427). -/
def execStaleConfirm (job rank : Nat) (s : State) : Out :=
  .next (s.when (s.jobState job == 2 && s.rankOf job == 0 && decide (job < 64) && !s.passed ((s.quietOf job).queriedAt - 1) 1000001) (s.staleConfirmed job rank))
/-- STALE_CTRL REJECT at rank 0 (R427). -/
def execStaleReject (job rank : Nat) (s : State) : Out :=
  .next (s.when (s.jobState job == 2 && s.rankOf job == 0 && decide (job < 64 ∧ (s.quietOf job).queriedAt ≠ 0)) (s.staleGiveUp job))
/-- STALE_CTRL HALT at a rank (R426, R427). -/
def execStaleHalt (job : Nat) (s : State) : Out := .next (s.when (decide (job < 64)) (s.staleHalted job))
/-- STALE_CTRL RESUME at a rank (R427). -/
def execStaleResume (job : Nat) (s : State) : Out := .next (s.when (decide (job < 64)) (s.staleResumed job))
/-- STALE_CONFIRM_TIMEOUT (R427): 1 ms after QUERY without every CONFIRM rank 0 gives up. -/
def execStaleConfirmTimeout (job : Nat) (s : State) : Out :=
  let q := s.quietOf job
  .next (s.when (decide (job < 64 ∧ q.queriedAt ≠ 0) && s.passed (q.queriedAt - 1) 1000000 && !q.declared) (s.staleGiveUp job))

end Sys2Proof.Machine
end

