-- ==== Sys2Proof/Machine/Partitions.lean ====
section
/-! DEFINITION. Live resizing (R67 to R70, R236, R252, R359), snapshots (R102 to R104), the determinism mode (R229). -/

set_option linter.unusedVariables false

namespace Sys2Proof.Machine

/-! Tiles that change partition. -/

/-- Slots of a tempo inference partition follow its size (R236), and fallbacks are bound again (R238). -/
def State.slotsResized (s : State) (p n : Nat) : State :=
  if p < 9 then s
  else ((List.range 256).foldl (fun s m =>
    if s.regN (Reg.slotPartition m) ≠ p then s
    else if s.reg (Reg.slotState m) = 2 ∧ s.regN (Reg.slotTiles m) ≠ n then s.setReg (Reg.slotState m) 3
    else if s.reg (Reg.slotState m) = 3 ∧ s.regN (Reg.slotTiles m) = n then s.setReg (Reg.slotState m) 2
    else s) s).bindFallbacks

/-- Every mapping of a virtual tile of a partition becomes unmapped (R359). -/
def State.unmapVtile (s : State) (p v : Nat) : State :=
  (List.filter (fun (e : Nat × Mapping) => match e.2 with | .sram q vt _ _ _ => q == p && vt == v | _ => false) s.mem.maps).foldl
    (fun s (e : Nat × Mapping) => s.dropMaps (e.1 / regionUnits) [e]) s

/-- Save the task that is on a tile, at once, and free the tile (R70, R77): one preemption. -/
def State.evictTask (s : State) (tile : Nat) : State :=
  let t := s.tile tile
  if t.task = 0 then s
  else
    let n := t.task - 1
    let k := s.task n
    let saves := if t.switching = 2 then k.saves else Table.insert k.saves t.rank t.live
    ((s.setTask n { k with saves := saves, preempts := k.preempts + 1 }).setTile tile t.freed).noteSuspended n

/-- Tasks that were to go on on tile `a` go on on tile `b`. -/
def State.retarget (s : State) (a b : Nat) : State :=
  { s with tasks := s.tasks.map (fun (e : Nat × Task) => (e.1, if e.2.radio.isSome then e.2 else { e.2 with tiles := e.2.tiles.map (fun t => if t = a then b else t) })) }

/-- The pages that a context holds on a tile. -/
def Tile.savedFor (t : Tile) (ctx : Nat) : SavedPages :=
  let pages := List.filter (fun (e : Nat × List Nat) => e.2.contains ctx) t.pages
  let mine := fun a => Table.has pages (a / 65536)
  { pages := pages, mem := Table.keep t.mem (fun a _ => mine a), poison := t.poison.filter (fun w => mine (8 * w)) }
/-- Best-effort tasks with a rank bound to tile `a` keep its pages in their save area and go on on tile `b` (R66, R70). -/
def State.evictPages (s : State) (a b : Nat) : State :=
  { s with tasks := s.tasks.map (fun (e : Nat × Task) =>
    let k := e.2
    if k.klass = 1 ∧ k.tiles.contains a then
      (e.1, { k with
        evicted := k.evicted ++ (((List.range k.tiles.length).zip k.tiles).filter (fun x => x.2 == a)).map (fun x => (x.1, (s.tile a).savedFor k.ctx))
        tiles := k.tiles.map (fun t => if t = a then b else t) })
    else e) }

/-- A tile leaves a partition (R66, R70, R532): the tile of the highest virtual number takes its number, with a copy of its pages; the
mappings of that number become unmapped. Best-effort work of that number is evicted, its pages saved, and goes on on the lowest tile of
the partition that is free, or, with none free, on the one that is left first (log entry 47). -/
def State.removeTile (s : State) (p tile : Nat) : State :=
  let l := (s.part p).tiles
  match l.getLast? with
  | none => s
  | some z =>
    if !l.contains tile then s
    else
      let s := (s.unmapVtile p (l.length - 1)).evictTask tile
      let s := (s.evictTask z).clearResidency z
      let left := l.dropLast.filter (fun t => t != tile)
      let free := (left.filter (fun t => (s.tile t).task == 0)).foldl (fun (m : Option Nat) t => match m with | none => some t | some x => some (min x t)) none
      let heir := free.getD (if z = tile then left.headD z else z)
      if z = tile then (s.evictPages z heir).setPart p { s.part p with tiles := l.dropLast }
      else
        let s := s.evictPages z heir
        let t := s.tile tile
        let s := ((s.retarget tile z).moveResidency tile z).updTile z (fun u => { u with mem := t.mem, poison := t.poison, pages := t.pages, heldBy := t.heldBy })
        s.setPart p { s.part p with tiles := (l.map (fun t => if t = tile then z else t)).dropLast }

/-- A tile that changes hands holds nothing (R70, R374). -/
def Tile.zeroised (t : Tile) : Tile := { t with mem := [], poison := [], pages := [], heldBy := [], borrower := 0, live := {}, code := [] }

/-- Tiles chosen by pending grows. -/
def State.chosenTiles (s : State) : List Nat := s.parts.flatMap (fun (e : Nat × Part) => match e.2.resize with | some r => if r.grow then r.chosen else [] | none => [])
/-- Insert in descending order. -/
def insertDown (l : List Nat) (x : Nat) : List Nat := match l with | [] => [x] | y :: r => if y < x then x :: y :: r else y :: insertDown r x
/-- Pool tiles within a cluster mask that no pending grow has chosen, highest physical number first (R70). -/
def State.poolTiles (s : State) (mask : Nat) : List Nat :=
  (((s.part 0).tiles.filter (fun t => bit mask (clusterOf t) && !s.chosenTiles.contains t))).foldl insertDown []

/-! Requests. -/

/-- Sum of the shares of R252 with partition `p` at share `v`: partitions with tiles or an accepted grow. -/
def State.shareSum (s : State) (p v : Nat) : Nat :=
  ((List.range 55).map (fun i =>
    let q := i + 9
    if q = p then v
    else if (s.part q).tiles.isEmpty && !(match (s.part q).resize with | some r => r.grow | none => false) then 0
    else s.regN (Reg.partSwapShare q))).sum
/-- SWAP_SHARE (R252): the sum stays at most 80. -/
def swapShareRule (s : State) (p v : Nat) : Option State :=
  let counts := !(s.part p).tiles.isEmpty || (match (s.part p).resize with | some r => r.grow | none => false)
  if 9 ≤ p ∧ counts ∧ 80 < s.shareSum p v then some s else none

/-- RESIZE_TILES (R67): refused on partitions 0 to 8. -/
def resizeTilesRule (s : State) (p : Nat) : Option State := if p < 9 then some (s.setReg (Reg.partResizeStatus p) 47) else none
/-- The size is kept for the next request. -/
def resizeTilesEffect (s : State) (p v : Nat) : State := s.setPart p { s.part p with asked := v + 1 }
/-- Tiles that change partition by the size asked. -/
def State.resizeCount (s : State) (p : Nat) : Nat :=
  let n := (s.part p).tiles.length
  let a := (s.part p).asked - 1
  if n ≤ a then a - n else n - a
/-- RESIZE_LNC (R67): the reason that refuses it, if one does, in the order in which R67 lists them (log entry 12). -/
def State.resizeReason (s : State) (p l : Nat) : Option Nat :=
  let q := s.part p
  let n := q.tiles.length
  if p < 9 then some 47
  else if q.asked = 0 then some 46
  else if l < s.lnc + 20000 + 20000 * ceilDiv (s.resizeCount p) 64 then some 16
  else if q.resize.isSome then some 17
  else if n < q.asked - 1 ∧ (s.poolTiles (s.regN (Reg.partClusterMask p))).length < s.resizeCount p then some 45
  else if n = 0 ∧ q.asked ≠ 1 ∧ 80 < s.shareSum p (s.regN (Reg.partSwapShare p)) then some 44
  else none
/-- RESIZE_LNC (R67). -/
def resizeLncRule (s : State) (p l : Nat) : Option State := (s.resizeReason p l).map (fun r => s.setReg (Reg.partResizeStatus p) r)
/-- An accepted request: the tiles of a grow are chosen now. A request for the present size is no shrink and needs no consent (log
entry 141). -/
def resizeLncEffect (s : State) (p l : Nat) : State :=
  let q := s.part p
  let a := q.asked - 1
  let grow : Bool := q.tiles.length ≤ a
  let r : Resize := { tiles := a, lnc := l, grow := grow, consented := s.regN (Reg.partConsentLnc p) == l
                      chosen := if grow then (s.poolTiles (s.regN (Reg.partClusterMask p))).take (s.resizeCount p) else q.tiles.drop a }
  (s.setPart p { q with asked := 0, resize := some r }).setReg (Reg.partResizeStatus p) 1
/-- CONSENT_LNC (R68): counts until 1 ms before the resize. -/
def consentEffect (s : State) (p v : Nat) : State :=
  match (s.part p).resize with
  | some r => if s.lnc + 20000 ≤ r.lnc then s.setPart p { s.part p with resize := some { r with consented := r.lnc == v } } else s
  | none => s

/-! The steps of R70. -/

/-- A pending resize ends with a status. -/
def State.endResize (s : State) (p status : Nat) : State := (s.setPart p { s.part p with resize := none }).setReg (Reg.partResizeStatus p) status
/-- A TEMPO task is admitted on one of the tiles (R69). -/
def State.tempoBusy (s : State) (ts : List Nat) : Bool :=
  List.any s.tasks (fun (e : Nat × Task) => e.2.klass == 0 && e.2.radio.isNone && (s.taskTiles e.2).any (fun t => ts.contains t))
/-- Tiles that a pending resize moves now: the chosen ones still in the pool, or the highest numbers of the partition. -/
def State.moving (s : State) (p : Nat) (r : Resize) : List Nat := if r.grow then r.chosen.filter (fun t => (s.part 0).tiles.contains t) else (s.part p).tiles.drop r.tiles
/-- The refusal of a shrink that its time has brought (R68, R69). -/
def State.shrinkStop (s : State) (p : Nat) (r : Resize) : Option Nat :=
  if r.grow then none
  else if s.tempoBusy (s.moving p r) then some 19
  else if !r.consented ∧ r.lnc ≤ s.lnc + 20000 then some 18
  else none

/-- RESIZE_EVICTION (R68 to R70): at the eviction point best-effort work on leaving pool tiles, and on the tiles that take their
numbers, is asked to leave; a shrink without consent or with TEMPO work on its tiles ends. -/
def execResizeEviction (p : Nat) (s : State) : Out :=
  match (s.part p).resize with
  | none => .next s
  | some r =>
    let ts := s.moving p r
    let l := (s.part 0).tiles
    let asked := if r.grow then ts ++ l.drop (l.length - ts.length) else []
    let due : Bool := r.lnc ≤ s.lnc + 2400 + 20000 * ceilDiv ts.length 64
    .next (s.when due
      (match s.shrinkStop p r with
       | some x => s.endResize p x
       | none =>
         let s := asked.foldl (fun s t => (s.updTile t (fun u => { u with next := 0 })).askOff t) s
         s.setPart p { s.part p with resize := some { r with evicted := true } }))

/-- RESIZE_TILES_LEAVE (R70): 2,400 quanta ahead the leaving tiles leave the old partition and are zeroised. -/
def execResizeTilesLeave (p : Nat) (s : State) : Out :=
  match (s.part p).resize with
  | none => .next s
  | some r =>
    let ts := s.moving p r
    .next (s.when (decide (r.lnc ≤ s.lnc + 2400) && !r.left)
      (match s.shrinkStop p r with
       | some x => s.endResize p x
       | none =>
         let s := if r.grow then ts.foldl (fun s t => s.removeTile 0 t) s
                  else
                    let n := (s.part p).tiles.length
                    let s := ts.foldl State.clearResidency ((List.range ts.length).foldl (fun s i => s.unmapVtile p (n - 1 - i)) s)
                    s.setPart p { s.part p with tiles := (s.part p).tiles.take r.tiles }
         let s := ts.foldl (fun s t => s.updTile t Tile.zeroised) s
         s.setPart p { s.part p with resize := some { r with left := true, evicted := true, chosen := ts } }))

/-- RESIZE_APPLY (R14, R70, R236): at the resize LNC the tiles join; RESIZE_STATUS reads DONE. -/
def execResizeApply (p : Nat) (s : State) : Out :=
  match (s.part p).resize with
  | none => .next s
  | some r =>
    let s1 := if r.grow then s.setPart p { s.part p with tiles := (s.part p).tiles ++ r.chosen } else s.setPart 0 { s.part 0 with tiles := (s.part 0).tiles ++ r.chosen }
    .next (s.when (r.left && decide (r.lnc ≤ s.lnc)) ((s1.endResize p 2).slotsResized p (s1.part p).tiles.length))

/-! Snapshots. -/

/-- SNAP_REQUEST (R102): at least 1 µs ahead, at most 16 pending. -/
def snapRule (s : State) (f l : Nat) : Option State := if l < s.lnc + 20 ∨ 16 ≤ (s.func f).snaps.length then some s else none
/-- The request is pending. -/
def snapEffect (s : State) (f l : Nat) : State := s.setFunc f { s.func f with snaps := (s.func f).snaps ++ [l] }

/-- Bytes 0 to 127 of a snapshot record (R103, R104). -/
def State.snapBody (s : State) (f l : Nat) (lost signed : Bool) : List Byte :=
  let c := fun i => s.regN (Reg.accCounter f i)
  let m := fun n => n % 2 ^ 64
  zeros 20 ++ fit 32 (s.blob Reg.aliasKeyId) ++ bytesOf 4 (s.regN Reg.bootCount)
    ++ [BitVec.ofNat 8 ((if lost then 1 else 0) + (if signed then 2 else 0)), 1] ++ bytesOf 2 f ++ bytesOf 4 (s.func f).snapSeq ++ bytesOf 8 (m l)
    ++ bytesOf 8 (m (s.cyclesOf f 0)) ++ bytesOf 8 (m (s.cyclesOf f 1)) ++ bytesOf 8 (c 4) ++ bytesOf 8 (c 6) ++ bytesOf 8 (c 7) ++ bytesOf 8 (c 8) ++ bytesOf 8 (c 9)
/-- A snapshot record of 192 bytes. -/
def State.snapRecord (s : State) (f l : Nat) : List Byte :=
  let signed := s.reg (Reg.accSignEnable f) == 1
  let b := s.snapBody f l (s.reg (Reg.accSnapLost f) == 1) signed
  b ++ (if signed then fit 64 (Config.ed25519Sign s.sec.aliasNow b) else zeros 64)

/-- SNAPSHOT_CAPTURE (R102, R103): at its LNC the earliest request of a function is captured into a record; the 65th queued record
pushes out the oldest and sets SNAP_LOST. -/
def execSnapshotCapture (f : Nat) (s : State) : Out :=
  let g := s.func f
  let due := g.snaps.filter (fun l => decide (l ≤ s.lnc))
  match due.foldl (fun (m : Option Nat) l => match m with | none => some l | some x => some (min x l)) none with
  | none => .next s
  | some l =>
    let q := g.snapQueue ++ [s.snapRecord f l]
    let s1 := s.setFunc f { g with snaps := g.snaps.erase l, snapSeq := (g.snapSeq + 1) % 4294967296, snapQueue := q.drop (q.length - 64) }
    .next (if 64 < q.length then s1.setReg (Reg.accSnapLost f) 1 else s1)

/-- DETERMINISM_MODE (R229): a change is refused while a tempo inference or best-effort context exists or a tenant kernel is loaded. A tempo
inference context is a TEMPO context of a function that owns a tempo inference partition. MODE_BUSY stands in no object of the spec: the
write answers REFUSED. -/
def determinismRule (s : State) (v : Nat) : Option State :=
  let ctxs := (List.range 8208).filter (fun c => s.ctxOn c)
  let tempo := fun f => (List.range 55).any (fun i => s.regN (Reg.partOwner (i + 9)) == f)
  let busy := ctxs.any (fun c => s.ctxClassOf c == 1 || tempo (c / 16)) || List.any s.kernels (fun e => !e.2.vendor)
  if v ≠ s.regN Reg.determinismMode ∧ busy then some s else none

end Sys2Proof.Machine
end

