-- ==== Sys2Proof/Machine/RadioParts.lean ====
section
/-! DEFINITION. The size of radio partitions (R274, R302, R303, R321, R533): growth from the pool or, without one, from a tempo
inference partition; shrinking back into the pool. -/

set_option linter.unusedVariables false

namespace Sys2Proof.Machine

/-- The highest-numbered tile of a list in a cluster. -/
def highest (l : List Nat) (k : Nat) : Option Nat :=
  (l.filter (fun t => clusterOf t == k)).foldl (fun (m : Option Nat) t => match m with | none => some t | some x => some (max x t)) none

/-- The tile that a radio partition takes next in cluster `k` (R533; log entry 46): a pool tile, else a tile of a tempo inference
partition, each the highest number; with its partition. -/
def State.radioDonor (s : State) (k : Nat) : Option (Nat × Nat) :=
  match highest (s.part 0).tiles k with
  | some t => some (0, t)
  | none =>
    let l := (List.filter (fun (e : Nat × Part) => decide (9 ≤ e.1)) s.parts).flatMap (fun (e : Nat × Part) => e.2.tiles)
    match highest l k with
    | some t => (s.partOf t).map (fun p => (p, t))
    | none => none

/-- Tasks with a rank on a tile of a tempo inference partition that it loses without consent are handled as in a contained error
(log entry 47). -/
def State.loseTile (s : State) (t : Nat) : State :=
  let x := s.tile t
  if x.task = 0 then s else s.containedTask (x.task - 1)

/-- A radio partition takes one tile: evicted, zeroised (R374), with its clocks started (R173). -/
def State.takeRadioTile (s : State) (k : Nat) : State :=
  match s.radioDonor k with
  | none => s
  | some (p, t) =>
    let s := if p = 0 then s else s.loseTile t
    let s := s.removeTile p t
    let s := if 9 ≤ p then s.slotsResized p (s.part p).tiles.length else s
    let s := s.updTile t (fun x => { x.zeroised with loan := s.regN (Reg.partLoanPages (1 + k)) })
    (s.setPart (1 + k) { s.part (1 + k) with tiles := (s.part (1 + k)).tiles ++ [t] }).startWake t

/-- Take up to `n` tiles. -/
def State.growRadio (s : State) (k n : Nat) : State := match n with | 0 => s | n + 1 => State.growRadio (s.takeRadioTile k) k n

/-- Bring the radio partition of a cluster up to its size (R274, R302). -/
def State.radioGrow (s : State) (k : Nat) : State := s.growRadio k (radioTiles (s.clusterUnits k) - (s.part (1 + k)).tiles.length)

/-- A radio tile leaves for the pool (R303): what runs there is saved and goes on as pool work, the cell areas are zeroised; pages of
the loan window stay their contexts' (log entry 48). -/
def State.radioTileLeaves (s : State) (t : Nat) : State :=
  let s := s.evictTask t
  s.updTile t (fun x =>
    let y := x.zeroRange 0 x.loanBase
    { y with borrower := 0, heldBy := [], live := {}, code := [], pages := List.filter (fun (e : Nat × List Nat) => decide (1024 - x.loan ≤ e.1)) x.pages })

/-- Shrink the radio partition of a cluster to its size (R274, R303): the highest virtual numbers leave. -/
def State.radioShrink (s : State) (k : Nat) : State :=
  let q := s.part (1 + k)
  let gone := q.tiles.drop (radioTiles (s.clusterUnits k))
  let s := gone.foldl State.radioTileLeaves s
  let s := s.setPart (1 + k) { s.part (1 + k) with tiles := q.tiles.take (radioTiles (s.clusterUnits k)) }
  s.setPart 0 { s.part 0 with tiles := (s.part 0).tiles ++ gone }

/-- Tiles of a cluster in use: the limit of R274 for the cluster is the lower of 32.00 units and this (R533). -/
def State.usableTiles (s : State) (k : Nat) : Nat := (s.parts.flatMap (fun (e : Nat × Part) => e.2.tiles.filter (fun t => clusterOf t == k))).length

/-- Tiles of the cluster were lost (R533): from the highest number down, the cells that do not fit the limit are held from now on. -/
def State.holdCrowded (s : State) (k : Nat) : State :=
  ((s.clusterCells k).reverse.foldl (fun (a : Nat × State) c =>
    if a.1 ≤ min 3200 (100 * s.usableTiles k) then a else (a.1 - s.unitsOf c, a.2.updCell c (fun x => { x with crowded := true }))) (s.clusterUnits k, s)).2

/-- RADIO_PARTITION_SHRINK (R303, R321, R324): 4 ms after a stop, an abort or a move; the areas of the cells that stopped are zeroised. -/
def execRadioPartitionShrink (cluster : Nat) (s : State) : Out :=
  let t := Table.get 0 s.radio.shrinkAt cluster
  let s1 := (List.map (fun (e : Nat × Cell) => e.1) s.radio.cells).foldl (fun s c =>
    if s.cellSt c = 0 ∧ s.regN (Reg.cellCluster c) = cluster then s.setCell c { slots := (s.cell c).slots, home := (s.cell c).home } else s)
    { s with radio := { s.radio with shrinkAt := Table.put 0 s.radio.shrinkAt cluster 0 } }
  .next (s.when (decide (cluster < 8 ∧ t ≠ 0 ∧ t - 1 ≤ s.nowNs)) (s1.radioShrink cluster))

end Sys2Proof.Machine
end

