-- ==== Sys2Proof/Machine/Cells.lean ====
section
/-! DEFINITION. Cell commands (R298 to R300, R320, R333, R338, R344) and the boundaries they name (R297, R302, R303, R309, R312, R313). -/

set_option linter.unusedVariables false

namespace Sys2Proof.Machine

/-! Configuration checks (R273 to R277, R338). -/

/-- NO_CAPACITY (R274, R533): with the cell, its cluster exceeds the lower of 32 units and its usable tiles, or the chip 256. -/
def State.overCapacity (s : State) (c : Nat) : Bool :=
  let k := s.regN (Reg.cellCluster c)
  decide (min 3200 (100 * s.usableTiles k) < s.clusterUnits k + s.unitsOf c) || decide (25600 < (s.liveCells.map s.unitsOf).sum + s.unitsOf c)

/-- TIMING_LIMIT (R276, R277, R338). -/
def State.overTiming (s : State) (c : Nat) : Bool :=
  let t1 := s.regN (Reg.cellT1aMax c)
  decide (s.slotLen c * 3 / 5 + s.regN (Reg.cellExtraLead c) < t1 ∨ s.boundP c / 2 < s.regN (Reg.cellTa4Max c)
    ∨ t1 < s.regN (Reg.bindTcpAdvDl c) + s.regN (Reg.bindT1aMinUp c) + 10000
    ∨ t1 < s.regN (Reg.bindT1aMinCpDl c) ∨ t1 < s.regN (Reg.bindT1aMinCpUl c) ∨ s.regN (Reg.bindT1aMaxCpUl c) < t1)

/-! Fronthaul checks (R332, R333, R344). -/

/-- Bits of a resource block on a stream (R344); the uplink of modulation compression is uncompressed (R336; log entry 49). -/
def State.bitsRb (s : State) (c : Nat) (uplink : Bool) : Nat :=
  match s.regN (Reg.bindCompMethod c) with
  | 0 => 384
  | 4 => if uplink then 384 else 200
  | _ => 8 + 24 * s.regN (Reg.bindIqWidth c)
/-- Rate of a stream in bit/s (R344). -/
def State.streamRate (s : State) (c : Nat) (uplink : Bool) : Nat :=
  let mu := s.regN (Reg.cellNumerology c)
  Config.maxRb (s.regN (Reg.cellBandwidth c)) mu * s.bitsRb c uplink * 14 * 2 ^ mu * 1000
/-- Rate of a cell's streams in a direction. -/
def State.cellRate (s : State) (c : Nat) (uplink : Bool) : Nat :=
  s.streamRate c uplink * (if uplink then s.regN (Reg.bindStreams c) % 256 else s.regN (Reg.bindStreams c) / 256)
/-- FH_LOAD (R344): above 0.8 × the port rate in either direction. -/
def State.overLoad (s : State) (c : Nat) : Bool :=
  let p := s.regN (Reg.bindFhPort c)
  let cs := c :: s.liveCells.filter (fun x => s.regN (Reg.bindFhPort x) == p && x != c)
  [false, true].any (fun ul => decide (s.rateOf p * 800000 < (cs.map (fun x => s.cellRate x ul)).sum))

/-- The eAxC ranges of a cell: first ID and count; PRACH has as many as the uplink (log entry 49). -/
def State.eaxcRanges (s : State) (c : Nat) : List (Nat × Nat) :=
  let st := s.regN (Reg.bindStreams c)
  [(s.regN (Reg.bindEaxcDl c), st / 256), (s.regN (Reg.bindEaxcUl c), st % 256), (s.regN (Reg.bindEaxcPrach c), st % 256)]
/-- Tag and VLAN ID of a binding. -/
def State.vlanOf (s : State) (c : Nat) : Nat := let v := s.regN (Reg.bindVlanTag c); if bit v 16 then 65536 + v % 4096 else 0
/-- FH_CONFLICT (R332, R333): no enabled fronthaul port, a stream number that leaves the RU_port field, or an eAxC ID in use. -/
def State.fhConflict (s : State) (c : Nat) : Bool :=
  let p := s.regN (Reg.bindFhPort c)
  let w := 2 ^ (s.regN (Reg.portEaxcWidths p) % 16)
  let mine := s.eaxcRanges c
  s.reg (Reg.portMode p) == 0 || mine.any (fun r => decide (w < r.1 % w + r.2)) ||
  s.liveCells.any (fun x => x != c && s.regN (Reg.bindFhPort x) == p && s.vlanOf x == s.vlanOf c
    && (s.eaxcRanges x).any (fun a => mine.any (fun b => decide (a.1 < b.1 + b.2 ∧ b.1 < a.1 + a.2))))

/-! Commands (R298 to R300). -/

/-- START and a MOVE's target share these checks, in the order of R298 (log entry 12). -/
def State.configReason (s : State) (c : Nat) : Option Nat :=
  if s.unitsOf c = 0 then some 19
  else if s.overTiming c then some 20
  else if s.overCapacity c then some 18
  else if !s.holdValid c (s.blob (Reg.cellHoldSource c)) then some 21
  else if s.fhConflict c then some 26
  else if s.overLoad c then some 27
  -- the floor need of the live cells and this one: 100 W + 3.5 W a unit (R504)
  else if 200 * s.regN Reg.radioFloor < 20000 + 7 * ((s.liveCells.filter (fun x => x != c)).map s.unitsOf).sum + 7 * s.unitsOf c then some 28
  else none

/-- A named boundary must lie at least `ahead` ns ahead (22) and within R51 (23). -/
def State.frameReason (s : State) (t ahead : Nat) : Option Nat :=
  if s.lnc + 2147483647 < t / 50 then some 23 else if t < s.nowNs + ahead then some 22 else none

/-- The boundary that CMD_FRAME names (R299). -/
def State.cmdFrame (s : State) (c : Nat) : Nat := s.frameNamed c (s.regN (Reg.cellCmdFrame c))
/-- The boundary H that MOVE_H names, whose SFN field is 0 (R320). -/
def State.moveH (s : State) (c : Nat) : Nat := s.frameNamed c (s.regN (Reg.cellMoveH c) / 1024 * 1024)

/-- Cells may start only in LOCKED, or in FREERUN with the source FREE (R39). -/
def State.timeAllows (s : State) : Bool := s.reg Reg.timeState == 2 || s.reg Reg.timeSource == 0

/-- The reason that refuses a command (R298 to R300), if one does. `peerMatches` is what the fabric exchange of digests found (R320). -/
def State.cmdReason (s : State) (c cmd : Nat) (peerMatches : Bool) : Option Nat :=
  let st := s.cellSt c
  let x := s.cell c
  -- until the instant of a chip reset every command is refused (R548)
  if s.boot.asked ≠ 0 then some 16 else
  match cmd with
  | 1 => if st ≠ 0 then some 16 else if !s.timeAllows then some 17 else match s.configReason c with
    | some r => some r
    | none => s.frameReason (s.cmdFrame c) 40000000
  | 2 => if ¬(1 ≤ st ∧ st ≤ 3) then some 16 else s.frameReason (s.cmdFrame c) 1000000
  | 3 => if st ≠ 2 then some 16 else s.frameReason (s.cmdFrame c) 1000000
  | 4 => if st ≠ 3 ∨ x.heldBy ≠ 1 then some 16 else s.frameReason (s.cmdFrame c) 1000000
  | 5 => if ¬(st = 2 ∨ (st = 3 ∧ x.heldBy = 2)) then some 16 else none
  | 6 =>
    let peer := s.regN (Reg.cellMovePeer c)
    -- a move while a boundary of the cell waits: log entry 126
    if !x.waiting.isEmpty ∨ ¬(st = 0 ∨ st = 2) then some 16
    else match (if st = 0 then s.configReason c else none) with
      | some r => some r
      | none =>
        if s.node = 0xFFFF ∨ s.fabric.dead.contains peer ∨ (s.paths peer).isEmpty then some 24
        else if !peerMatches then some 25
        else s.frameReason (s.moveH c) 2000000000
  | 7 => match x.move with
    | some m => if st = 4 ∧ s.nowNs + 50000000 < m.h then none else some 16
    | none => some 16
  | _ => some 16

/-- A refused command leaves its reason in CMD_STATUS (R298). -/
def cellCmdRule (s : State) (c cmd : Nat) (peerMatches : Bool) : Option State := (s.cmdReason c cmd peerMatches).map (fun r => s.setReg (Reg.cellCmdStatus c) r)

/-- The conductor that runs fewer units, ties to the first (R317). -/
def State.lighterConductor (s : State) (c : Nat) : Nat :=
  let k := s.regN (Reg.cellCluster c)
  let units := fun i => (((s.clusterCells k).filter (fun x => x != c && (s.cell x).home == i)).map s.unitsOf).sum
  if units 1 < units 0 then 1 else 0

/-- The cell is given a conductor (R317): its home, or the partner of a hung one. -/
def State.assignConductor (s : State) (c : Nat) : State :=
  let h := s.lighterConductor c
  let k := s.regN (Reg.cellCluster c)
  (s.updCell c (fun x => { x with home := h })).setReg (Reg.cellConductor c)
    (if s.radio.hung.contains (2 * k + h) ∧ !s.radio.hung.contains (2 * k + (1 - h)) then (1 - h : Nat) else h)

/-- The cell's stream policers start afresh (R349, R350). -/
def State.freshPolicers (s : State) (c : Nat) : State :=
  let p := s.regN (Reg.bindFhPort c)
  s.setPort p { s.port p with tokens := Table.keep (s.port p).tokens (fun k _ => decide (k < 1024 + 256 * c ∨ 1280 + 256 * c ≤ k)) }

/-- What an accepted command does at once (R297, R298, R302, R303, R312, R320, R324). -/
def cellCmdEffect (s : State) (c cmd : Nat) : State :=
  let s := s.setReg (Reg.cellCmdStatus c) 1
  let s := s.updCell c (fun x => { x with lastCmd := cmd })
  let wait := fun (t : Nat) => s.updCell c (fun x => x.await cmd t)
  match cmd with
  | 1 => ((s.setCell c { startAt := s.cmdFrame c + 1, lastCmd := 1 }).setCellSt c 1 |>.assignConductor c).freshPolicers c
  | 2 => (wait (s.cmdFrame c)).lastSlotBefore c (s.cmdFrame c)
  | 3 => wait (s.cmdFrame c)
  | 4 => wait (s.cmdFrame c)
  | 5 => s.resetAt c (s.frameFrom c (s.nowNs + 1000000))
  | 6 =>
    let source := s.cellSt c == 2
    let s := s.hearFrom [s.regN (Reg.cellMovePeer c)]
    let m : MoveRun := { source := source, peer := s.regN (Reg.cellMovePeer c), peerCell := s.regN (Reg.cellMoveCell c), h := s.moveH c }
    let s := if source then s.updCell c (fun x => { x with move := some m })
             else ((s.setCell c { move := some m, lastCmd := 6, holdSource := s.blob (Reg.cellHoldSource c) }).assignConductor c).freshPolicers c
    s.setCellSt c 4
  | 7 => (s.cmdDone c 7).abortMove c 1
  | _ => s

/-- Radio configuration and bindings change only while the cell is STOPPED (R295, R355). -/
def cellConfigRule (s : State) (c : Nat) : Option State := if s.cellSt c ≠ 0 then some s else none

/-- HOLD_SOURCE (R306, R309): refused with HOLD_INVALID where its content or its encoding fails. -/
def holdSourceRule (s : State) (c : Nat) (bs : List Byte) (encoded : Bool) : Option State :=
  if s.holdValid c bs && encoded then none else some (s.setReg (Reg.cellCmdStatus c) 21)
/-- While the cell is not STOPPED the new source waits for the first of its hold periods at least 20 ms ahead (R309). -/
def holdSourceEffect (s : State) (c : Nat) (bs : List Byte) : State :=
  if s.cellSt c = 0 then s
  else
    let o := s.regN (Reg.cellFrameOffset c)
    let period := 10000000 * (holdHeader bs).1
    s.updCell c (fun x => { x with holdNext := some (bs, o + period * ceilDiv (s.nowNs + 20000000 - o) period) })

/-! Boundaries. -/

/-- NORMALISE moves for the slots of the frame from an instant, or for what is left of a longer run (R313). -/
def State.startNormalise (s : State) (c t : Nat) : State := s.updCell c (fun x => { x with normTo := max x.normTo (s.slotAt c t + s.perFrame c) })

/-- START_RESIZE (R274, R302): at F − 25 ms the radio partition takes its size; soft buffers and retained estimates read zero. -/
def execStartResize (c : Nat) (s : State) : Out :=
  let x := s.cell c
  .next (s.when (s.cellSt c == 1 && !x.resized && decide (x.startAt ≤ s.nowNs + 25000001))
    ((s.radioGrow (s.regN (Reg.cellCluster c))).updCell c (fun x => { x with resized := true, soft := [], softOrder := [], spilled := [], kept := [], estimates := [] })))

/-- HOLD_SOURCE_CHECK (R297, R302): at F − 20 ms the source is encoded and its launches stand, or the start fails. -/
def execHoldSourceCheck (c : Nat) (encoded : Bool) (s : State) : Out :=
  let x := s.cell c
  let bs := s.blob (Reg.cellHoldSource c)
  let failed := (((s.cellEventNow c 14 1).shrinkAfter c s.nowNs).stopCell c).updCell c (fun x => { x with slots := [] })
  .next (s.when (s.cellSt c == 1 && x.resized && !x.encoded && decide (x.startAt ≤ s.nowNs + 20000001))
    (if encoded && s.holdValid c bs then s.updCell c (fun x => { x with encoded := true, holdSource := bs, holdNext := none }) else failed))

/-- START_FRAME_REACHED (R301, R302, R313): the first slot boundary is served and STARTED reported. -/
def execStartFrameReached (c : Nat) (s : State) : Out :=
  let x := s.cell c
  .next (s.when (s.cellSt c == 1 && x.encoded && decide (x.firstEnd = 0 ∧ x.startAt ≤ s.nowNs + 1))
    (((s.updCell c (fun x => { x with firstEnd := x.startAt + 10000000 })).startNormalise c (x.startAt - 1)).cellEvent c 1 (s.slotAt c (x.startAt - 1)) 0))

/-- FIRST_FRAME_END (R297, R302): at F + 10 ms the cell is ON_AIR. -/
def execFirstFrameEnd (c : Nat) (s : State) : Out :=
  let x := s.cell c
  .next (s.when (s.cellSt c == 1 && decide (x.firstEnd ≠ 0 ∧ x.firstEnd ≤ s.nowNs + 1))
    ((((s.updCell c (fun x => { x with startAt := 0, firstEnd := 0, missed := 0 })).setCellSt c 2).cmdDone c 1).cellEventNow c 2 0))

/-- A boundary that waits has come. -/
def State.boundaryDue (s : State) (c k : Nat) : Bool := match Table.find? (s.cell c).waiting k with | some t => decide (t ≤ s.nowNs) | none => false
/-- When it comes. -/
def State.boundaryNs (s : State) (c k : Nat) : Nat := Table.get 0 (s.cell c).waiting k
/-- It waits no longer. -/
def State.boundaryGone (s : State) (c k : Nat) : State := s.updCell c (fun x => { x with waiting := Table.erase x.waiting k })

/-- STOP_FRAME_REACHED (R297, R303): the cell is STOPPED; its radio partition shrinks 4 ms later. -/
def execStopFrameReached (c : Nat) (s : State) : Out :=
  let t := s.boundaryNs c 2
  let st := s.cellSt c
  .next (s.when (s.boundaryDue c 2)
    (if 1 ≤ st ∧ st ≤ 3 then ((((s.cmdDone c 2).cellEvent c 3 (s.slotAt c t) 0).shrinkAfter c t).stopCell c) else s.boundaryGone c 2))

/-- HOLD_FRAME_REACHED (R297): a commanded HOLD takes effect; also in a cell that came into HOLD otherwise meanwhile (log entry 126). -/
def execHoldFrameReached (c : Nat) (s : State) : Out :=
  .next (s.when (s.boundaryDue c 3)
    (if s.cellSt c = 2 ∨ s.cellSt c = 3
     then (((s.updCell c (fun x => { x with heldBy := 1, missed := 0, waiting := Table.erase (Table.erase x.waiting 3) 4 })).setCellSt c 3).cmdDone c 3)
     else s.boundaryGone c 3))

/-- RESUME_FRAME_REACHED (R297, R311, R313): the cell returns from HOLD to ON_AIR. -/
def execResumeFrameReached (c : Nat) (s : State) : Out :=
  .next (s.when (s.boundaryDue c 4)
    (if s.cellSt c = 3
     then ((((s.updCell c (fun x => { x with waiting := Table.erase x.waiting 4, heldBy := 0, missed := 0 })).setCellSt c 2).startNormalise c (s.boundaryNs c 4)).cmdDone c 4)
     else s.boundaryGone c 4))

/-- RESET_FRAME_REACHED (R297, R312, R313): HARQ, soft buffers, estimates and block exponents clear; RESET_DONE. A HOLD that RESET
entered ends. -/
def execResetFrameReached (c : Nat) (s : State) : Out :=
  let x := s.cell c
  let s1 := s.updCell c (fun x => { x with waiting := Table.erase x.waiting 5, missed := 0, soft := [], softOrder := [], spilled := [], kept := [], estimates := [], heldBy := if x.heldBy = 3 then 0 else x.heldBy })
  let s2 := if x.heldBy = 3 ∧ s.cellSt c = 3 then s1.setCellSt c 2 else s1
  .next (s.when (s.boundaryDue c 5) (((s2.startNormalise c (s.boundaryNs c 5)).cmdDone c 5).cellEventNow c 9 0))

/-- HOLD_SOURCE_SWITCH (R309): the new source takes effect at its boundary. -/
def execHoldSourceSwitch (c : Nat) (s : State) : Out :=
  match (s.cell c).holdNext with
  | some (b, t) => .next (s.when (decide (t ≤ s.nowNs)) (s.updCell c (fun x => { x with holdSource := b, holdNext := none })))
  | none => .next s

end Sys2Proof.Machine
end

