-- ==== Sys2Proof/Machine/Coding.lean ====
section
/-! DEFINITION. The coding engines (R267 to R272), soft buffers (R268, R293, R316), result batches (R290 to R292) and retained SRS
estimates (R293). -/

set_option linter.unusedVariables false

namespace Sys2Proof.Machine

/-! The layered offset min-sum decoder (R267). -/

/-- Clamp an integer. -/
def clampInt (lo hi v : Int) : Int := max lo (min hi v)
/-- A soft sum: ±127 (R268). -/
def softClamp (v : Int) : Int := clampInt (-127) 127 v
/-- A posterior: 10 bits (R267). -/
def posteriorClamp (v : Int) : Int := clampInt (-512) 511 v

/-- The message of a check to one of its bits from the other bits' values: sign product, least magnitude less the offset of 1, not
below 0, at most 127. -/
def checkMessage (others : List Int) : Int :=
  let neg := (others.filter (fun v => decide (v < 0))).length % 2 == 1
  let least := others.foldl (fun (m : Option Nat) v => match m with | none => some v.natAbs | some x => some (min x v.natAbs)) none
  let mag : Int := match least with | none => 0 | some x => (min 127 (x - 1) : Nat)
  if neg then -mag else mag

/-- The other elements of a list, for each of its places. -/
def others {α : Type} (pre : List α) (l : List α) : List (List α) := match l with | [] => [] | a :: r => (pre ++ r) :: others (pre ++ [a]) r

/-- Process one check row: columns, its messages; posteriors in and out. -/
def checkRow (cols : List Nat) (msgs : List Int) (post : List Int) : List Int × List Int :=
  let q := (cols.zip (msgs ++ List.replicate (cols.length - msgs.length) 0)).map (fun e => post.getD e.1 0 - e.2)
  let new := (others [] q).map checkMessage
  let post := (cols.zip (q.zip new)).foldl (fun p e => setAt p e.1 (posteriorClamp (e.2.1 + e.2.2))) post
  (new, post)

/-- One full iteration, in ascending row order. -/
def decodePass (rows : List (List Nat)) (msgs : List (List Int)) (post : List Int) : List (List Int) × List Int :=
  match rows, msgs with
  | [], _ => ([], post)
  | r :: rs, ms =>
    let x := checkRow r (ms.head?.getD []) post
    let y := decodePass rs (ms.drop 1) x.2
    (x.1 :: y.1, y.2)

/-- Hard decisions: a positive LLR favours bit 0. -/
def hardBits (post : List Int) : List Bool := post.map (fun v => decide (v < 0))
/-- Every parity check holds. -/
def parityOk (rows : List (List Nat)) (bs : List Bool) : Bool := rows.all (fun r => (r.filter (fun c => bs.getD c false)).length % 2 == 0)

/-- Iterate until the checks hold or `n` iterations have run: iterations run, posteriors. -/
def decodeIter (rows : List (List Nat)) (n ran : Nat) (msgs : List (List Int)) (post : List Int) : Nat × List Int :=
  match n with
  | 0 => (ran, post)
  | n + 1 =>
    let x := decodePass rows msgs post
    if parityOk rows (hardBits x.2) then (ran + 1, x.2) else decodeIter rows n (ran + 1) x.1 x.2

/-! Soft buffers. -/

/-- Key of a soft buffer. -/
def softKey (harq index : Nat) : Nat := harq * 256 + index
/-- Bytes of the soft buffers in SRAM. -/
def Cell.softBytes (x : Cell) : Nat := ((List.filter (fun (e : Nat × List Int) => !x.spilled.contains e.1) x.soft).map (fun e => e.2.length)).sum
/-- The order in which buffers spill: the least recently written first, those that are to stay in SRAM after the others (R286, R293; log
entry 127). -/
def Cell.spillOrder (x : Cell) : List Nat := x.softOrder.filter (fun k => !x.kept.contains k) ++ x.softOrder.filter (fun k => x.kept.contains k)
/-- Spill buffers in an order until the rest fit (R293). -/
def spillTo (x : Cell) (room : Nat) (order : List Nat) : Cell :=
  match order with
  | [] => x
  | k :: r => if x.softBytes ≤ room then x else spillTo (if x.spilled.contains k then x else { x with spilled := k :: x.spilled }) room r
/-- Write a soft buffer (R268, R316): it is the most recently written. -/
def Cell.writeSoft (x : Cell) (k : Nat) (v : List Int) : Cell :=
  { x with soft := Table.put [] x.soft k v, softOrder := x.softOrder.filter (fun i => i != k) ++ [k], spilled := x.spilled.filter (fun i => i != k) }
/-- Clear the buffers of a HARQ process (R268). -/
def Cell.clearHarq (x : Cell) (h : Nat) : Cell :=
  { x with soft := Table.keep x.soft (fun k _ => !ofHarq h k), softOrder := x.softOrder.filter (fun k => !ofHarq h k), spilled := x.spilled.filter (fun k => !ofHarq h k)
           kept := x.kept.filter (fun k => !ofHarq h k) }
/-- Received LLRs added to the stored ones, position by position (R268). -/
def combine (old new : List Int) : List Int :=
  match old, new with
  | [], l => l.map softClamp
  | l, [] => l.map softClamp
  | a :: r, b :: t => softClamp (a + softClamp b) :: combine r t
/-- Filler bits are held at +127 (R268). -/
def holdFillers (at' : List Nat) (l : List Int) : List Int := (numbered 0 l).map (fun e => if at'.contains e.1 then 127 else e.2)
/-- What the decoder starts from: the punctured systematic bits at 0, then the buffer (R268); a bit without an LLR is 0. -/
def decodeStart (punctured : Nat) (rows : List (List Nat)) (buffer : List Int) : List Int :=
  let l := List.replicate punctured 0 ++ buffer
  l ++ List.replicate (rows.foldl (fun m r => r.foldl (fun m c => max m (c + 1)) m) 0 - l.length) 0

/-- The PDU of an order that is served: its type and index, without error. -/
def OrderIn.pdu (o : OrderIn) (type i : Nat) : Option Pdu :=
  match o.pdus[i]? with
  | some p => if p.type = type ∧ !(o.errors.map (fun e => e.1)).contains i then some p else none
  | none => none

/-- Every uplink task of the slot has ended; the PDUs of one that failed with its re-run stand in `failed` (R305). -/
def SlotWork.uplinkDone (w : SlotWork) : Bool := w.cut && w.held == 0 && (w.tasks.filter (fun t => t.2.1)).all (fun t => w.ended.contains t.1)

/-- A PDU of the UL_TTI that is served, with results to come (R305). -/
def SlotWork.ulPdu (w : SlotWork) (o : OrderIn) (type i : Nat) : Option Pdu := if w.failed.contains i then none else o.pdu type i
/-- A decode on the source of a move writes a soft buffer: sent to the target again up to H, kept for the final copy after it (R321). -/
def State.softWritten (s : State) (c k : Nat) : State :=
  match (s.cell c).move with
  | some m =>
    if !m.source || !m.copied then s
    else if s.nowNs < m.h then s.emit (.message m.peer 20 (m.peerCell :: k :: (Table.get [] (s.cell c).soft k).map (fun v => unsigned 8 v)))
    else s.updCell c (fun x => { x with move := some { m with late := m.late.filter (fun i => i != k) ++ [k] } })
  | none => s

/-- LDPC_DECODE (R267, R268, R270, R272, R293, R316, R321): combine, decode, then write the soft buffer. A new transmission first clears its
process's buffers, once per PDU. -/
def execLdpcDecode (c : Nat) (b : CodeBlock) (s : State) : Out :=
  let w := s.slotWork c b.slot
  match w.ul with
  | none => .next s
  | some o =>
    match w.ulPdu o 1 b.pdu with
    | none => .next s
    | some p =>
      let x := s.cell c
      let first := !w.decoded.any (fun e => e.1 == b.pdu)
      let x := if b.newData && first then x.clearHarq b.harq else x
      let k := softKey b.harq b.index
      let llrs := holdFillers b.fillers (combine (Table.get [] x.soft k) b.llrs)
      let rows := Config.ldpcRows b.graph b.zc (codingRows (b.graph, b.zc, b.h))
      let r := decodeIter rows b.maxIter 0 [] (decodeStart (Config.ldpcPunctured b.graph b.zc) rows llrs)
      let bs := hardBits r.2
      let x := x.writeSoft k llrs
      let x := { x with kept := x.kept.filter (fun i => i != k) ++ (if p.spill = 2 then [k] else []) }
      let x := if p.spill = 1 then { x with spilled := k :: x.spilled } else spillTo x (65536 * s.regN (Reg.cellSoftbufPages c)) x.spillOrder
      let w := { w with decoded := w.decoded ++ [(b.pdu, b.index, r.1, Config.cbCrcOk bs, bs)] }
      let named := decide (b.harq = p.harq ∧ b.newData = p.newData ∧ b.maxIter = p.maxIter ∧ 1 ≤ b.maxIter) && p.coding[b.index]? == some (b.graph, b.zc, b.h)
      .next (s.when (w.uplinkDone && named && !(s.slotWork c b.slot).decoded.any (fun e => e.1 == b.pdu && e.2.1 == b.index))
        (((s.setCell c x).setSlotWork c b.slot w).softWritten c k))

/-- The transport blocks staged for a PDU, by codeword (R287, R316). -/
def SlotWork.blocksOf (w : SlotWork) (pdu : Nat) : List (List Byte) := (w.staged.filter (fun e => e.1 == pdu)).map (fun e => e.2.2)
/-- Keep a coded block of a slot that is served computed. -/
def State.addCoded (s : State) (c slot pdu index : Nat) (bs : List Bool) : State :=
  let w := s.slotWork c slot
  if !w.cut ∨ w.held ≠ 0 ∨ w.coded.any (fun e => e.1 = pdu ∧ e.2.1 = index) then s else s.setSlotWork c slot { w with coded := w.coded ++ [(pdu, index, bs)] }

/-- LDPC_ENCODE (R266, R270, R272, R287, R316): a code block of a PDSCH PDU that is served, from its transport blocks in the staging area. -/
def execLdpcEncode (c slot pdu index : Nat) (s : State) : Out :=
  let w := s.slotWork c slot
  let p := match w.dl with | some o => o.pdu 1 pdu | none => none
  match p with
  | none => .next s
  | some p => match p.coding[index]? with
    | none => .next s
    | some b => .next (s.addCoded c slot pdu index (Config.ldpcEncode b.1 b.2.1 (Config.codeBlock p.coding (w.blocksOf pdu) index)))

/-- POLAR_ENCODE (R269): DCI `index` of a PDCCH PDU of the DL_TTI or, from 1,024 on, of the UL_DCI (log entry 41). -/
def execPolarEncode (c slot pdu index : Nat) (s : State) : Out :=
  let w := s.slotWork c slot
  let p := if pdu < 1024 then (match w.dl with | some o => o.pdu 0 pdu | none => none) else (match w.dci with | some o => o.pdu 0 (pdu - 1024) | none => none)
  match p with
  | none => .next s
  | some p => match p.dcis[index]? with
    | none => .next s
    | some bs => .next (s.addCoded c slot pdu index (Config.polarEncode bs.length bs))

/-- POLAR_DECODE (R269): UCI of a PUSCH or PUCCH PDU; iterations 1, the CRC of the path that passes. -/
def execPolarDecode (c slot pdu info : Nat) (llrs : List Int) (s : State) : Out :=
  let w := s.slotWork c slot
  let p : Bool := match w.ul with | some o => (w.ulPdu o 1 pdu).isSome || (w.ulPdu o 3 pdu).isSome | none => false
  let r := Config.polarDecode info (llrs.map softClamp)
  -- index 4,096 keeps UCI apart from the code blocks of the PDU
  .next (s.when (p && w.uplinkDone && !w.decoded.any (fun e => e.1 == pdu && e.2.1 == 4096))
    (s.setSlotWork c slot { w with decoded := w.decoded ++ [(pdu, 4096, 1, r.isSome, r.getD [])] }))

/-! Result batches (R290 to R292). -/

/-- Write bytes at a device virtual address of a context: host memory, while the function is ENABLED (R453), or this chip; none where it
cannot be written. -/
def State.writeVa (s : State) (ctx va : Nat) (bs : List Byte) : Option State :=
  match s.translate ctx va false true with
  | .host a => if s.reg (Reg.functionState (ctxFunc ctx)) = 1 then some (s.emit (.hostWrite (ctxFunc ctx) a bs)) else none
  | .tile _ _ => s.writeLocal ctx (bits va 42 0) bs
  | .gddr _ => s.writeLocal ctx (bits va 42 0) bs
  | _ => none

/-- The code blocks decoded for a PDU: index, iterations, CRC, bits. -/
def SlotWork.blocks (w : SlotWork) (pdu : Nat) : List (Nat × Nat × Bool × List Bool) := (w.decoded.filter (fun e => e.1 == pdu && e.2.1 != 4096)).map (fun e => e.2)
/-- Decoder time of a PDU in ns (R270): the exact sum, rounded down. -/
def decodeNs (p : Pdu) (l : List (Nat × Nat × Bool × List Bool)) : Nat :=
  (l.map (fun e => match p.coding[e.1]? with | some b => e.2.1 * codingRows b * b.2.1 * 11 | none => 0)).sum / 4800
/-- Bits of a PDU's decoded code blocks in ascending index. -/
def blockBits (p : Pdu) (l : List (Nat × Nat × Bool × List Bool)) : List (List Bool) :=
  (List.range p.coding.length).filterMap (fun i => (l.find? (fun e => e.1 == i)).map (fun e => e.2.2.2))
/-- Every code block of the PDU is decoded and passes, and so does the transport block (R291). -/
def tbOk (p : Pdu) (l : List (Nat × Nat × Bool × List Bool)) : Bool :=
  l.length == p.coding.length && l.all (fun e => e.2.2.1) && Config.tbCrcOk p.coding (blockBits p l)
/-- The CRC trailer (R292). -/
def State.crcTrailer (s : State) (c : Nat) (p : Pdu) (l : List (Nat × Nat × Bool × List Bool)) : List Byte :=
  let spilled := (s.cell c).spilled.any (ofHarq p.harq)
  bytesOf 8 ((l.foldl (fun m e => max m e.2.1) 0) * 2 ^ 56 + (l.filter (fun e => !e.2.2.1)).length * 2 ^ 48 + p.coding.length * 2 ^ 40
    + (if spilled then 2 ^ 39 else 0) + decodeNs p l % 2 ^ 32)
/-- Padded with zeros to a multiple of 8 bytes. -/
def pad8 (bs : List Byte) : List Byte := fit ((bs.length + 7) / 8 * 8) bs

/-- The bytes of an entry (R291): its type, PDU index and the body of the FAPI part; none where the entry is not to be written. The
chip adds the CRC trailer, the transport block and the combined LLRs. -/
def State.entryBytes (s : State) (c : Nat) (w : SlotWork) (o : OrderIn) (e : Nat × Nat × List Byte) : Option (List Byte) :=
  match o.pdus[e.2.1]? with
  | none => none
  | some p =>
    let l := w.blocks e.2.1
    let body : Option (List Byte) := match e.1 with
      | 1 => some (pad8 e.2.2 ++ s.crcTrailer c p l)
      | 2 => if tbOk p l then some (pad8 (e.2.2 ++ fit (p.tbs.headD 0) (Config.transportBlock p.coding (blockBits p l) (p.tbs.headD 0)))) else none
      | 6 => some (pad8 ((List.range p.coding.length).flatMap (fun i => (Table.get [] (s.cell c).soft (softKey p.harq i)).map (fun v => BitVec.ofInt 8 v))))
      | _ => some (pad8 e.2.2)
    match body with
    | none => none
    | some b => some (bytesOf 8 (e.1 * 2 ^ 48 + (8 + b.length) * 2 ^ 32 + p.handle) ++ b)

/-- The bytes of a PDU_ERROR entry: header, index and reason. -/
def errorBytes (o : OrderIn) (e : Nat × Nat) : List Byte :=
  let h := match o.pdus[e.1]? with | some p => p.handle | none => 0
  bytesOf 8 (15 * 2 ^ 48 + 16 * 2 ^ 32 + h) ++ bytesOf 8 (e.1 * 2 ^ 48 + e.2 * 2 ^ 32)

/-- Write entries one after another: state, bytes written so far, entries written, overflow. One that does not fit, or whose place
cannot be written, is left out (R290; log entry 42). -/
def writeEntries (o : OrderIn) (l : List (List Byte)) (s : State) (at' n : Nat) (lost : Bool) : State × Nat × Nat × Bool :=
  match l with
  | [] => (s, at', n, lost)
  | e :: r =>
    if o.resultLength < at' + e.length then writeEntries o r s at' n true
    else match s.writeVa o.ctx (o.resultAddr + at') e with
      | none => writeEntries o r s at' n true
      | some s => writeEntries o r s (at' + e.length) (n + 1) lost

/-- Write a batch and its record (R290, R448). -/
def State.writeBatch (s : State) (c slot otype btype : Nat) (o : OrderIn) (l : List (List Byte)) : State :=
  let r := writeEntries o l s o.written 0 false
  let o' := { o with written := r.2.1, batches := btype :: o.batches }
  (r.1.setSlotWork c slot ((r.1.slotWork c slot).setOrder otype o')).writeRecord o.func o.resultRing
    { rtype := 2, ctx := o.ctx, seq := o.seq, doneLnc := s.lnc % 4294967296
      body := o.orderSeq * 2 ^ 96 + btype * 2 ^ 92 + (if r.2.2.2 then 2 ^ 91 else 0) + c * 2 ^ 80 + r.2.2.1 * 2 ^ 64 + o.written * 2 ^ 32 + (r.2.1 - o.written) }

/-- The estimates of SRS entries are retained until 80 ms after their occasion (R293). -/
def State.retain (s : State) (c slot : Nat) (o : OrderIn) (entries : List (Nat × Nat × List Byte)) : State :=
  entries.foldl (fun s e => match o.pdus[e.2.1]? with
    | some p => if e.1 = 4 then s.updCell c (fun x => { x with estimates := Table.insert x.estimates p.handle (s.airNs c slot + s.slotLen c + 80000000) }) else s
    | none => s) s

/-- Entry types of a batch type (R290, R291): 1 PUSCH and PUCCH, 2 PRACH, 3 SRS. -/
def batchTakes (btype type : Nat) : Bool := match btype with | 1 => type == 1 || type == 2 || type == 3 || type == 6 | 2 => type == 5 | 3 => type == 4 | _ => false

/-- CRC and RX_DATA in the order of R291: RX_DATA stands directly after the CRC of its PUSCH that passes, and nowhere else. -/
def crcThenData (passes : Nat → Bool) (prev : Option Nat) (l : List (Nat × Nat × List Byte)) : Bool :=
  match l with
  | [] => prev.isNone
  | e :: r => (match prev with | some i => e.1 == 2 && e.2.1 == i | none => e.1 != 2)
      && crcThenData passes (if e.1 = 1 ∧ passes e.2.1 then some e.2.1 else none) r
/-- A batch holds the entries that R286 and R291 give it: a CRC of a PUSCH whose code blocks are all decoded, then its data, and its
LLRs after the CRC where LLR_EXPORT asks for them. -/
def SlotWork.batchOk (w : SlotWork) (o : OrderIn) (l : List (Nat × Nat × List Byte)) : Bool :=
  let of := fun (i : Nat) (f : Pdu → Bool) => match o.pdus[i]? with | some p => f p | none => false
  crcThenData (fun i => of i (fun p => tbOk p (w.blocks i))) none l &&
  (numbered 0 l).all (fun e => match e.2.1 with
    | 1 => of e.2.2.1 (fun p => (w.blocks e.2.2.1).length == p.coding.length && (!p.llrExport || l.any (fun x => x.1 == 6 && x.2.1 == e.2.2.1)))
    | 6 => of e.2.2.1 (fun p => p.llrExport) && (l.take e.1).any (fun x => x.1 == 1 && x.2.1 == e.2.2.1)
    | _ => true)

/-- RESULT_BATCH_WRITE (R289 to R294, R301, R447, R450): once per batch. Results come from a UL_TTI whose uplink tasks have ended, an
error batch from an order of any type after its cut-off; entries of PDUs that were dropped, or whose task failed with its re-run, are left out. -/
def execResultBatchWrite (c slot otype btype : Nat) (entries : List (Nat × Nat × List Byte)) (s : State) : Out :=
  let w := s.slotWork c slot
  match w.order otype with
  | none => .next s
  | some o =>
    if btype = 4 then
      .next (s.when (decide (1 ≤ otype ∧ otype ≤ 4) && w.cut && !o.errors.isEmpty && !o.batches.contains 4) (s.writeBatch c slot otype 4 o (o.errors.map (errorBytes o))))
    else
      let good := entries.filter (fun e => batchTakes btype e.1 && !(o.errors.map (fun x => x.1)).contains e.2.1 && !w.failed.contains e.2.1)
      let ok := otype == 2 && decide (1 ≤ btype ∧ btype ≤ 3) && w.uplinkDone && !o.batches.contains btype && w.batchOk o good
      let s1 := s.writeBatch c slot otype btype o (good.filterMap (s.entryBytes c w o))
      .next (s.when ok (if btype = 3 then s1.retain c slot o good else s1))

/-- SRS_ESTIMATE_EXPIRY (R293). -/
def execSrsEstimateExpiry (c handle : Nat) (s : State) : Out :=
  match Table.find? (s.cell c).estimates handle with
  | some t => .next (s.when (decide (t ≤ s.nowNs)) (s.updCell c (fun x => { x with estimates := Table.erase x.estimates handle })))
  | none => .next s

end Sys2Proof.Machine
end

