-- ==== Sys2Proof/Machine/CellMove.lean ====
section
/-! DEFINITION. Castling (R320 to R324): the steps of a move on the source and on the target. -/

set_option linter.unusedVariables false

namespace Sys2Proof.Machine

/-- Change the move of a cell. -/
def State.updMove (s : State) (c : Nat) (f : MoveRun → MoveRun) : State := s.updCell c (fun x => { x with move := x.move.map f })

/-- A step of a move runs: the cell is MOVING and its move satisfies `p`. -/
def State.moveStep (s : State) (c : Nat) (p : MoveRun → Bool) (f : MoveRun → State) : State :=
  match (s.cell c).move with
  | some m => if s.cellSt c = 4 && p m then f m else s
  | none => s

/-- MOVE_TARGET_PREPARE (R313, R321): at H − 1 s the target's radio partition grows and its hold launches stand. -/
def execMoveTargetPrepare (c : Nat) (s : State) : Out :=
  .next (s.moveStep c (fun m => !m.source && !m.prepared && decide (m.h ≤ s.nowNs + 1000000000))
    (fun _ => (((s.radioGrow (s.regN (Reg.cellCluster c))).updCell c (fun x => { x with
      encoded := true, resized := true, soft := [], softOrder := [], spilled := [], kept := [], estimates := [] })).updMove c (fun m => { m with prepared := true }))))

/-- Send context of a cell to the peer on the TEMPO channel: one message per soft buffer of the keys (kind 20: cell, key, LLRs), one with the
retained estimates (kind 21: cell, handles with their expiry). -/
def State.sendContext (s : State) (c : Nat) (m : MoveRun) (keys : List Nat) : State :=
  let x := s.cell c
  let s := keys.foldl (fun s k => s.emit (.message m.peer 20 (m.peerCell :: k :: (Table.get [] x.soft k).map (fun v => unsigned 8 v)))) s
  s.emit (.message m.peer 21 (m.peerCell :: x.estimates.flatMap (fun (e : Nat × Nat) => [e.1, e.2])))

/-- Keep context that has arrived. -/
def State.takeContext (s : State) (c : Nat) (buffers : List (Nat × List Int)) (estimates : List (Nat × Nat)) : State :=
  s.updCell c (fun x =>
    let x := buffers.foldl (fun (x : Cell) e => x.writeSoft e.1 (e.2.map softClamp)) x
    { x with estimates := estimates.foldl (fun t e => Table.insert t e.1 e.2) x.estimates })

/-- Send what the bulk copy carries beside the context: configuration (kind 24: cell, values), HOLD_SOURCE (25) and PREC_TABLE (26). The
target holds them already, by R320. -/
def State.sendConfig (s : State) (c : Nat) (m : MoveRun) : State :=
  let bytes := fun (k : Nat) => (s.blob k).map (fun b => b.toNat)
  ((s.emit (.message m.peer 24 (m.peerCell :: s.cellConfig c))).emit (.message m.peer 25 (m.peerCell :: bytes (Reg.cellHoldSource c)))).emit
    (.message m.peer 26 (m.peerCell :: bytes (Reg.cellPrecTable c)))

/-- MOVE_BULK_COPY (R321): from H − 1 s to H − 60 ms the source sends its configuration and context, once; until H the target takes what
arrives and reports READY (kind 22). -/
def execMoveBulkCopy (c : Nat) (buffers : List (Nat × List Int)) (estimates : List (Nat × Nat)) (s : State) : Out :=
  .next (s.moveStep c (fun m => decide (m.h ≤ s.nowNs + 1000000000 ∧ s.nowNs < m.h)
      && (if m.source then !m.copied && decide (s.nowNs + 60000000 ≤ m.h) else m.prepared))
    (fun m =>
      let s1 := if m.source then (s.sendConfig c m).sendContext c m ((s.cell c).soft.map (fun e => e.1)) else (s.takeContext c buffers estimates).emit (.message m.peer 22 [m.peerCell])
      s1.updMove c (fun m => { m with copied := true })))

/-- MOVE_COMMIT_POINT (R301, R321, R324): at H − 50 ms the move commits, or aborts with its cause. -/
def execMoveCommitPoint (c : Nat) (peerReady peerLocked : Bool) (s : State) : Out :=
  .next (s.moveStep c (fun m => !m.committed && decide (m.h ≤ s.nowNs + 50000000))
    (fun m =>
      if s.fabric.dead.contains m.peer then s.abortMove c 3
      else if s.reg Reg.timeState ≠ 2 ∨ !peerLocked then s.abortMove c 4
      else if !m.copied ∨ !peerReady then s.abortMove c 2
      else (s.updMove c (fun m => { m with committed := true })).cellEventNow c 10 m.peer))

/-- DUAL_RX_OPEN (R321, R323): at H − 10 ms both chips accept the cell's uplink flows. -/
def execDualRxOpen (c : Nat) (s : State) : Out :=
  .next (s.moveStep c (fun m => m.committed && !m.dualRx && decide (m.h ≤ s.nowNs + 10000000 ∧ s.nowNs < m.h + 10000000)) (fun _ => s.updMove c (fun m => { m with dualRx := true })))

/-- MOVE_HANDOVER (R313, R321, R322): from H on the target serves the cell's slots, with NORMALISE; the source's partition is to shrink
at H + 4 ms. -/
def execMoveHandover (c : Nat) (s : State) : Out :=
  .next (s.moveStep c (fun m => m.committed && !m.handed && decide (m.h ≤ s.nowNs))
    (fun m =>
      let s := s.updMove c (fun m => { m with handed := true })
      if m.source then s.shrinkAfter c m.h else s.startNormalise c m.h))

/-- MOVE_FINAL_COPY (R321): as the last decodes before H complete the source sends what they wrote and the estimates; the target keeps what
arrives and acknowledges it (kind 23). -/
def execMoveFinalCopy (c : Nat) (buffers : List (Nat × List Int)) (estimates : List (Nat × Nat)) (s : State) : Out :=
  .next (s.moveStep c (fun m => m.handed && (!m.finalSent || !m.late.isEmpty))
    (fun m =>
      let s1 := if m.source then s.sendContext c m m.late else (s.takeContext c buffers estimates).emit (.message m.peer 23 [m.peerCell])
      s1.updMove c (fun m => { m with finalSent := true, late := [] })))

/-- MOVE_FINAL_ACK (R297, R301, R321): the acknowledgement makes the source STOPPED, never before H; MOVE_DONE on both chips. -/
def execMoveFinalAck (c : Nat) (s : State) : Out :=
  .next (s.moveStep c (fun m => m.finalSent && m.late.isEmpty && !m.done && decide (m.h ≤ s.nowNs))
    (fun m =>
      let s := s.cellEventNow c 11 m.peer
      if m.source then ((s.cmdDone c 6).stopCell c).updCell c (fun x => { x with quietUntil := m.h + 10000001 }) else s.updMove c (fun m => { m with done := true })))

/-- DUAL_RX_CLOSE (R297, R321): at H + 10 ms the window closes and the target cell is ON_AIR. -/
def execDualRxClose (c : Nat) (s : State) : Out :=
  .next (s.moveStep c (fun m => m.committed && decide (m.h + 10000000 ≤ s.nowNs))
    (fun m => if m.source then s.updMove c (fun m => { m with dualRx := false })
              else (((s.updCell c (fun x => { x with move := none, startAt := 0 })).setCellSt c 2).cmdDone c 6)))

end Sys2Proof.Machine
end

