-- ==== Sys2Proof/Machine/Release.lean ====
section
/-! DEFINITION. The release point (R304, R305, R337 to R340) and the standing hold launches (R308). -/

set_option linter.unusedVariables false

namespace Sys2Proof.Machine

/-! Radio frames. -/

/-- Downlink and uplink streams of a cell's binding (R355). -/
def State.dlStreams (s : State) (c : Nat) : Nat := s.regN (Reg.bindStreams c) / 256
/-- See dlStreams. -/
def State.ulStreams (s : State) (c : Nat) : Nat := s.regN (Reg.bindStreams c) % 256

/-- Put a radio frame of a symbol on the cell's port (R334, R337): C-plane (kind 1) in queue 14, U-plane (2) in queue 13; its eCPRI
sequence counts per stream and plane. `close` is the time before the symbol by which it must be sent. -/
def State.sendRadio (s : State) (c n symbol kind flow length close : Nat) : State :=
  let q := Table.get 0 (s.cell c).txSeq flow
  let s := s.updCell c (fun x => { x with txSeq := Table.put 0 x.txSeq flow ((q + 1) % 256) })
  s.enqueue (s.regN (Reg.bindFhPort c)) (if kind = 1 then 14 else 13)
    { kind := kind, length := length, cell := c, slot := n, symbol := symbol, close := s.symbolNs c n symbol - close, func := s.cellOwner c, content := [BitVec.ofNat 8 q] }

/-- A frame has 64 to 9,216 bytes; the O-RAN encoding sets how many (log entry 10). -/
def frameBytes (n : Nat) : Nat := max 64 (min 9216 n)

/-- The C-plane of a slot enters queue 14 in ascending symbol, one message per stream (R335, R337; log entry 43): `dl` downlink and `ul`
uplink streams. Flow numbers: downlink stream, 256 + uplink stream. -/
def State.sendControl (s : State) (c n dl ul : Nat) (key : SlotKey) : State :=
  (List.range 14).foldl (fun s k =>
    let s := (List.range dl).foldl (fun s i => s.sendRadio c n k 1 i (frameBytes (Config.sectionBytes key 1 k i)) (s.regN (Reg.bindT1aMinUp c))) s
    (List.range ul).foldl (fun s i => s.sendRadio c n k 1 (256 + i) (frameBytes (Config.sectionBytes key 1 k (256 + i))) (s.regN (Reg.bindT1aMinUp c))) s) s

/-! The decision. -/

/-- Downlink sections of the slot are queued: it was prepared, and every downlink task has ended (R304). -/
def SlotWork.ready (w : SlotWork) : Bool := w.cut && w.held == 0 && (w.tasks.filter (fun t => !t.2.1)).all (fun t => w.ended.contains t.1)

/-- Why a slot that is not computed is held: its own cause, the cell's, a conductor that did not prepare it (2), or a task that is not
complete (3). -/
def State.releaseCause (s : State) (c n : Nat) : Nat :=
  let w := s.slotWork c n
  let now := s.holdCause c n
  if now ≠ 0 ∨ w.held ≠ 0 then (if holdRank w.held < holdRank now then now else w.held) else if !w.cut then 2 else 3

/-- A held slot (R305, R310): its tasks are dropped; the hold pattern, counted, or the idle slot; events; two slots of NORMALISE after a single
one while ON_AIR (R313). -/
def State.sendHeld (s : State) (c n cause : Nat) : State :=
  let w := s.slotWork c n
  let has := s.holdHas c n
  let whole := w.holdReady || !has
  let s := (s.dropSlotTasks c n).setSlotWork c n { w with held := cause, cut := true, tasks := [], ended := [], released := if whole then 2 else 3 }
  let s := if whole then (if has then s.sendControl c n (s.dlStreams c) 0 (s.slotKey c n (s.cell c).holdSource) else s).bump (Reg.cellHeldSlots c) 1
    else s.sendControl c n (s.dlStreams c) (s.ulStreams c) (s.slotKey c n [])
  let s := if !whole then s.cellEvent c 16 n 0 else if cause ≤ 4 then s.cellEvent c 4 n cause else s
  (s.discardOrders c n).heldOnAir c n

/-- RELEASE_POINT (R304, R305, R308, R310, R337): once per slot, the computed slot if all of it is queued, else the hold pattern, else
the idle slot. No conductor and no tile takes part. -/
def execReleasePoint (c slot : Nat) (s : State) : Out :=
  let w := s.slotWork c slot
  let ok := decide (c < 256) && s.serves c slot && w.released == 0 && decide (s.releaseNs c slot ≤ s.nowNs ∧ s.nowNs < s.airNs c slot + s.slotLen c)
  let computed := (s.setSlotWork c slot { w with released := 1 }).sendControl c slot
    (if Config.tddDownlink c slot then s.dlStreams c else 0) (if Config.tddUplink c slot then s.ulStreams c else 0) (s.slotKey c slot [])
  .next (s.when ok (if w.ready && s.holdCause c slot == 0 then computed else s.sendHeld c slot (s.releaseCause c slot)))

/-- SYMBOL_RELEASE (R337, R339): U-plane frames of a symbol enter queue 13 in ascending eAxC ID, for a computed slot or a hold pattern. -/
def execSymbolRelease (c slot symbol : Nat) (s : State) : Out :=
  let w := s.slotWork c slot
  let due := decide (symbol < 14 ∧ s.symbolNs c slot symbol + s.regN (Reg.bindTcpAdvDl c) ≤ s.nowNs + s.regN (Reg.cellT1aMax c))
  let carries := decide (w.released = 1) || (decide (w.released = 2) && s.holdHas c slot)
  let key := s.slotKey c slot (if w.released = 2 then (s.cell c).holdSource else [])
  let sent := (List.range (s.dlStreams c)).foldl (fun s i =>
    s.sendRadio c slot symbol 2 (512 + i) (frameBytes (Config.sectionBytes key 2 symbol i)) (s.regN (Reg.bindT1aMinUp c)))
    (s.setSlotWork c slot { w with symbols := symbol :: w.symbols })
  .next (s.when (due && carries && !w.symbols.contains symbol) sent)

/-- Radio frames of a queue that can no longer start in time (R340): those of the named symbol are discarded and counted. -/
def State.dropLate (s : State) (p q c slot symbol : Nat) : State :=
  let l := (s.port p).queue q
  let rate := s.rateOf p
  let late := fun (e : Nat × TxFrame) => (e.2.kind == 1 || e.2.kind == 2) && e.2.cell == c && e.2.slot == slot && e.2.symbol == symbol
    && decide (e.2.close < s.nowNs + e.2.serialNs rate)
  let n := (l.filter late).length
  if n = 0 then s else (s.setQueue p q (l.filter (fun e => !late e))).bump (Reg.bindDlLate c) n

/-- SYMBOL_WINDOW_CLOSE (R337, R340): at t_sym(k) − T1A_MIN_UP frames of the symbol not begun in time are discarded. -/
def execSymbolWindowClose (c slot symbol : Nat) (s : State) : Out :=
  let p := s.regN (Reg.bindFhPort c)
  .next (s.when (decide (symbol < 14 ∧ s.symbolNs c slot symbol ≤ s.nowNs + s.regN (Reg.bindT1aMinUp c)))
    ((s.dropLate p 13 c slot symbol).dropLate p 14 c slot symbol))

/-! Standing hold launches. -/

/-- HOLD_LAUNCH (R304, R308): at the downlink launch LNC of a slot with an entry of HOLD_SOURCE, on the lowest virtual radio tile; the
hold work is the least share of R275, 45 % of the budget. It needs no conductor and runs whether or not the slot is computed. -/
def execHoldLaunch (c slot : Nat) (s : State) : Out :=
  let w := s.slotWork c slot
  let start := s.launchDl c slot
  let ok := decide (c < 256) && s.serves c slot && s.holdHas c slot && !w.holdSent && w.released == 0 && decide (start / 50 ≤ s.lnc)
  let s1 := s.setSlotWork c slot { w with holdSent := true }
  let r := s1.addRadioTask c slot { vtile := 0, nominalNs := s.budgetDl c * 9 / 20, uplink := false, rxBase := 0, rxLength := 0, moves := [], pdus := [] } start (s.budgetDl c) true
  .next (s.when ok (r.1.launchRadio r.2.1))

end Sys2Proof.Machine
end

