-- ==== Sys2Proof/Machine/Ports.lean ====
section
/-! DEFINITION. Fronthaul ports (ch. 11): modes and lane groups, reception with its checks in the order of R342, policers, the egress
scheduler, host frames, telemetry. -/

set_option linter.unusedVariables false

namespace Sys2Proof.Machine

/-! Modes and lanes (R24, R326 to R328). -/

/-- Lanes of a port mode. -/
def portLanes (mode : Nat) : Nat := match mode with | 0 => 0 | 3 => 2 | 4 => 4 | _ => 1
/-- Two lane ranges share a lane. -/
def lanesMeet (p n q m : Nat) : Bool := decide (p < q + m ∧ q < p + n)
/-- The enabled fronthaul ports. -/
def State.portsOn (s : State) : List Nat := (List.range 64).filter (fun p => s.reg (Reg.portMode p) != 0)
/-- The port carries a flow of a cell that is not STOPPED. -/
def State.portInUse (s : State) (p : Nat) : Bool := s.reg (Reg.portMode p) != 0 && s.liveCells.any (fun c => s.regN (Reg.bindFhPort c) == p)

/-- The reason that refuses a PORT_MODE (R328), in the model's order (log entry 12). -/
def State.portModeReason (s : State) (p v : Nat) : Option Nat :=
  let n := portLanes v
  let meets := s.portsOn.filter (fun q => q != p && lanesMeet p n q (portLanes (s.regN (Reg.portMode q))))
  if v ≠ 0 ∧ (p % n ≠ 0 ∨ 64 < p + n) then some 16
  else if v ≠ 0 ∧ bit (s.regN Reg.laneGroups) (p / 8) then some 18
  else if s.portInUse p || meets.any s.portInUse then some 17
  else if !meets.isEmpty then some 16
  else none
/-- PORT_MODE (R328): PORT_STATUS gives the reason of a refusal. -/
def portModeRule (s : State) (p v : Nat) : Option State := (s.portModeReason p v).map (fun r => s.setReg (Reg.portStatus p) r)
/-- The mode takes effect: the link trains anew, or is off. -/
def portModeEffect (s : State) (p v : Nat) : State := (s.portFlush p).setPortUp p (if v = 0 then 0 else 1)

/-- LANE_GROUPS (R24): at most four fronthaul groups; a group that changes carries no flow of a live cell and no job (log entry 52). -/
def laneGroupsRule (s : State) (v : Nat) : Option State :=
  let old := s.regN Reg.laneGroups
  let changed := (List.range 8).filter (fun g => bit old g != bit v g)
  let busy := changed.any (fun g =>
    if bit old g then (List.range 64).any (fun j => s.jobState j != 0 && (s.jobNodes j).any (fun n => n != s.node && (s.paths n).any (fun l => l / 8 == g)))
    else (List.range 8).any (fun i => s.portInUse (8 * g + i)))
  if 4 < ((List.range 8).filter (fun g => !bit v g)).length ∨ busy then some s else none
/-- Ports and links of a group that changes hands are disabled. -/
def laneGroupsEffect (s : State) (old v : Nat) : State :=
  ((List.range 8).filter (fun g => bit old g != bit v g)).foldl (fun s g =>
    (List.range 8).foldl (fun s i =>
      let p := 8 * g + i
      let s := if s.reg (Reg.portMode p) = 0 then s else ((s.portFlush p).setReg (Reg.portMode p) 0).setPortUp p 0
      if s.reg (Reg.linkMode p) = 0 then s else ((s.setLink p (s.link p).cleared).setReg (Reg.linkMode p) 0).setLinkUp p 0) s) s

/-- PORT_LINK_UP (R328): a port with a mode completes training. -/
def execPortLinkUp (p : Nat) (s : State) : Out :=
  .next (s.when (decide (p < 64) && s.reg (Reg.portMode p) != 0 && decide ((s.port p).up ≤ 1) && !s.power.inputOff)
    (((s.portSync p).setPort p { (s.portSync p).port p with credit := [] }).setPortUp p 2))

/-- PORT_DOWN (R343, R347, R517): queued and released frames are discarded and counted; the error log has an entry. -/
def execPortDown (p : Nat) (s : State) : Out :=
  .next (s.when (s.portUp p) (((s.portFlush p).setPortUp p 0).logError { klass := 0, unit := 13, code := 12, cluster := 9, detail := p }))

/-! Policers (R349, R350). -/

/-- One byte in token units. -/
def tokenByte : Nat := 156250000
/-- A frame of `len` bytes of a flow with a rate in byte/s and a burst in bytes: accepted or not. -/
def State.police (s : State) (p flow rate burst len : Nat) : State × Bool :=
  let x := s.port p
  let now := s.time.ticks
  let held := match Table.find? x.tokens flow with | some (t, last) => min (burst * tokenByte) (t + rate * (now - last)) | none => burst * tokenByte
  let ok : Bool := len * tokenByte ≤ held
  (s.setPort p { x with tokens := Table.insert x.tokens flow (if ok then held - len * tokenByte else held, now) }, ok)

/-! Reception (R331, R334, R336, R341, R342). -/

/-- A discarded frame. -/
def State.rxBad (s : State) (p : Nat) : State := s.bump (Reg.portRxBad p) 1
/-- The frame's tag and VLAN ID as a binding gives them. -/
def frameVlan (f : RxFrame) : Nat := if f.tags = 1 then 65536 + f.vlan % 4096 else 0

/-- Cells whose uplink flows are accepted: those not STOPPED, the target of a move from its dual receive window on, the source of a
move that is done until the window closes (R321, R323). -/
def State.uplinkCells (s : State) : List Nat :=
  (List.map (fun (e : Nat × Cell) => e.1) s.radio.cells).filter (fun c =>
    let x := s.cell c
    if s.cellSt c = 0 then decide (s.nowNs + 1 < x.quietUntil)
    else match x.move with | some m => m.source || m.dualRx || decide (m.h ≤ s.nowNs + 10000000) | none => true)
/-- The uplink stream of such a cell that a type 0 message belongs to (R331): cell and stream, PRACH streams from 64 on. -/
def State.uplinkStream (s : State) (p : Nat) (vlan eaxc : Nat) : Option (Nat × Nat) :=
  s.uplinkCells.findSome? (fun c =>
    let ul := s.regN (Reg.bindEaxcUl c)
    let pr := s.regN (Reg.bindEaxcPrach c)
    let n := s.ulStreams c
    if s.regN (Reg.bindFhPort c) ≠ p ∨ s.vlanOf c ≠ vlan then none
    else if ul ≤ eaxc ∧ eaxc < ul + n then some (c, eaxc - ul)
    else if pr ≤ eaxc ∧ eaxc < pr + n then some (c, 64 + (eaxc - pr))
    else none)

/-- Whether the section's compression is the binding's (R336): a modulation-compression cell has an uncompressed uplink (log entry 49). -/
def State.compOk (s : State) (c : Nat) (e : Ecpri) : Bool :=
  let m := s.regN (Reg.bindCompMethod c)
  let m' := if m = 4 then 0 else m
  e.method == m' && (m' == 0 || e.width == s.regN (Reg.bindIqWidth c)) && (e.hdrMode == (s.reg (Reg.bindCompHdrMode c) == 1))

/-- The U-plane message is of the kind that the chip accepts (R335): payload version 1, rb and symInc 0, the filter index of its stream. -/
def uplaneOk (stream : Nat) (e : Ecpri) : Bool :=
  decide (e.payloadVersion = 1 ∧ e.rb = 0 ∧ e.symInc = 0) && (if 64 ≤ stream then Config.prachFilter e.filterIndex else e.filterIndex == 0)

/-- Write an accepted section to the receive buffer of each uplink task of the slot, on its tile and on its standby (R316, R341). -/
def State.writeSection (s : State) (c n stream : Nat) (e : Ecpri) : State :=
  let p := s.radioPart c
  let at' := Config.sectionPlace (s.slotKey c n []) stream e.symbol e.startPrb
  ((s.slotWork c n).tasks.filter (fun t => t.2.1)).foldl (fun s t =>
    match (s.task t.1).radio with
    | none => s
    | some r => [t.2.2.1, t.2.2.2].foldl (fun s v => match (s.part p).tiles[v]? with
      | some i => s.updTile i (fun x => x.write (r.rxBase + at') (e.payload.take (min r.rxLength (x.loanBase - r.rxBase) - at')))
      | none => s) s) s

/-- The uplink of a slot is ignored (R304, R310): as its release point chose, or, before it, as things stand. -/
def State.uplinkHeld (s : State) (c n : Nat) : Bool :=
  let w := s.slotWork c n
  if w.released = 0 then s.holdCause c n != 0 || w.held != 0 else w.released != 1

/-- A section of an uplink stream (R310, R323, R334 to R336, R341): sequence, kind, compression, held slots, slots of the other chip of a move,
the window; then it is written and its bytes charged. -/
def State.uplinkSection (s : State) (p c stream : Nat) (f : RxFrame) (e : Ecpri) : State :=
  let last := Table.get 0 (s.cell c).rxSeq stream
  let gap := decide (last ≠ 0 ∧ e.seqid % 256 ≠ last % 256)
  let s := s.updCell c (fun x => { x with rxSeq := Table.put 0 x.rxSeq stream (e.seqid % 256 + 1) })
  let s := if gap then s.bump (Reg.bindSeqGaps c) 1 else s
  let n := e.slotAir
  let t := s.symbolNs c n e.symbol
  if !uplaneOk stream e then s
  else if !s.compOk c e then s.rxBad p
  else if !s.serves c n then s
  else if s.uplinkHeld c n then s.bump (Reg.bindHeldDrops c) 1
  else if s.nowNs < t + s.regN (Reg.bindTa4Min c) then s.bump (Reg.bindUlEarly c) 1
  else if t + s.regN (Reg.cellTa4Max c) < s.nowNs then s.bump (Reg.bindUlLate c) 1
  else (s.writeSection c n stream e).chargeBytes (s.cellOwner c) 8 f.length

/-- An eCPRI message of type 0 for a stream (R334, R349, R350): header, policer, section. -/
def State.radioFrame (s : State) (p : Nat) (f : RxFrame) (e : Ecpri) (c stream : Nat) : State :=
  if e.revision ≠ 1 ∨ e.cBit ∨ !e.eBit then s.rxBad p
  else
    let rate := s.streamRate c true
    let perSymbol := ceilDiv (rate * s.slotLen c) (14 * 8 * 1000000000)
    let r := s.police p (1024 + 256 * c + stream) (rate * 5 / 32) (4 * perSymbol) f.length
    if r.2 then r.1.uplinkSection p c stream f e else r.1.bump (Reg.bindPoliced c) 1

/-- Deliver a frame to receive ring r of function f (R445): the oldest posted buffer, its record, the charge. -/
def State.deliverHost (s : State) (p fn r flow : Nat) (f : RxFrame) : State :=
  let g := s.ring fn r
  match g.buffers with
  | [] => s.bump (Reg.ringRxNoBuffer fn r) 1
  | a :: rest =>
    let s := ((s.setRing fn r { g with buffers := rest }).emit (.hostWrite fn a f.content)).chargeBytes fn 8 f.length
    s.writeRecord fn (s.recordRing fn r)
      { rtype := 5, doneLnc := s.lnc % 4294967296, body := p * 2 ^ 120 + flow * 2 ^ 112 + f.length * 2 ^ 96 + s.stampStc.time80 }

/-- Field of HOST_FLOW h (R354). -/
def State.flowWord (s : State) (h : Nat) : Nat := natOf (fit 32 (s.blob (Reg.flowHostFlow h)))
/-- Host flow h matches a frame at port p (R331, R354). -/
def State.flowMatches (s : State) (h p : Nat) (f : RxFrame) : Bool :=
  let w := s.flowWord h
  bit w 249 && bits w 255 250 == p && bits w 239 192 == f.dst && bits w 175 160 == f.etherType &&
    (if bit w 248 then decide (1 ≤ f.tags) && bits w 191 180 == f.vlan % 4096 else f.tags == 0)
/-- The receive ring runs (R354). -/
def State.rxRingOk (s : State) (fn r : Nat) : Bool := s.reg (Reg.functionState fn) == 1 && s.reg (Reg.ringKind fn r) == 4 && s.reg (Reg.ringStatus fn r) == 1

/-- Steps 4 and 5 of R331. -/
def State.hostFrame (s : State) (p : Nat) (f : RxFrame) (hostOnly : Bool) : State :=
  match (List.range 256).find? (fun h => s.flowMatches h p f) with
  | some h =>
    let w := s.flowWord h
    let fn := bits w 159 150
    let r := bits w 149 144
    if !s.rxRingOk fn r then s.bump (Reg.portRxUnmatched p) 1
    else
      let q := s.police p h (125000 * bits w 127 96) (bits w 95 64) f.length
      if q.2 then q.1.deliverHost p fn r h f else q.1.bump (Reg.flowHostPoliced h) 1
  | none =>
    let r := s.regN (Reg.portDefaultRing p)
    if hostOnly ∨ r = 0xFFFF ∨ !s.rxRingOk 0 r then s.bump (Reg.portRxUnmatched p) 1
    else
      let q := s.police p 256 (125000 * s.regN (Reg.portDefaultRate p)) (s.regN (Reg.portDefaultBurst p)) f.length
      if q.2 then q.1.deliverHost p 0 r 0 f else q.1

/-- A PTP frame (R41, R350): policed, then heard. -/
def State.ptpFrame (s : State) (p : Nat) (f : RxFrame) : State :=
  let q := s.police p 257 2048 Config.ptpBurst 1
  match f.ptp with
  | some m => if q.2 then q.1.ptpHear p m else q.1
  | none => q.1

/-- One-way delay measurement (R334): a request is answered with the time of its arrival, a remote request asks for one, a response gives
RU_DELAY of the cells of the port and VLAN whose request left: its timestamp less theirs. -/
def State.delayFrame (s : State) (p : Nat) (f : RxFrame) (e : Ecpri) : State :=
  if e.revision ≠ 1 ∨ e.cBit then s.rxBad p
  else
    let mine := s.liveCells.filter (fun c => s.regN (Reg.bindFhPort c) == p && s.vlanOf c == (frameVlan f))
    match e.action with
    | 0 => s.enqueue p 12 { kind := 3, length := 64, content := 2 :: bytesOf 10 s.stampStc.time80 }
    | 2 => (mine.filter (fun c => (s.cell c).askedNs != 0)).foldl (fun s c =>
        (s.setReg (Reg.bindRuDelay c) ((e.timeNs : Int) - ((s.cell c).askedNs - 1))).updCell c (fun x => { x with askedNs := 0 })) s
    | 3 => s.enqueue p 12 { kind := 3, length := 64, cell := mine.headD 256, content := [0] }
    | _ => s.rxBad p

/-- FRAME_RECEIVE (R329, R331, R342): one destination, the first match in order. -/
def execFrameReceive (p : Nat) (f : RxFrame) (s : State) : Out :=
  .next (s.when (s.portUp p)
    (if f.length < 64 ∨ 9216 < f.length ∨ !f.fcsOk ∨ f.flowControl then s.rxBad p
     else if 2 ≤ f.tags then s.hostFrame p f true
     else if f.etherType = 0x88F7 then s.ptpFrame p f
     else if f.etherType = 0xAEFE then
       (match f.ecpri with
        | none => s.rxBad p
        | some e =>
          if e.mtype = 0 then (match s.uplinkStream p (frameVlan f) e.eaxc with | some x => s.radioFrame p f e x.1 x.2 | none => s.rxBad p)
          else if e.mtype = 5 ∧ f.dst = s.regN (Reg.portMacAddr p) then s.delayFrame p f e
          else s.rxBad p)
     else s.hostFrame p f false))

/-- DELAY_MEAS_REQUEST_TX (R334): every DELAY_MEAS_PERIOD ms for a bound cell in service. -/
def execDelayMeasRequestTx (c : Nat) (s : State) : Out :=
  let n := s.regN (Reg.bindDelayMeasPeriod c)
  let x := s.cell c
  .next (s.when (decide (c < 256 ∧ n ≠ 0) && s.cellSt c != 0 && (x.measuredAt == 0 || s.passed (x.measuredAt - 1) (1000000 * n)))
    ((s.setCell c { x with measuredAt := s.time.ticks + 1 }).enqueue (s.regN (Reg.bindFhPort c)) 12 { kind := 3, length := 64, cell := c, content := [0] }))

/-! Egress (R346, R348). -/

/-- Discard radio frames at the head of a queue that would end after their window (R340). -/
def dropHeads (fuel : Nat) (s : State) (p q : Nat) : State :=
  match fuel with
  | 0 => s
  | fuel + 1 => match (s.port p).queue q with
    | [] => s
    | e :: r => if (e.2.kind = 1 ∨ e.2.kind = 2) ∧ e.2.close < s.nowNs + e.2.serialNs (s.rateOf p) then dropHeads fuel ((s.setQueue p q r).bump (Reg.bindDlLate e.2.cell) 1) p q else s

/-- Deficit round robin (R346): the queue that sends next, and the turn as it stands then. -/
def drrChoose (fuel : Nat) (s : State) (p : Nat) (x : Port) : Port × Option Nat :=
  match fuel with
  | 0 => (x, none)
  | fuel + 1 => match x.active with
    | [] => (x, none)
    | q :: r =>
      let d := Table.get 0 x.deficit q + if x.fresh.contains q then s.regN (Reg.portQuantum p q) else 0
      let len := match x.queue q with | [] => 0 | e :: _ => e.2.len
      let x := { x with deficit := Table.put 0 x.deficit q d, fresh := x.fresh.filter (fun a => a != q) }
      if len ≤ d then ({ x with deficit := Table.put 0 x.deficit q (d - len) }, some q)
      else drrChoose fuel s p { x with active := r ++ [q], fresh := x.fresh ++ [q] }

/-- The queue that the scheduler chooses (R346), with the port as the choice leaves it. -/
def State.egressChoice (s : State) (p : Nat) : Port × Option Nat :=
  let x := s.port p
  match [15, 14, 13].find? (fun q => !(x.queue q).isEmpty) with
  | some q => (x, some q)
  | none => match [12, 11, 10, 9, 8].find? (fun q => !(x.queue q).isEmpty && decide (0 ≤ s.creditUnits p q)) with
    | some q => (x, some q)
    | none => drrChoose (2 * x.active.length + 1) s p x

/-- Begin a frame: it is on the wire for its len, counted, charged; a host frame's write-back follows (R44, R101, R346, R444). -/
def State.beginFrame (s : State) (p q : Nat) : State :=
  match (s.port p).queue q with
  | [] => s
  | e :: r =>
    let f := e.2
    let s := (s.trackMax p q).setQueue p q r
    let done := s.time.ticks + ceilDiv (5 * f.serialNs (s.rateOf p)) 32
    let s := s.setPort p { s.port p with sending := q + 1, busyUntil := done }
    -- a PTP message crosses the timestamp point as its frame begins (R43)
    let m := f.ptp.map (s.ptpStamp p)
    let s := match m with | some x => x.2 | none => s
    let g := match m with | some x => ptpTx p x.1 | none => f
    let s := ((s.bump (Reg.telFrames (telIndex p q)) 1).bump (Reg.telBytes (telIndex p q)) f.len).emit (.frame p q g)
    let s := if f.kind ≤ 2 then s.chargeBytes f.func 8 f.length else s
    let s := if f.kind = 3 ∧ f.content.head? = some 0 ∧ f.cell < 256 then s.updCell f.cell (fun x => { x with askedNs := s.stampNs + 1 }) else s
    let s := match f.ptp.bind s.ptpFollowUp with | some u => s.enqueue p q (ptpTx p u) | none => s
    s.noteWriteBack f 0 s.stampStc.time80 done

/-- EGRESS_FRAME_START (R340, R345, R346): whenever the port is free to begin a frame. -/
def execEgressFrameStart (p : Nat) (s : State) : Out :=
  let s1 := s.portSync p
  let s1 := s1.setPort p { s1.port p with sending := 0 }
  let s1 := [14, 13].foldl (fun s q => dropHeads ((s.port p).queue q).length s p q) s1
  let r := s1.egressChoice p
  .next (s.when (s.portUp p && decide ((s.port p).busyUntil ≤ s.time.ticks))
    (match r.2 with | some q => (s1.setPort p r.1).beginFrame p q | none => s1.setPort p r.1))

/-! Host frames (R345, R347, R444). -/

/-- Bytes in the host queues of a port. -/
def State.hostDepth (s : State) (p : Nat) : Nat := ((List.range 12).map (fun q => (s.port p).depth q)).sum

/-- The frame of a FRAME_TX, whose length counts the FCS that the port appends (R444). -/
def hostFrame (d : Desc) (b : FrameTxBody) (bytes : List Byte) : TxFrame :=
  { kind := 0, length := b.length + 4, func := d.func, ring := d.ring, ringSlot := d.index, stamp := b.tsReq, content := bytes }
/-- FRAME_TX (R345, R347, R444): the frame enters its queue once there is room; its descriptor is complete then (log entry 53). A port
that is no enabled fronthaul port discards it. -/
def execFrameTx (f r : Nat) (content : List Byte) (s : State) : Out :=
  let room := match s.nextDesc f r with
    | some (_, x) => decide (s.hostDepth (frameBodyOf x []).port + (frameBodyOf x []).length + 4 ≤ 1048576)
    | none => true
  .next (s.when room (s.admitDesc f r (isOp 0x18) [1, 2] (fun s d x =>
    let b := frameBodyOf x []
    if b.length < 60 ∨ 9212 < b.length then s.refuse d 39
    else if (d.klass = 0 ∧ ¬(8 ≤ b.queue ∧ b.queue ≤ 11)) ∨ (d.klass = 1 ∧ 7 < b.queue) then s.refuse d 3
    else s.descRead d b.bufAddr b.length content (fun bytes => (s.enqueue b.port b.queue (hostFrame d b bytes)).served d))))

/-- FRAME_TX_WRITEBACK (R439, R444, R453): the write-back of a frame that has left or was discarded, then CONS; nothing is written for a
function that is not ENABLED. -/
def execFrameTxWriteback (f r : Nat) (s : State) : Out :=
  match s.ports.done.find? (fun w => w.func == f && w.ring == r && decide (w.tick ≤ s.time.ticks)) with
  | none => .next s
  | some w =>
    let g := s.ring f r
    let use := g.inUse.filter (fun i => i != w.slot)
    let s := { s with ports := { s.ports with done := s.ports.done.erase w } }
    let t := s.setRing f r { g with inUse := use }
    .next (if s.reg (Reg.functionState f) = (1 : Int)
      then (t.emit (.writeBack f r w.slot (bytesOf 16 (2 ^ 127 + w.status % 128 * 2 ^ 120 + w.time % 2 ^ 80)))).emit (.header f r 0 (match use with | [] => g.cons | i :: _ => i)) else t)

/-! Telemetry (R351, R352). -/

/-- Bin of a sample. -/
def telBin (v unit : Nat) : Nat := if v < unit then 0 else min 15 (1 + Nat.log2 (v / unit))
/-- Zero the bins and maxima of a queue. -/
def State.telZero (s : State) (i : Nat) : State :=
  let s := (List.range 16).foldl (fun s k => (s.setReg (Reg.telDepthBin i k) 0).setReg (Reg.telDelayBin i k) 0) s
  (s.setReg (Reg.telDepthMax i) 0).setReg (Reg.telDelayMax i) 0
/-- Sample one queue; one to be cleared is zeroed first. -/
def State.telSample (s : State) (p q : Nat) : State :=
  let i := telIndex p q
  let s := if (s.port p).clearing.contains q then s.telZero i else s
  (s.bump (Reg.telDepthBin i (telBin ((s.port p).depth q) (s.regN (Reg.portDepthUnit p)))) 1).bump
    (Reg.telDelayBin i (telBin (s.headDelay p q) (s.regN (Reg.portDelayUnit p)))) 1

/-- TELEMETRY_SAMPLE (R351): once at every LNC that is a multiple of 20. -/
def execTelemetrySample (p : Nat) (s : State) : Out :=
  let s1 := (List.range 16).foldl (fun s q => s.telSample p q) s
  .next (s.when (decide (p < 64 ∧ s.lnc % 20 = 0 ∧ (s.port p).sampledAt ≠ s.lnc + 1) && s.reg (Reg.portMode p) != 0)
    (s1.setPort p { s1.port p with sampledAt := s.lnc + 1, clearing := [] }))

/-- CLEAR (R352): at the next sample. -/
def telClearEffect (s : State) (n v : Nat) : State :=
  let x := s.port (n / 16)
  if v = 1 ∧ !x.clearing.contains (n % 16) then s.setPort (n / 16) { x with clearing := x.clearing ++ [n % 16] } else s

/-! Rules of the objects. -/

/-- HOST_FLOW (R354): true is RANGE. -/
def State.flowBad (s : State) (bs : List Byte) : Bool :=
  let w := natOf (fit 32 bs)
  let p := bits w 255 250
  let fn := bits w 159 150
  bit w 249 && (s.reg (Reg.portMode p) == 0 || decide (512 < fn) || s.reg (Reg.ringKind fn (bits w 149 144)) != 4
    || decide (bits w 127 96 < 1 ∨ s.rateOf p < bits w 127 96 ∨ bits w 95 64 < 9236 ∨ 16777216 < bits w 95 64))
/-- A rewritten flow is created afresh (R349). -/
def flowEffect (s : State) (h : Nat) : State :=
  s.portsOn.foldl (fun s p => s.setPort p { s.port p with tokens := Table.erase (s.port p).tokens h }) s

end Sys2Proof.Machine
end

