-- ==== Sys2Proof/Machine/Conductors.lean ====
section
/-! DEFINITION. Paired conductors (R317 to R319) and the re-run of a radio task on its standby tile (R315). -/

set_option linter.unusedVariables false

namespace Sys2Proof.Machine

/-- CONDUCTOR_HEARTBEAT (R318): every 10 µs, by a core that runs. -/
def execConductorHeartbeat (cluster core : Nat) (s : State) : Out :=
  let k := 2 * cluster + core
  let runs := (!s.radio.hung.contains k || Table.has s.radio.checks k) && !s.fwRestarting cluster core
  .next (s.when (decide (cluster < 8 ∧ core < 2) && runs && s.passed (Table.get 0 s.radio.beats k) 10000)
    { s with radio := { s.radio with beats := Table.put 0 s.radio.beats k s.time.ticks } })

/-- The instant in ns of a tick of the past. -/
def State.nsOfTick (s : State) (tick : Nat) : Nat := s.nowNs - (s.time.ticks - tick) * 32 / 5

/-- CONDUCTOR_HANG (R305, R318, R517): 50 µs without a heartbeat. The partner takes the core's cells over; the slot of a cell whose
cut-off lies from 20 µs before the hang, the last heartbeat, to 70 µs after it is held with cause 2. -/
def execConductorHang (cluster core : Nat) (s : State) : Out :=
  let k := 2 * cluster + core
  let beat := Table.get 0 s.radio.beats k
  let h := s.nsOfTick beat
  let partnerUp := !s.radio.hung.contains (2 * cluster + (1 - core))
  let s1 := { s with radio := { s.radio with hung := s.radio.hung.filter (fun x => x != k) ++ [k], checks := Table.put 0 s.radio.checks k 0 } }
  let s2 := s1.logError { klass := 1, unit := 8, code := 7, cluster := cluster, detail := core }
  let mine := (s.clusterCells cluster).filter (fun c => s.regN (Reg.cellConductor c) == core)
  let take := fun (s : State) c =>
    let s := (s.cutBetween c (h - 20000) (h + 70000)).foldl (fun s n => s.holdSlot c n 2) s
    let s : State := if partnerUp then s.setReg (Reg.cellConductor c) (1 - core : Nat) else s
    s.cellEventNow c 7 core
  .next (s.when (decide (cluster < 8 ∧ core < 2) && (!s.radio.hung.contains k || Table.has s.radio.checks k) && !s.fwRestarting cluster core
      && s.passed beat 50000) (mine.foldl take s2))

/-- CONDUCTOR_SELFCHECK_PASS (R319): a restarted core passes its self-check, a core under a firmware switch
likewise (R542); with both cores hung, only one that chip control restarts. -/
def execConductorSelfcheckPass (cluster core : Nat) (s : State) : Out :=
  let k := 2 * cluster + core
  let ok := !s.radio.hung.contains (2 * cluster + (1 - core)) || Table.has s.radio.checks (2 * cluster + (1 - core)) || s.radio.restarts.contains k
  let s1 := if (s.clusterCells cluster).isEmpty then { s with radio := { s.radio with hung := s.radio.hung.filter (fun x => x != k), checks := Table.put 0 s.radio.checks k 0 } }
            else { s with radio := { s.radio with checks := Table.put 0 s.radio.checks k (s.lnc + 1) } }
  let s0 := s.fwChecked cluster core
  if decide (cluster < 8 ∧ core < 2) && s.fwRestarting cluster core then
    .next { s0 with radio := { s0.radio with beats := Table.put 0 s0.radio.beats k s.time.ticks } }
  else .next (s.when (decide (cluster < 8 ∧ core < 2) && s.radio.hung.contains k && !Table.has s.radio.checks k && ok)
    { s1 with radio := { s1.radio with beats := Table.put 0 s1.radio.beats k s.time.ticks, restarts := s1.radio.restarts.filter (fun x => x != k) } })

/-- CONDUCTOR_RESTART_BY_CONTROL (R319): both cores of a cluster hang; chip control restarts the one that hung first (log entry 50). -/
def execConductorRestartByControl (cluster : Nat) (s : State) : Out :=
  let l := s.radio.hung.filter (fun x => x / 2 == cluster && !Table.has s.radio.checks x)
  match l with
  | k :: _ :: _ => .next (s.when (!s.radio.restarts.contains k) { s with radio := { s.radio with restarts := s.radio.restarts ++ [k] } })
  | _ => .next s

/-- The core that takes a cell back: its home, or, while that one still hangs, its restarted partner. -/
def State.backCore (s : State) (c : Nat) : Nat :=
  let k := 2 * s.regN (Reg.cellCluster c)
  let h := (s.cell c).home
  if Table.has s.radio.checks (k + h) then h
  else if s.radio.hung.contains (k + h) ∧ Table.has s.radio.checks (k + (1 - h)) then 1 - h else h

/-- HANDBACK (R301, R319): at the first frame boundary at least 20 ms after its self-check a conductor takes a cell back. It counts as
restored once every cell of its cluster has passed that boundary. -/
def execHandback (c : Nat) (s : State) : Out :=
  let core := s.backCore c
  let k := 2 * s.regN (Reg.cellCluster c) + core
  let due := fun x => match s.backAt x k with | some t => decide (t ≤ s.nowNs) | none => false
  let s1 := (s.setReg (Reg.cellConductor c) core).cellEventNow c 8 core
  let all := (s.clusterCells (s.regN (Reg.cellCluster c))).all (fun x => due x && (x == c || s.backCore x != core || s.regN (Reg.cellConductor x) == core))
  .next (s.when (s.cellSt c != 0 && s.radio.hung.contains k && due c && (s.regN (Reg.cellConductor c) != core || (s.cell c).home != core || all))
    (if all then { s1 with radio := { s1.radio with hung := s1.radio.hung.filter (fun x => x != k), checks := Table.put 0 s1.radio.checks k 0 } } else s1))

/-- RADIO_RERUN (R80, R92, R301, R315): a radio task whose run ended with a contained error runs again, once, on its standby tile. -/
def execRadioRerun (task : Nat) (s : State) : Out :=
  let k := s.task task
  match k.radio with
  | none => .next s
  | some r =>
    let tile := (s.part k.part).tiles.getD r.standby 0
    let s1 := s.setTask task { k with status := .registered, rerunDue := false, tiles := [tile], radio := some { r with reruns := r.reruns + 1 } }
    let s2 := (s1.bump (Reg.cellReruns r.cell) 1).cellEvent r.cell 6 r.slot (k.vfirst * 65536 + r.standby)
    .next (s.when (s.hasTask task && k.rerunDue) (s2.launchRadio task))

end Sys2Proof.Machine
end

