-- ==== Sys2Proof/Machine/Nodes.lean ====
section
/-! DEFINITION. Catalogue nodes of the cubes, the MV path and the vector sequencers (R205 to R213, R223): what the command of a node
does to the tiles of its invocation. A node's operands, arrangement and S are its own in the loaded graph (R206, R207, R227). -/

set_option linter.unusedVariables false

namespace Sys2Proof.Machine

/-! When a node may run. -/

/-- The record of a node. -/
def State.node_ (s : State) (i node : Nat) : NodeRec := (s.slot (s.inv i).serving).nodes.getD node { family := 0 }
/-- A node has been started. -/
def Invocation.hasBegun (v : Invocation) (node : Nat) : Bool := v.begun.any (fun e => e.1 == node)
/-- The waves of a slot in list order (R245, R246): node and wave; a wave's place in this list is its number. -/
def Slot.waveList (x : Slot) : List (Nat × Wave) :=
  (List.range x.nodes.length).flatMap (fun n => match x.nodes[n]? with | some r => r.waves.map (fun w => (n, w)) | none => [])
/-- The waves with their numbers. -/
def Slot.waves (x : Slot) : List (Nat × Nat × Wave) := (List.range x.waveList.length).zip x.waveList
/-- Every wave of the node that goes to tile SRAM has been issued (R246: a late wave delays and never changes a result). -/
def State.wavesIn (s : State) (i node : Nat) : Bool :=
  let v := s.inv i
  (s.slot v.serving).waves.all (fun e => e.2.1 != node || e.2.2.dest != 2 || v.waves.contains e.1)
/-- The node may run now: its invocation runs on all its tiles, the node is of the family and not completed, its waves to tile SRAM are
there, and either has started or may start: no abandonment or exit, its BRANCH decided for it, its predicate written (R224, R226,
R259). -/
def State.nodeReady (s : State) (i node family : Nat) : Bool :=
  let v := s.inv i
  let r := s.node_ i node
  s.hasInv i && v.running && s.invPlaced i && r.family == family && !v.done.contains node && !v.skipped.contains node && s.wavesIn i node
    && (v.hasBegun node || (!v.abandoned && v.exit == 0 && (r.under == 0 || v.done.contains (r.under - 1)) && (r.pred == 0xFFFFFFFF || v.done.contains r.pred)))
/-- A node that does its work at once may do it: it has not yet. -/
def State.nodeFresh (s : State) (i node family : Nat) : Bool := s.nodeReady i node family && !(s.inv i).hasBegun node
/-- Mark a node as started. -/
def State.begin_ (s : State) (i node : Nat) : State :=
  let v := s.inv i
  if v.hasBegun node then s else s.setInv i { v with begun := v.begun ++ [(node, s.time.ticks)] }
/-- The node has run on a virtual tile. -/
def State.ranOn (s : State) (i node vt : Nat) : State := let v := s.inv i; s.setInv i { v with ran := v.ran ++ [(node, vt)] }
/-- Flags of a node join the invocation's (R117). -/
def State.nodeFlags (s : State) (i : Nat) (inv sat : Bool) : State :=
  s.updTask (s.inv i).task (fun k => { k with invalid := k.invalid || inv, saturated := k.saturated || sat })

/-! Passes (R205, R207). -/

/-- The slices of a list of steps (R207). -/
def slices {α : Type} (l : List α) (n : Nat) : List (List α) :=
  let q := ceilDiv l.length n
  (List.range n).map (fun i => (l.drop (i * q)).take q)

/-- One FP32 output of a split reduction: the initial value plus slice 0, plus slice 1 and so on, each slice from +0. -/
def PassDesc.splitFp (d : PassDesc) (t : Tile) (n row col init : Nat) : Res :=
  (slices (d.steps row) n).foldl (fun (a : Res) l =>
    let x := d.fpOver t l col 0
    let r := accumFp32 a.code (decodeFloat fp32 x.code)
    { code := r.code, invalid := a.invalid || x.invalid || r.invalid, saturated := a.saturated || x.saturated || r.saturated }) { code := init }
/-- One INT32 output of a split reduction. -/
def PassDesc.splitInt (d : PassDesc) (t : Tile) (n row col : Nat) (init : Int) : Int × Bool :=
  (slices (d.steps row) n).foldl (fun (a : Int × Bool) l =>
    let x := d.intOver t l col 0
    let r := accumInt32 a.1 x.1
    (r.1, a.2 || x.2 || r.2)) (init, false)

/-- The accumulators of a split pass, and its flags. -/
def PassDesc.splitAll (d : PassDesc) (t : Tile) (n : Nat) : Accum × Bool × Bool :=
  let init := d.initVals t t.live.acc
  let l : List (Int × Bool × Bool) := (List.range (d.rows * d.cols)).map (fun i =>
    if d.kind = 0 then let x := d.splitFp t n (i / d.cols) (i % d.cols) (init.getD i 0).toNat; ((x.code : Int), x.invalid, x.saturated)
    else let x := d.splitInt t n (i / d.cols) (i % d.cols) (init.getD i 0); (x.1, false, x.2))
  ({ arrange := d.arrange, kind := d.kind, cols := d.cols, vals := l.map (fun e => e.1) }, l.any (fun e => e.2.1), l.any (fun e => e.2.2))

/-- A pass of a node: the tile after with its VS flags taken out, and the flags. -/
def PassDesc.nodeRun (d : PassDesc) (t : Tile) (n : Nat) : Tile × Bool × Bool :=
  if n ≤ 1 ∨ d.kind = 2 ∨ d.mv then
    let u := d.finish { t with live := { t.live with vs := { t.live.vs with invalid := false, saturated := false } } }
    ({ u with live := { u.live with vs := t.live.vs } }, u.live.vs.invalid, u.live.vs.saturated)
  else
    let r := d.splitAll t n
    let o := if d.wb then d.outputs r.1 else []
    let u := if d.wb then d.writeBack t (o.map (fun x => x.code)) else t
    (d.used { u with live := { u.live with acc := some r.1 } }, r.2.1 || anyInvalid o, r.2.2 || anySaturated o)

/-- The descriptor as it stands on a tile where the areas begin at byte `b`. -/
def PassDesc.shifted (d : PassDesc) (b : Nat) : PassDesc :=
  { d with aBase := d.aBase + b, bBase := d.bBase + b, outBase := d.outBase + b, aScaleBase := d.aScaleBase + b, bScaleBase := d.bScaleBase + b
           aMapBase := d.aMapBase + b, bMapBase := d.bMapBase + b, metaBase := d.metaBase + b }
/-- The pass of a node on a virtual tile. -/
def passOn (r : NodeRec) (vt : Nat) : Option (List Byte) := match r.op with | .passes l => assoc l vt | _ => none
/-- Waves of the stage that belong to the node (R159, R246). -/
def State.nodeWaves (s : State) (i node : Nat) (e : Staged) : Bool :=
  e.owner == i + 1 && (s.slot (s.inv i).serving).waves.any (fun w => w.1 == e.index && w.2.1 == node)

/-- A pass node on one of its tiles: a descriptor that R217 refuses, or that is not of the family's shape, faults the invocation (8
DESCRIPTOR_INVALID, 6 VS_ACCESS); a pass whose stream bytes have not come takes those that have and waits (R144). -/
def State.passNode (s : State) (i node family vt : Nat) (run : PassDesc → Tile → Tile × Bool × Bool) : State :=
  if !s.nodeReady i node family || (s.inv i).ran.contains (node, vt) then s
  else match passOn (s.node_ i node) vt, s.areaAt i vt with
  | some bs, some (p, b) =>
    let d := (passDesc (family == 2) bs).shifted b
    let t := d.feed (s.tile p) (s.nodeWaves i node)
    if d.invalid (if d.mv then t.live.mvAcc else t.live.acc) || !familyShape family d then s.faultTask (s.inv i).task 8 0
    else if !d.owned t t.ctx then s.faultTask (s.inv i).task 6 0
    else if !d.streamed t then (s.begin_ i node).setTile p t
    else if d.poisoned t then s.containedTile p 1 2 d.aBase
    else
      let r := run d t
      ((((s.begin_ i node).setTile p (if d.mv then r.1 else { r.1 with lastActive := s.time.ticks + 1 })).nodeFlags i r.2.1 r.2.2).ranOn i node vt)
  | _, _ => s

/-! CI16 with block exponents (R126, R128, R129, R169). -/

/-- Exponent of the group that begins at an address, from the header before it (0 where no header can stand). -/
def Tile.groupExp (t : Tile) (a : Nat) : Int := if a < 8 then 0 else headerExp (natOf (t.read (a - 8) 8))
/-- Write the header before an output group (R169). -/
def Tile.putHeader (t : Tile) (a : Nat) (e : Int) (parts : List Int) (len : Nat) : Tile :=
  if a < 8 then t else t.write (a - 8) (bytesOf 8 (headerOf e 0 (allZero parts) false false len))
/-- The parts of every row of operand A. -/
def PassDesc.aParts (d : PassDesc) (t : Tile) : List Int := (List.range d.aRows).flatMap (fun r => partsOf (t.read (d.aBase + r * d.aPitch) (4 * d.k)))
/-- Write an output block of CI16 parts at exponent `e`, clamped (R128), with its header; whether SATURATED is set. -/
def PassDesc.putParts (d : PassDesc) (t : Tile) (e : Int) (parts : List Int) : Tile × Bool :=
  let c := clampExp e parts
  let codes := (List.range (parts.length / 2)).map (fun i => unsigned 16 (c.2.1.getD (2 * i) 0) + 65536 * unsigned 16 (c.2.1.getD (2 * i + 1) 0))
  ((d.writeBack t codes).putHeader d.outBase c.1 c.2.1 ((d.rows - 1) * d.outPitch + d.outRowBytes), c.2.2)
/-- A complex pass with the output exponent E_A + E_B + n. A streamed B has its exponent in the header before B_BASE in tile SRAM: the spec
gives it none elsewhere (DESIGN CHOICE, log entry 150). -/
def PassDesc.complexRun (d : PassDesc) (t : Tile) : Tile × Bool × Bool :=
  let r := d.compute t t.live.acc
  let t1 := d.used { t with live := { t.live with acc := some r.1 } }
  if !d.wb then (t1, r.2.1, r.2.2)
  else
    let o := d.outputs r.1
    let w := d.putParts t1 (t.groupExp d.aBase + t.groupExp d.bBase + d.shift) (o.flatMap (fun x => [signed 16 x.code, signed 16 (x.code / 65536)]))
    (w.1, r.2.1, r.2.2 || anySaturated o || w.2)

/-- Guard bits that a DFT stage needs: max(0, g − r) over the stage input, operand A, with g 5 for radix 16 and 4 for radix 8 (R129). -/
def PassDesc.guard (d : PassDesc) (t : Tile) : Nat := (if d.k = 16 then 5 else 4) - ((d.aParts t).map redundantSigns).foldl min 15
/-- A DFT stage on the cubes: the guard bits are n of R126 (R129). -/
def PassDesc.stageRun (d : PassDesc) (t : Tile) : Tile × Bool × Bool := { d with shift := d.guard t }.complexRun t
/-- One output of a stage on the vector sequencer: products of the shifted input, summed in ascending order in a 40-bit accumulator that
saturates, narrowed under R126 with n 0 (R127, R129). -/
def PassDesc.vsOut (d : PassDesc) (t : Tile) (s row col : Nat) : Int × Int × Bool :=
  let a := (List.range d.k).foldl (fun (a : Int × Int × Bool) k =>
    let x := d.aRaw t row k
    let y := d.bRaw t col k
    let xr := shrFloor (signed 16 x) s; let xi := shrFloor (signed 16 (x / 65536)) s; let yr := signed 16 y; let yi := signed 16 (y / 65536)
    let r := satBits 40 (a.1 + (xr * yr - xi * yi))
    let i := satBits 40 (a.2.1 + (xr * yi + xi * yr))
    (r.1, i.1, a.2.2 || r.2 || i.2)) (0, 0, false)
  let r := narrowQ30 a.1 0
  let i := narrowQ30 a.2.1 0
  (r.1, i.1, a.2.2 || r.2 || i.2)
/-- A DFT stage on the vector sequencer: its input is shifted right by the guard bits, with floor, and E increases by as much (R129). -/
def PassDesc.stageVs (d : PassDesc) (t : Tile) : Tile × Bool × Bool :=
  let g := d.guard t
  let o := (List.range (d.rows * d.cols)).map (fun i => d.vsOut t g (i / d.cols) (i % d.cols))
  let w := d.putParts t (t.groupExp d.aBase + t.groupExp d.bBase + g) (o.flatMap (fun x => [x.1, x.2.1]))
  (w.1, false, o.any (fun x => x.2.2) || w.2)

/-! The nodes of the cubes and the MV path. -/

/-- MATMUL (R205, R207). -/
def execMatmul (inv node vt : Nat) (s : State) : Out := .next (s.passNode inv node 0x01 vt (fun d t => d.nodeRun t (s.node_ inv node).split))
/-- MATVEC (R134, R158, R205). -/
def execMatvec (inv node vt : Nat) (s : State) : Out := .next (s.passNode inv node 0x02 vt (fun d t => d.nodeRun t 1))
/-- CONV (R147, R205, R207). -/
def execConv (inv node vt : Nat) (s : State) : Out := .next (s.passNode inv node 0x03 vt (fun d t => d.nodeRun t (s.node_ inv node).split))
/-- CMATMUL (R126, R205). -/
def execCmatmul (inv node vt : Nat) (s : State) : Out := .next (s.passNode inv node 0x04 vt (fun d t => d.complexRun t))
/-- INTERP (R205). -/
def execInterp (inv node vt : Nat) (s : State) : Out := .next (s.passNode inv node 0x06 vt (fun d t => d.complexRun t))
/-- The stages of a DFT in order, each on its unit. -/
def runStages (l : List (PassDesc × Bool)) (t : Tile) : Tile × Bool × Bool :=
  l.foldl (fun (a : Tile × Bool × Bool) e => let r := if e.2 then e.1.stageVs a.1 else e.1.stageRun a.1; (r.1, a.2.1 || r.2.1, a.2.2 || r.2.2)) (t, false, false)
/-- A DFT node on its tile (R129, R205). Stages run on one tile, and take the waves of the node as a pass does. -/
def State.dftNode (s : State) (i node vt : Nat) (stages : List (List Byte × Bool)) : State :=
  match s.areaAt i vt with
  | none => s
  | some (p, b) =>
    let ds := stages.map (fun e => ((passDesc false e.1).shifted b, e.2))
    let t := ds.foldl (fun t e => e.1.feed t (s.nodeWaves i node)) (s.tile p)
    if ds.any (fun e => e.1.invalid t.live.acc) || !dftShape ds then s.faultTask (s.inv i).task 8 0
    else if !ds.all (fun e => e.1.owned t t.ctx) then s.faultTask (s.inv i).task 6 0
    else if !ds.all (fun e => e.1.streamed t) then (s.begin_ i node).setTile p t
    else if ds.any (fun e => e.1.poisoned t) then s.containedTile p 1 2 (ds.headD (passDesc false [], false)).1.aBase
    else
      let r := runStages ds t
      ((((s.begin_ i node).setTile p { r.1 with lastActive := s.time.ticks + 1 }).nodeFlags i r.2.1 r.2.2).ranOn i node vt)
/-- DFT (R129, R205): its stages in order. -/
def execDft (inv node : Nat) (s : State) : Out :=
  match (s.node_ inv node).op with
  | .dft vt stages => .next (s.when (s.nodeReady inv node 0x05 && !(s.inv inv).ran.contains (node, vt)) (s.dftNode inv node vt stages))
  | _ => .next s

/-! Elements in FP32 (R113, R205, R209 to R213). -/

/-- FP32 codes of a tensor. -/
def Tile.codes (t : Tile) (a n : Nat) : List Nat := (List.range n).map (fun i => natOf (t.read (a + 4 * i) 4))
/-- Write FP32 codes. -/
def Tile.putCodes (t : Tile) (a : Nat) (l : List Nat) : Tile := t.write a (l.flatMap (bytesOf 4))
/-- A tensor within tile SRAM. -/
def inSram (a n : Nat) : Bool := decide (a + n ≤ sramBytes)
/-- Bytes of `n` FP32 values in a format: a CI16 element holds two of them, one a part (R106, R113). -/
def valueBytes (fmt n : Nat) : Nat := if fmt = 8 then 2 * n else fmtBytes fmt n
/-- Value `i` of a tensor widened to FP32 (R113): a CI16 part is c × 2^(E − 15), with E from the header before the tensor (log entry 149). -/
def Tile.widened (t : Tile) (fmt addr i : Nat) : Nat :=
  (encodeFloat fp32 (if fmt = 8 then numOfInt (signed 16 (natOf (t.read (addr + 2 * i) 2))) (t.groupExp addr - 15)
    else decodeElem fmt false (elemOf fmt (fun j => (t.byte (addr + j)).toNat) i))).code
/-- An FP32 value narrowed to a format (R114 to R116); a CI16 part takes the exponent `e` of its group (log entry 149). -/
def narrowValue (fmt : Nat) (e : Int) (x : Nat) : Res := if fmt = 8 then encodeInt 16 (15 - e) (decodeFloat fp32 x) else narrowFp32 fmt x
/-- Bytes of narrowed values. -/
def packValues (fmt : Nat) (l : List Nat) : List Byte := if fmt = 8 then l.flatMap (bytesOf 2) else packRow fmt l

/-- The elementwise operations (log entry 30): 0 add, 1 subtract, 2 multiply, 3 maximum, 4 minimum, else a copy of the first. -/
def elementOp (op a b : Nat) : Res :=
  match op with
  | 0 => fp32Add a b
  | 1 => fp32Sub a b
  | 2 => fp32Mul a b
  | 3 => { code := fp32Max a b }
  | 4 => { code := fp32Min a b }
  | _ => { code := a }

/-- An elementwise node of `count` FP32 values (R113 to R116, R205): widened, computed in FP32 per value, narrowed. -/
def State.elementNode (s : State) (i node op count : Nat) (a b out : ETensor) : State :=
  match s.areaAt i a.tile, s.areaAt i b.tile, s.areaAt i out.tile with
  | some pa, some pb, some po =>
    let e := (s.tile po.1).groupExp (out.addr + po.2)
    let rs := (List.range count).map (fun n =>
      let x := elementOp op ((s.tile pa.1).widened a.fmt (a.addr + pa.2) n) ((s.tile pb.1).widened b.fmt (b.addr + pb.2) n)
      x.after (narrowValue out.fmt e x.code))
    let bytes := packValues out.fmt (rs.map (fun r => r.code))
    let bad (x : ETensor) (p : Nat × Nat) : Bool := (s.tile p.1).poisoned (x.addr + p.2) (valueBytes x.fmt count)
    if !(inSram (out.addr + po.2) bytes.length && decide (a.fmt ≤ 8 ∧ b.fmt ≤ 8 ∧ out.fmt ≤ 8)) then s.faultTask (s.inv i).task 8 0
    else if bad a pa then s.containedTile pa.1 1 2 (a.addr + pa.2)
    else if bad b pb then s.containedTile pb.1 1 2 (b.addr + pb.2)
    else ((s.begin_ i node).updTile po.1 (fun t => t.write (out.addr + po.2) bytes)).nodeFlags i (anyInvalid rs) (anySaturated rs)
  | _, _, _ => s
/-- ELEMENTWISE (R205). The node's ATTR names the operation (log entry 30). -/
def execElementwise (inv node : Nat) (s : State) : Out :=
  let r := s.node_ inv node
  match r.op with
  | .element count a b out => .next (s.when (s.nodeFresh inv node 0x07) (s.elementNode inv node r.function count a b out))
  | _ => .next s

/-- A node that maps rows of one FP32 tensor to rows of another. A row of length 0, or a tensor beyond tile SRAM, has no descriptor that R217
would accept: 8 DESCRIPTOR_INVALID (log entry 147). -/
def State.rowNode (s : State) (i node : Nat) (x y : Tensor) (row : Nat) (f : List Nat → List Res) : State :=
  match s.areaAt i x.tile, s.areaAt i y.tile with
  | some px, some py =>
    let rs := (List.range (x.count / row)).flatMap (fun r => f ((s.tile px.1).codes (x.addr + px.2 + 4 * r * row) row))
    if !(decide (row ≠ 0) && inSram (x.addr + px.2) (4 * x.count) && inSram (y.addr + py.2) (4 * x.count)) then s.faultTask (s.inv i).task 8 0
    else if (s.tile px.1).poisoned (x.addr + px.2) (4 * x.count) then s.containedTile px.1 1 2 (x.addr + px.2)
    else ((s.begin_ i node).updTile py.1 (fun t => t.putCodes (y.addr + py.2) (rs.map (fun r => r.code)))).nodeFlags i (anyInvalid rs) (anySaturated rs)
  | _, _ => s
/-- A NONLINEAR node (R210, R211) of the function numbered `fn` in the order of R211 (log entry 147). -/
def State.nonlinear (s : State) (i node fn : Nat) (f : Nat → Res) : State :=
  let r := s.node_ i node
  match r.op with
  | .rows x y _ _ _ _ => s.when (s.nodeFresh i node 0x08 && r.function == fn) (s.rowNode i node x y 1 (fun l => l.map f))
  | _ => s

/-- EXP2 (R210, R211). -/
def execExp2 (inv node : Nat) (s : State) : Out := .next (s.nonlinear inv node 0 fnExp2)
/-- RECIP (R210, R211). -/
def execRecip (inv node : Nat) (s : State) : Out := .next (s.nonlinear inv node 1 fnRecip)
/-- RSQRT (R210, R211). -/
def execRsqrt (inv node : Nat) (s : State) : Out := .next (s.nonlinear inv node 2 fnRsqrt)
/-- EXP (R211). -/
def execExp (inv node : Nat) (s : State) : Out := .next (s.nonlinear inv node 3 fnExp)
/-- SIGMOID (R211). -/
def execSigmoid (inv node : Nat) (s : State) : Out := .next (s.nonlinear inv node 4 fnSigmoid)
/-- SILU (R211). -/
def execSilu (inv node : Nat) (s : State) : Out := .next (s.nonlinear inv node 5 fnSilu)
/-- GELU (R211). -/
def execGelu (inv node : Nat) (s : State) : Out := .next (s.nonlinear inv node 6 fnGelu)
/-- TANH (R211). -/
def execTanh (inv node : Nat) (s : State) : Out := .next (s.nonlinear inv node 7 fnTanh)

/-- A result with the flags of others added. -/
def Res.withFlags (r : Res) (l : List Res) : Res := { r with invalid := r.invalid || anyInvalid l, saturated := r.saturated || anySaturated l }
/-- Sum in ascending element index from +0 (R209). -/
def sumFp32 (l : List Nat) : Res := l.foldl (fun (a : Res) x => a.after (fp32Add a.code x)) { code := 0 }
/-- c_n of R212: 1/n truncated to FP32. -/
def oneOver (n : Nat) : Nat := (encodeFloat fp32 (.fin false (2 ^ 120 / n) (-120))).code

/-- SOFTMAX of a row (R212). -/
def softmaxRow (l : List Nat) : List Res :=
  let m := l.foldl fp32Max 0xFF800000
  let e := l.map (fun x => let d := fp32Sub x m; d.after (fnExp d.code))
  let t := sumFp32 (e.map (fun r => r.code))
  let q := t.after (fnRecip t.code)
  e.map (fun r => (fp32Mul r.code q.code).withFlags [r, q])
/-- RMSNORM of a row with its gains (R212). -/
def rmsRow (l gain : List Nat) (eps : Nat) : List Res :=
  let sq := l.map (fun x => fp32Mul x x)
  let ss := (sumFp32 (sq.map (fun r => r.code))).withFlags sq
  let m := ss.after (fp32Mul ss.code (oneOver l.length))
  let a := m.after (fp32Add m.code eps)
  let r := a.after (fnRsqrt a.code)
  (l.zip gain).map (fun e => let x := fp32Mul e.1 r.code; (fp32Mul x.code e.2).withFlags [x, r])
/-- LAYERNORM of a row (R212). -/
def layerRow (l gain beta : List Nat) (eps : Nat) : List Res :=
  let t := sumFp32 l
  let mu := t.after (fp32Mul t.code (oneOver l.length))
  let c := l.map (fun x => (fp32Sub x mu.code).withFlags [mu])
  ((rmsRow (c.map (fun r => r.code)) gain eps).zip (c.zip beta)).map (fun e => (fp32Add e.1.code e.2.2).withFlags [e.1, e.2.1])

/-- The FP32 codes of a node's constant row. -/
def State.constRow (s : State) (i : Nat) (g : Tensor) (row : Nat) : List Nat :=
  match s.areaAt i g.tile with | some p => (s.tile p.1).codes (g.addr + p.2) row | none => List.replicate row 0
/-- A node of R212, numbered `fn` in its order (log entry 147), that acts on rows with gain, bias and eps. -/
def State.normNode (s : State) (i node fn : Nat) (f : List Nat → List Nat → Nat → List Nat → List Res) : State :=
  let r := s.node_ i node
  match r.op with
  | .rows x y gain beta row eps => s.when (s.nodeFresh i node 0x09 && r.function == fn)
      (s.rowNode i node x y row (f (s.constRow i gain row) (s.constRow i beta row) eps.toNat))
  | _ => s
/-- SOFTMAX (R212). -/
def execSoftmax (inv node : Nat) (s : State) : Out := .next (s.normNode inv node 0 (fun _ _ _ l => softmaxRow l))
/-- RMSNORM (R212). -/
def execRmsnorm (inv node : Nat) (s : State) : Out := .next (s.normNode inv node 1 (fun g _ eps l => rmsRow l g eps))
/-- LAYERNORM (R212). -/
def execLayernorm (inv node : Nat) (s : State) : Out := .next (s.normNode inv node 2 (fun g b eps l => layerRow l g b eps))

/-- emax of R213. -/
def emaxOf (fmt : Nat) : Int := match fmt with | 3 => 8 | 4 => 15 | 5 => 2 | _ => 0
/-- Scale byte of a block (R213); an infinite amax takes the upper bound. -/
def scaleByte (fmt : Nat) (l : List Nat) : Nat :=
  let mags := (l.filter (fun c => !fp32IsNan c)).map (fun c => c % 2 ^ 31)
  let amax := mags.foldl max 0
  if amax = 0 then 0
  else match decodeFloat fp32 amax with
  | .fin _ m e => (min 254 (max 0 ((Nat.log2 m : Int) + e - emaxOf fmt + 127))).toNat
  | _ => 254
/-- One element of a block: x × 2^−(byte − 127) narrowed (R213). -/
def quantElem (fmt byte x : Nat) : Res :=
  let v := (decodeFloat fp32 x).mul (.fin false 1 (127 - (byte : Int)))
  match fmtFloat fmt with
  | some f => encodeFloat f v.1
  | none => encodeInt 8 6 v.1
/-- Blocks of 32. -/
def blocks (fuel : Nat) (l : List Nat) : List (List Nat) :=
  match fuel with | 0 => [] | fuel + 1 => if l.isEmpty then [] else l.take 32 :: blocks fuel (l.drop 32)

/-- A QUANT node (R213): the blocks run along each row, the last one of a row perhaps short; codes at outAddr, the scale bytes of row r from
scaleAddr + r × scalePitch on. -/
def State.quantNode (s : State) (i node : Nat) (x : Tensor) (row fmt outAddr scaleAddr scalePitch : Nat) : State :=
  match s.areaAt i x.tile with
  | none => s
  | some (p, b) =>
    let n := x.count / row
    let rows := (List.range n).map (fun r => blocks row ((s.tile p).codes (x.addr + b + 4 * r * row) row))
    let rs := rows.flatMap (fun l => l.flatMap (fun c => c.map (quantElem fmt (scaleByte fmt c))))
    let bytes := packRow fmt (rs.map (fun r => r.code))
    if !(decide (row ≠ 0) && mxFormat fmt && inSram (outAddr + b) bytes.length && inSram (scaleAddr + b) (n * scalePitch + ceilDiv row 32)) then
      s.faultTask (s.inv i).task 8 0
    else if (s.tile p).poisoned (x.addr + b) (4 * x.count) then s.containedTile p 1 2 (x.addr + b)
    else
      let put := fun (t : Tile) (e : Nat × List (List Nat)) => t.write (scaleAddr + b + e.1 * scalePitch) (e.2.map (fun c => BitVec.ofNat 8 (scaleByte fmt c)))
      ((s.begin_ i node).updTile p (fun t => ((List.range n).zip rows).foldl put (t.write (outAddr + b) bytes))).nodeFlags i (anyInvalid rs) (anySaturated rs)
/-- QUANT (R213). -/
def execQuant (inv node : Nat) (s : State) : Out :=
  match (s.node_ inv node).op with
  | .quant x row fmt outAddr scaleAddr scalePitch => .next (s.when (s.nodeFresh inv node 0x0A) (s.quantNode inv node x row fmt outAddr scaleAddr scalePitch))
  | _ => .next s

end Sys2Proof.Machine
end

