-- ==== Sys2Proof/Machine/NodeRows.lean ====
section
/-! DEFINITION. Catalogue nodes that reduce, route, move, branch and act on the fabric (R205, R208, R214, R224 to R226, R253 to
R255). -/

set_option linter.unusedVariables false

namespace Sys2Proof.Machine

/-! REDUCE (R208). -/

/-- Key of a reduction. -/
def reduceKey (i node : Nat) : Nat := i * 65536 + node
/-- Add a partial to an accumulator: FP32 under R135, or INT32 with saturation. -/
def addPartial (int : Bool) (acc data : List Word32) : List Word32 × Bool × Bool :=
  let l := (acc.zip data).map (fun e =>
    if int then let r := accumInt32 e.1.toInt e.2.toInt; (BitVec.ofInt 32 r.1, false, r.2)
    else let r := fp32Add e.1.toNat e.2.toNat; (BitVec.ofNat 32 r.code, r.invalid, r.saturated))
  (l.map (fun e => e.1), l.any (fun e => e.2.1), l.any (fun e => e.2.2))
/-- A reduction takes the buffered partials that are next in rank order, at most `fuel`. -/
def drainRanks (fuel : Nat) (r : Reduction) : Reduction × Bool × Bool :=
  match fuel with
  | 0 => (r, false, false)
  | fuel + 1 =>
    match Table.find? r.waiting r.next with
    | none => (r, false, false)
    | some d =>
      let a := addPartial r.int r.acc d
      let x := drainRanks fuel { r with acc := a.1, next := r.next + 1, waiting := Table.erase r.waiting r.next }
      (x.1, a.2.1 || x.2.1, a.2.2 || x.2.2)
/-- A partial arrives: ORDERED buffers it until every lower rank has been added, ARRIVAL adds it at once. -/
def Reduction.arrive (r : Reduction) (rank : Nat) (data : List Word32) : Reduction × Bool × Bool :=
  let r := { r with arrived := rank :: r.arrived }
  if r.ordered then drainRanks r.ranks { r with waiting := Table.insert r.waiting rank data }
  else let a := addPartial r.int r.acc data; ({ r with acc := a.1, next := r.next + 1 }, a.2.1, a.2.2)
/-- The reduction is kept, or, with every rank added, its result is written and it is gone. -/
def State.keepReduction (s : State) (i node : Nat) (r : Reduction) : State :=
  let k := reduceKey i node
  if r.next < r.ranks then { s with models := { s.models with reductions := Table.insert s.models.reductions k r } }
  else
    let s := { s with models := { s.models with reductions := Table.erase s.models.reductions k } }
    match s.areaAt i r.out.tile with
    | some p => s.updTile p.1 (fun t => t.write (r.out.addr + p.2) (r.acc.flatMap (fun w => bytesOf 4 w.toNat)))
    | none => s
/-- The partials of the ranks that are virtual tiles of this chip (R208), in ascending rank: rank, tile, address. -/
def State.localPartials (s : State) (i count : Nat) (sources : List (Nat × Nat × Nat)) : List (Nat × Nat × Nat × List Word32) :=
  (sources.foldl (insertKey (fun (e : Nat × Nat × Nat) => [e.1])) []).filterMap (fun e => match s.areaAt i e.2.1 with
    | some p => some (e.1, p.1, e.2.2 + p.2, ((s.tile p.1).codes (e.2.2 + p.2) count).map (BitVec.ofNat 32))
    | none => none)
/-- A REDUCE node starts: accumulators at +0, then the partials of this chip's ranks; those of other chips arrive as they come. -/
def State.startReduce (s : State) (i node : Nat) (ordered : Bool) (out : Tensor) (int : Bool) (ranks : Nat) (sources : List (Nat × Nat × Nat)) : State :=
  let l := s.localPartials i out.count sources
  match l.find? (fun e => (s.tile e.2.1).poisoned e.2.2.1 (4 * out.count)) with
  | some e => s.containedTile e.2.1 1 2 e.2.2.1
  | none =>
    if !inSram (out.addr + ((s.areaAt i out.tile).getD (0, 0)).2) (4 * out.count) then s.faultTask (s.inv i).task 8 0
    else
      let r0 : Reduction := { ordered := ordered, int := int, ranks := ranks, out := out, acc := List.replicate out.count 0 }
      let r := (l.filter (fun e => decide (e.1 < ranks))).foldl (fun (a : Reduction × Bool × Bool) e =>
        let x := a.1.arrive e.1 e.2.2.2
        (x.1, a.2.1 || x.2.1, a.2.2 || x.2.2)) (r0, false, false)
      (((s.begin_ i node).keepReduction i node r.1).nodeFlags i r.2.1 r.2.2)
/-- A REDUCE node of one of the two orders. -/
def State.reduceNode (s : State) (i node : Nat) (ordered : Bool) : State :=
  let r := s.node_ i node
  match r.op with
  | .reduce out int ranks sources => s.when (s.nodeFresh i node 0x0B && r.arrival == !ordered) (s.startReduce i node ordered out int ranks sources)
  | _ => s
/-- REDUCE_ORDERED (R208). -/
def execReduceOrdered (inv node : Nat) (s : State) : Out := .next (s.reduceNode inv node true)
/-- REDUCE_ARRIVAL (R208). -/
def execReduceArrival (inv node : Nat) (s : State) : Out := .next (s.reduceNode inv node false)
/-- REDUCE_PARTIAL_ARRIVAL (R208): one partial of each rank. -/
def execReducePartialArrival (inv node rank : Nat) (data : List Word32) (s : State) : Out :=
  match Table.find? s.models.reductions (reduceKey inv node) with
  | none => .next s
  | some r =>
    let a := r.arrive rank data
    .next (s.when (s.nodeReady inv node 0x0B && decide (rank < r.ranks ∧ data.length = r.out.count) && !r.arrived.contains rank)
      ((s.keepReduction inv node a.1).nodeFlags inv a.2.1 a.2.2))

/-! GATE (R214, R253 to R255). -/

/-- Insert an expert by descending score, equal scores by ascending index. -/
def insertScore (l : List (Nat × Nat)) (e : Nat × Nat) : List (Nat × Nat) :=
  match l with
  | [] => [e]
  | x :: r => if fp32Gt e.2 x.2 then e :: x :: r else x :: insertScore r e
/-- Experts of a token by descending score: index and score. A NaN has no place in the order, which the spec leaves open: a token
with one takes its order from a free value (log entry 31). -/
def rankExperts (free : Nat) (scores : List Word32) : List (Nat × Nat) :=
  let l := (List.range scores.length).zip (scores.map BitVec.toNat)
  if l.any (fun e => fp32IsNan e.2) then (List.range l.length).map (fun i => l.getD ((Config.freeNat free + i) % l.length) (0, 0))
  else l.foldl insertScore []
/-- The chosen experts of a token with their weights: SOFTMAX over the chosen scores in ascending expert index (R214). -/
def gateWeights (chosen : List (Nat × Nat)) : List (Nat × Nat) × Bool × Bool :=
  let up := chosen.foldl (fun l e => insertUp l e) []
  let w := softmaxRow (up.map (fun e => e.2))
  ((up.zip w).map (fun e => (e.1.1, e.2.code)), anyInvalid w, anySaturated w)
where
  /-- Insert by ascending expert index. -/
  insertUp (l : List (Nat × Nat)) (e : Nat × Nat) : List (Nat × Nat) :=
    match l with
    | [] => [e]
    | x :: r => if e.1 < x.1 then e :: x :: r else x :: insertUp r e

/-- Places of this gate unit at each expert (R253): T is the node's token count, over all its gate units. -/
def gatePlaces (g : GateNode) : Nat :=
  let c := ceilDiv (g.factor * g.total * g.choices) (65536 * g.experts)
  c / g.gateUnits + (if g.gateRank < c % g.gateUnits then 1 else 0)
/-- A filling of places: kept assignments (token, chosen expert, expert that takes it), dropped, rerouted. -/
structure GateFill where
  kept : List (Nat × Nat × Nat) := []
  dropped : Nat := 0
  rerouted : Nat := 0
deriving DecidableEq, Repr
/-- Assignments that an expert holds. -/
def GateFill.load (f : GateFill) (e : Nat) : Nat := (f.kept.filter (fun a => a.2.2 == e)).length
/-- Experts that a token's kept assignments hold. -/
def GateFill.held (f : GateFill) (token : Nat) : List Nat := (f.kept.filter (fun a => a.1 == token)).map (fun a => a.2.2)
/-- One assignment finds its place (R254): `order` are all experts of the token by score, `chosen` the chosen ones. -/
def GateFill.assign (f : GateFill) (reroute : Bool) (places token expert : Nat) (order chosen : List Nat) : GateFill :=
  if f.load expert < places then { f with kept := f.kept ++ [(token, expert, expert)] }
  else if !reroute then { f with dropped := f.dropped + 1 }
  else match order.find? (fun e => !chosen.contains e && !(f.held token).contains e && decide (f.load e < places)) with
  | some e => { f with kept := f.kept ++ [(token, expert, e)], rerouted := f.rerouted + 1 }
  | none => { f with dropped := f.dropped + 1 }

/-- All tokens of a gate node with their experts by score. -/
def gateOrders (g : GateNode) (scores : List (List Word32)) (free : Nat) : List (Nat × List (Nat × Nat)) :=
  (List.range scores.length).map (fun t => (t, rankExperts (free + t) (scores.getD t [])))
/-- The assignments in the order in which they are taken: DROP and REROUTE by token and descending score (a rerouted one takes its place at
its own turn: log entry 32), ARRIVAL as scores came. -/
def gateFill (g : GateNode) (scores : List (List Word32)) (arrivals : List (Nat × Nat)) (free : Nat) : GateFill :=
  let os := gateOrders g scores free
  let chosen := fun (o : List (Nat × Nat)) => (o.take g.choices).map (fun e => e.1)
  let all : List (Nat × Nat) := os.flatMap (fun o => (chosen o.2).map (fun e => (o.1, e)))
  let turn := if g.policy = 2 then arrivals.filter (fun a => all.contains a) ++ all.filter (fun a => !arrivals.contains a) else all
  turn.foldl (fun (f : GateFill) a =>
    let o := match os.find? (fun x => x.1 == a.1) with | some x => x.2 | none => []
    f.assign (g.policy == 1) (gatePlaces g) a.1 a.2 (o.map (fun e => e.1)) (chosen o)) {}

/-- Each expert's tokens, in ascending token index (R255), of assignments (token, expert, weight). -/
def tokensOf (kept : List (Nat × Nat × Nat)) (tokens e : Nat) : List Nat := (List.range tokens).filter (fun t => kept.any (fun a => a.1 == t && a.2.1 == e))
/-- What routing gives: the table the node writes, per token and choice in ascending expert index the expert that takes it and the weight, a
dropped one 0xFFFFFFFF and +0 (log entry 32); the kept assignments as token, expert that takes it, weight; flags. -/
def gateResult (g : GateNode) (scores : List (List Word32)) (free : Nat) (f : GateFill) : List Byte × List (Nat × Nat × Nat) × Bool × Bool :=
  let rows : List (List Byte × List (Nat × Nat × Nat) × Bool × Bool) := (gateOrders g scores free).map (fun o =>
    let w := gateWeights (o.2.take g.choices)
    let at' := w.1.map (fun e => (e, f.kept.find? (fun a => a.1 == o.1 && a.2.1 == e.1)))
    (at'.flatMap (fun e => match e.2 with | some a => bytesOf 4 a.2.2 ++ bytesOf 4 e.1.2 | none => bytesOf 4 0xFFFFFFFF ++ bytesOf 4 0),
     at'.filterMap (fun e => e.2.map (fun a => (o.1, a.2.2, e.1.2))), w.2.1, w.2.2))
  (rows.flatMap (fun r => r.1), rows.flatMap (fun r => r.2.1), rows.any (fun r => r.2.2.1), rows.any (fun r => r.2.2.2))

/-- One STORE of a gate unit's rows, on the virtual channel of the invocation's class (R255). -/
def State.storeRow (s : State) (klass ctx j node id va : Nat) (bs : List Byte) (e : Nat × Nat) : State :=
  if s.jobState j ≠ 2 then s
  else s.ask { blankPacket with
    opcode := 0x02, vc := requestVc klass, dst := node, job := s.regN (Reg.jobId j), len := ceilDiv e.2 4 - 1
    offset := bits va 42 0 + e.1, data := (bs.drop e.1).take e.2 } ctx (.moveStore id)
/-- Give one expert its rows (R255): in tile SRAM, or by fabric stores to another chip, then a fence and a signal. -/
def State.giveRows (s : State) (i : Nat) (k : Task) (x : GateInput) (rows : List Byte) : State :=
  if !x.remote then (match s.areaAt i x.tile with
    | some p => if inSram (x.addr + p.2) rows.length then s.updTile p.1 (fun t => t.write (x.addr + p.2) rows) else s
    | none => s)
  else match s.remoteHome k.ctx x.addr with
  | none => s.faultTask (s.inv i).task 10 (bits x.addr 56 8)
  | some (j, node) =>
    let id := s.fabric.nextRequest + 1
    let s := (lineChunks (rows.length + 1) x.addr rows.length 0).foldl (fun s e => s.storeRow k.klass k.ctx j node id x.addr rows e) s
    match s.objectOf k.ctx x.vid with
    | none => s
    | some (_, o) => s.addTask { func := k.func, ctx := k.ctx, ring := k.ring, klass := k.klass, quiet := true, status := .ended
                                 signals := [{ op := 2, fence := true, vid := x.vid, count := if o.kind = 0 then 1 else 0 }] }

/-- A GATE node routes its tokens: scores from tile SRAM, the routing table, the experts' rows. -/
def State.gateRoute (s : State) (i node : Nat) (g : GateNode) (arrivals : List (Nat × Nat)) : State :=
  match s.areaAt i g.tile, s.areaAt i g.rowTile with
  | some (p, b), some (q, c) =>
    let t := s.tile p
    let scores := (List.range g.tokens).map (fun n => (t.codes (g.scoreAddr + b + 4 * g.experts * n) g.experts).map (BitVec.ofNat 32))
    let f := gateFill g scores arrivals s.free
    let r := gateResult g scores s.free f
    let m := (s.inv i).serving
    let k := s.task (s.inv i).task
    let rows := s.tile q
    if !(inSram (g.outAddr + b) r.1.length && gateOk g) then s.faultTask (s.inv i).task 8 0
    else if t.poisoned (g.scoreAddr + b) (4 * g.experts * g.tokens) then s.containedTile p 1 2 (g.scoreAddr + b)
    else if rows.poisoned (g.rowAddr + c) (g.rowBytes * g.tokens) then s.containedTile q 1 2 (g.rowAddr + c)
    else
      let s := { s with free := s.free + g.tokens }
      let s := ((s.begin_ i node).updTile p (fun t => t.write (g.outAddr + b) r.1)).nodeFlags i r.2.2.1 r.2.2.2
      let s := (s.bump (Reg.slotGateDropped m) f.dropped).bump (Reg.slotGateRerouted m) f.rerouted
      let v := s.inv i
      let s := s.setInv i { v with gates := Table.insert v.gates node r.2.1 }
      ((List.range g.inputs.length).zip g.inputs).foldl (fun s (e : Nat × GateInput) =>
        s.giveRows i k e.2 ((tokensOf r.2.1 g.tokens e.1).flatMap (fun n => rows.read (g.rowAddr + c + n * g.rowBytes) g.rowBytes))) s
  | _, _ => s

/-- The output of one token: over its kept assignments in ascending expert index, from +0, the sum of trunc(weight × expert output row)
(R255). `outs` gives the output row of an expert for the token. -/
def tokenOutput (kept : List (Nat × Nat × Nat)) (token count : Nat) (outs : Nat → List Nat) : List Res :=
  let mine := (kept.filter (fun a => a.1 == token)).foldl (insertKey (fun (a : Nat × Nat × Nat) => [a.2.1])) []
  mine.foldl (fun (acc : List Res) a => (acc.zip (outs a.2.1)).map (fun e =>
    let x := fp32Mul a.2.2 e.2
    let y := fp32Add e.1.code x.code
    { code := y.code, invalid := e.1.invalid || x.invalid || y.invalid, saturated := e.1.saturated || x.saturated || y.saturated })) (List.replicate count { code := 0 })
/-- The experts have run: a GATE node sums its tokens' outputs (R255). Expert e has its output rows one after another, a row for each input
row that it was given. -/
def State.gateSum (s : State) (i node : Nat) (g : GateNode) : State :=
  let v := s.inv i
  let kept := Table.get [] v.gates node
  let row := fun e n => match g.sumRows[e]? with
    | some x => (match s.areaAt i x.1 with
      | some p => (s.tile p.1).codes (x.2 + p.2 + 4 * g.sumCount * ((tokensOf kept g.tokens e).takeWhile (fun m => m != n)).length) g.sumCount
      | none => [])
    | none => []
  match s.areaAt i g.sumTile with
  | none => s
  | some (p, b) =>
    let rs := (List.range g.tokens).flatMap (fun n => tokenOutput kept n g.sumCount (fun e => row e n))
    if !inSram (g.sumAddr + b) (4 * rs.length) then s.faultTask v.task 8 0
    else
      ((s.setInv i { v with summed := node :: v.summed }).updTile p (fun t => t.putCodes (g.sumAddr + b) (rs.map (fun r => r.code)))).nodeFlags i (anyInvalid rs)
        (anySaturated rs)

/-- A GATE node (R214, R253 to R255) of one policy: 0 DROP, 1 REROUTE, 2 ARRIVAL. It routes; and, once the nodes that write the experts'
output rows have completed, it sums the tokens' outputs. -/
def State.gateNode (s : State) (i node policy : Nat) (arrivals : List (Nat × Nat)) : State :=
  let v := s.inv i
  match (s.node_ i node).op with
  | .gate g =>
    if g.policy ≠ policy ∨ !s.nodeReady i node 0x0C then s
    else if !v.hasBegun node then s.gateRoute i node g arrivals
    else s.when (!v.summed.contains node && decide (g.sumCount ≠ 0) && g.sumAfter.all (fun n => v.done.contains n || v.skipped.contains n)) (s.gateSum i node g)
  | _ => s
/-- GATE_DROP (R254). -/
def execGateDrop (inv node : Nat) (s : State) : Out := .next (s.gateNode inv node 0 [])
/-- GATE_REROUTE (R254). -/
def execGateReroute (inv node : Nat) (s : State) : Out := .next (s.gateNode inv node 1 [])
/-- GATE_ARRIVAL (R254). -/
def execGateArrival (inv node : Nat) (arrivals : List (Nat × Nat)) (s : State) : Out := .next (s.gateNode inv node 2 arrivals)

/-! MOVE, BRANCH, EXIT, ATOMIC. -/

/-- A move command as it stands on a tile where the areas begin at byte `b` (R218): its tile-local ends move with them. -/
def shiftedMove (b : Nat) (c : List Byte) : List Byte :=
  let m := moveCmd c
  bytesOf 32 (natOf (fit 32 c) + (if m.srcVa || m.mode == 1 then 0 else b * 2 ^ 128) + (if m.dstVa then 0 else b * 2 ^ 64))
/-- Put move commands on a tile's move unit (R166, R167, R218), or the fault of one that is refused. -/
def Tile.takeMoves (t : Tile) (cmds : List (List Byte)) (meets : MoveCmd → Bool) : Except Nat Tile :=
  match cmds with
  | [] => .ok t
  | c :: r =>
    let m := moveCmd c
    if m.invalid then .error 8 else if meets m then .error 9 else if !m.owned t t.ctx then .error 6
    else
      let op : XOp := { desc := c, sync := 0, ctx := t.ctx }
      Tile.takeMoves { t with live := { t.live with moves := t.live.moves ++ [op] } } r meets
/-- A MOVE node on one of its tiles: its commands go to the move unit, which holds eight. -/
def State.moveNode (s : State) (i node vt : Nat) (cmds : List (List Byte)) : State :=
  match s.areaAt i vt with
  | none => s
  | some (p, b) =>
    let t := s.tile p
    s.when (decide (t.live.moves.length + cmds.length ≤ 8))
      (match t.takeMoves (cmds.map (shiftedMove b)) (s.moveOverlaps p t.ctx) with
       | .error e => s.faultTask (s.inv i).task e 0
       | .ok u => ((s.begin_ i node).setTile p u).ranOn i node vt)
/-- MOVE_NODE (R168 to R172, R205). -/
def execMoveNode (inv node vt : Nat) (s : State) : Out :=
  match (s.node_ inv node).op with
  | .moves l => .next (s.when (s.nodeReady inv node 0x0D && !(s.inv inv).ran.contains (node, vt))
      (match assoc l vt with | some cmds => s.moveNode inv node vt cmds | none => s))
  | _ => .next s

/-- The predicate word of a node (R224). -/
def State.predicate (s : State) (i : Nat) (r : NodeRec) : Nat :=
  match s.areaAt i r.predVtile with | some p => natOf ((s.tile p.1).read (r.predAddr + p.2) 4) | none => 0
/-- The predicate word cannot be read (R369). -/
def State.predicatePoisoned (s : State) (i : Nat) (r : NodeRec) : Bool :=
  match s.areaAt i r.predVtile with | some p => (s.tile p.1).poisoned (r.predAddr + p.2) 4 | none => false
/-- Nodes that a decided BRANCH leaves out, and those under them: `n` bounds the depth. -/
def skippedBy (fuel : Nat) (nodes : List NodeRec) (skip : List Nat) : List Nat :=
  match fuel with
  | 0 => skip
  | fuel + 1 => skippedBy fuel nodes ((List.range nodes.length).filter (fun i =>
      skip.contains i || (match nodes[i]? with | some r => r.under != 0 && skip.contains (r.under - 1) | none => false)))
/-- Waves of nodes that will not run are discarded where they were streamed ahead (R225). -/
def State.discardWaves (s : State) (i : Nat) (skip : List Nat) : State :=
  let gone := ((s.slot (s.inv i).serving).waves.filter (fun e => skip.contains e.2.1)).map (fun e => e.1)
  let keep := fun (l : List Staged) => l.filter (fun e => e.owner != i + 1 || !gone.contains e.index)
  (s.task (s.inv i).task).tiles.foldl (fun s p => s.updTile p (fun t => { t with streamB := keep t.streamB, streamMv := keep t.streamMv })) s
/-- A BRANCH node decides: nodes of the subgraph that does not run never start. -/
def State.decide_ (s : State) (i node : Nat) : State :=
  let r := s.node_ i node
  let next := if s.predicate i r = 0 then r.falseNext else r.trueNext
  let nodes := (s.slot (s.inv i).serving).nodes
  let first := (List.range nodes.length).filter (fun n => match nodes[n]? with | some x => x.under == node + 1 && x.entry != next | none => false)
  let skip := skippedBy nodes.length nodes first
  let s := s.begin_ i node
  let v := s.inv i
  (s.setInv i { v with skipped := (v.skipped ++ skip).eraseDups }).discardWaves i skip
/-- BRANCH (R224). -/
def execBranch (inv node : Nat) (s : State) : Out :=
  let r := s.node_ inv node
  .next (s.when (s.nodeFresh inv node 0x0E)
    (if s.predicatePoisoned inv r then s.containedTile ((s.invTile inv r.predVtile).getD 0) 1 2 r.predAddr else s.decide_ inv node))
/-- EXIT (R226): with a nonzero predicate no further node starts. -/
def execExit (inv node : Nat) (s : State) : Out :=
  let r := s.node_ inv node
  let s1 := s.begin_ inv node
  let v1 := s1.inv inv
  .next (s.when (s.nodeFresh inv node 0x0F)
    (if s.predicatePoisoned inv r then s.containedTile ((s.invTile inv r.predVtile).getD 0) 1 2 r.predAddr
     else if s.predicate inv r = 0 then s1 else s1.setInv inv { v1 with exit := node + 1 }))
/-- An ATOMIC node begins: its list of entries in the SRAM of a virtual tile begins to issue (R386). -/
def State.atomicNode (s : State) (i node vt addr count : Nat) : State :=
  match s.areaAt i vt with
  | none => s
  | some (p, b) =>
    let n := (s.inv i).task
    let run : AtomicRun := { addr := addr + b, count := count, ctx := (s.task n).ctx, task := n + 1, node := node }
    let s1 := s.begin_ i node
    let s2 := { s1 with fabric := { s1.fabric with atomics := Table.insert s1.fabric.atomics (runKey n vt) run } }
    if !inSram (addr + b) (32 * count) then s.faultTask n 8 0
    else s.when (!Table.has s.fabric.atomics (runKey n vt)) ((issueEntries 64 s2 (runKey n vt)).noteRemote n)
/-- ATOMIC (R386). -/
def execAtomic (inv node : Nat) (s : State) : Out :=
  match (s.node_ inv node).op with
  | .atomic vt addr count => .next (s.when (s.nodeFresh inv node 0x10) (s.atomicNode inv node vt addr count))
  | _ => .next s

end Sys2Proof.Machine
end

