-- ==== Sys2Proof/Machine/Models.lean ====
section
/-! DEFINITION. Running models (ch. 8): loading and unloading slots, invocations from INVOKE to the record, waves, the deadline
monitor. -/

set_option linter.unusedVariables false

namespace Sys2Proof.Machine

/-! Slots. -/

/-- Chips of the job of a context. -/
def State.jobSize (s : State) (ctx : Nat) : Nat := match s.jobOf ctx with | some j => s.regN (Reg.jobChips j) | none => 1
/-- The areas of every virtual tile fit tile SRAM (R242). -/
def areasFit (l : List (Nat × Nat × Nat)) : Bool := l.all (fun a => decide (a.1 + a.2.1 + a.2.2 ≤ sramBytes))

/-- The reason and INFO that refuse a MODEL_LOAD (R222, R233, R235, R242), in the model's order (log entry 12): a slot that the function does
not own or that is not EMPTY is SLOT_NOT_READY and SLOT_BUSY. -/
def State.loadReason (s : State) (d : Desc) (slot part length : Nat) (c : List Byte) : Option (Nat × Nat) :=
  let h := kgfHeader c
  let tempo : Bool := 9 ≤ part ∧ part ≤ 63 ∧ s.regN (Reg.partOwner part) = d.func
  let mode := s.reg Reg.determinismMode == 1
  let weights := ((kgfBody c 2).getD []).length
  if 256 ≤ slot ∨ s.regN (Reg.slotOwner slot) ≠ d.func then some (7, 0)
  else if s.reg (Reg.slotState slot) ≠ 0 then some (11, 0)
  else if !(tempo || (part == 0 && s.reg (Reg.beWeight d.func) != 0)) then some (4, 0)
  else if h.magic ≠ 0x46474B5A ∨ h.format ≠ 1 ∨ !sectionsOk c ∨ length < h.total ∨ !digestsOk c then some (13, 0)
  else if h.major ≠ 1 ∨ h.minor ≠ 0 then some (14, 0)
  else if (if tempo then h.tiles ≠ (s.part part).tiles.length else 480 < h.tiles ∨ h.tiles = 0) ∨ h.chips ≠ s.jobSize d.context then some (8, 0)
  else if unknownRequired c ∨ !nodesOk c ∨ !(kgfPackages c).all (packageOk mode) then some (13, 0)
  else if h.batch = 0 ∨ 4096 < h.batch ∨ (tempo ∧ !areasFit (Config.kgfPlan c).areas) then some (13, 0)
  else
    match (if mode then firstForbidden c else none) with
    | some i => some (15, i)
    | none =>
      if 256 < s.measured d.func + 1 + (kgfPackages c).length then some (12, 0)
      else if !s.roomFor d.func (ceilDiv weights pageBytes) then some (12, 0)
      else none
/-- A refused load counts in FORBIDDEN_REFUSALS: a node uses an item of R230, or a kernel of the container reads LNC or CYC. -/
def State.loadForbidden (s : State) (c : List Byte) (reason : Nat) : Bool :=
  reason == 15 || (reason == 13 && s.reg Reg.determinismMode == 1 && nodesOk c && (kgfPackages c).any packageForbidden)

/-- A load is accepted: LOADING, the manifest measured, GDDR7 pages for the weights. -/
def State.loadSlot (s : State) (d : Desc) (slot part : Nat) (c : List Byte) : State :=
  let h := kgfHeader c
  let plan := Config.kgfPlan c
  let weights := (kgfBody c 2).getD []
  let manifest := Config.sha512 ((kgfBody c 7).getD [])
  let r := s.allocPages d.func (ceilDiv weights.length pageBytes)
  let x : Slot := { chips := h.chips, nodes := kgfNodes c, deterministic := bit h.flags 0, ios := plan.ios, fallback := (kgfBody c 6).map (fun b => fit 64 b)
                    areas := plan.areas, pins := plan.pins, pages := r.2, packages := kgfPackages c, weights := weights, desc := some d }
  let s := ((r.1.setSlot slot x).measure d.func manifest).setReg (Reg.slotState slot) 1
  let s := ((s.setReg (Reg.slotPartition slot) part).setReg (Reg.slotBatch slot) h.batch).setReg (Reg.slotTiles slot) h.tiles
  ((s.setBlob (Reg.slotManifestDigest slot) manifest).setReg (Reg.slotWeightBytes slot) (r.2.length * pageBytes)).countService slot

/-- MODEL_LOAD (R222, R234, R235, R574): the container is read as its bytes stand (R219). -/
def execModelLoad (f r : Nat) (container : List Byte) (s : State) : Out :=
  .next (s.admitDesc f r (isOp 0x03) [1, 2] (fun s d x => s.descRead d (mapBits x 447 384) (mapBits x 479 448) container (fun container =>
    let slot := mapBits x 511 504
    let part := mapBits x 503 496
    match s.loadReason d slot part container.length container with
    | some r => (s.when (s.loadForbidden container r.1) (s.bump Reg.forbiddenRefusals 1)).refuse d r.1 r.2
    | none => s.loadSlot d slot part container)))

/-- Load the kernel packages of a slot (R202, R203, R235). -/
def State.loadKernels (s : State) (m : Nat) (func : Nat) (ps : List (List Byte)) : State :=
  ps.foldl (fun s b =>
    match checkPackage b b.length (s.reg Reg.determinismMode == 1) with
    | .error _ => s
    | .ok p =>
      let h := s.freeHandle
      let k : Kernel := { func := func, borrowable := p.2.2, entries := p.1, code := p.2.1, slot := m + 1 }
      let s := ({ s with kernels := Table.insert s.kernels h k }).measure func (Config.sha512 (b.take (128 + 8 * p.2.1.length)))
      s.setSlot m { s.slot m with kernels := (s.slot m).kernels ++ [h] }) s

/-- MODEL_LOAD_COMPLETE (R234, R235, R238): the weights stand in GDDR7 and the copy is charged; READY, or STALE when the partition has another
size by now; the descriptor completes. -/
def execModelLoadComplete (slot : Nat) (s : State) : Out :=
  let x := s.slot slot
  match x.desc with
  | none => .next s
  | some d =>
    let p := s.regN (Reg.slotPartition slot)
    let fits := p == 0 || s.regN (Reg.slotTiles slot) == (s.part p).tiles.length
    let s1 := ((s.loadKernels slot d.func x.packages).runWrite (x.pages.length + 1) x.pages 0 x.weights).chargeBytes d.func 6 x.weights.length
    let s2 := (s1.setSlot slot { s1.slot slot with desc := none, packages := [], weights := [] }).setReg (Reg.slotState slot) (if fits then 2 else 3)
    .next (s.when (s.reg (Reg.slotState slot) == 1) (s2.bindFallbacks.served d))

/-- An invocation of the slot is admitted. -/
def State.slotUsed (s : State) (m : Nat) : Bool := List.any s.models.invs (fun e => e.2.slot == m || e.2.serving == m)

/-- Unloading begins (R237). -/
def State.unloadSlot (s : State) (m : Nat) (d : Option Desc) : State :=
  ((s.setSlot m { s.slot m with desc := d }).setReg (Reg.slotState m) 4).bindFallbacks

/-- MODEL_UNLOAD (R233, R234, R237). -/
def execModelUnload (f r : Nat) (s : State) : Out :=
  .next (s.admitDesc f r (isOp 0x04) [1, 2] (fun s d x =>
    let slot := mapBits x 511 504
    let st := s.reg (Reg.slotState slot)
    if 256 ≤ slot ∨ s.regN (Reg.slotOwner slot) ≠ d.func ∨ (st ≠ 2 ∧ st ≠ 3) then s.refuse d 7
    else if s.slotUsed slot then s.refuse d 11
    else s.unloadSlot slot (some d)))

/-- A slot is EMPTY again: pages are freed, kernels leave, its objects read their defaults. -/
def State.clearSlot (s : State) (m : Nat) : State :=
  let x := s.slot m
  let s := x.kernels.foldl State.dropKernel (s.freePages x.pages)
  let s := { s with models := { s.models with
    slots := Table.erase s.models.slots m
    pinnedOn := Table.mapVals [] s.models.pinnedOn (fun _ l => l.filter (fun n => n.1 != m))
    lastSlot := Table.mapVals 0 s.models.lastSlot (fun _ n => if n = m + 1 then 0 else n) } }
  let s := ((((s.setReg (Reg.slotState m) 0).setReg (Reg.slotPartition m) 0).setReg (Reg.slotBatch m) 0).setReg (Reg.slotTiles m) 0)
  (((s.setReg (Reg.slotWeightBytes m) 0).setReg (Reg.slotServiceSum m) 0).setReg (Reg.slotFallbackSlot m) 0xFFFF).setBlob (Reg.slotManifestDigest m) []

/-- MODEL_UNLOAD_COMPLETE (R234, R237, R238). -/
def execModelUnloadComplete (slot : Nat) (s : State) : Out :=
  let s1 := (s.clearSlot slot).bindFallbacks
  .next (s.when (s.reg (Reg.slotState slot) == 4) (match (s.slot slot).desc with | some d => s1.served d | none => s1))

/-! INVOKE (R94, R96, R239 to R243, R258). -/

/-- The reason that refuses an INVOKE, in the model's order (log entry 12). -/
def State.invokeReason (s : State) (d : Desc) (b : InvokeBody) : Option Nat :=
  let m := b.slot
  let p := s.regN (Reg.slotPartition m)
  let x := s.slot m
  let h := s.stateHandle p b.handle
  let n := s.regN (Reg.slotTiles m)
  if 256 ≤ m ∨ s.regN (Reg.slotOwner m) ≠ d.func then some 7
  else if s.reg (Reg.slotState m) = 3 then some 8
  else if s.reg (Reg.slotState m) ≠ 2 then some 7
  else if (d.klass = 0 ∧ (p < 9 ∨ s.regN (Reg.partOwner p) ≠ d.func)) ∨ (d.klass = 1 ∧ (p ≠ 0 ∨ s.reg (Reg.beWeight d.func) = 0)) then some 4
  else if b.batch ≠ s.regN (Reg.slotBatch m) then some 9
  else if b.io.map (fun e => e.2) ≠ x.ios.map (fun e => e.length) then some 8
  else if 1024 < b.handle ∨ (b.handle ≠ 0 ∧ h.slot ≠ 0 ∧ h.slot ≠ m + 1) then some 10
  else if d.klass = 0 ∧ s.lowest then some 6
  else if d.klass = 0 ∧ (extendAt d.deadline (s.fetchLnc d)).2 then some 2
  else if d.klass = 0 ∧ s.regN (Reg.partReservedSlots p) ≤ s.tempoOn p then some 1
  else if d.klass = 1 ∧ ((s.part 0).tiles.length < n ∨ !areasFit x.areas) then some 5
  else if b.handle ≠ 0 ∧ h.slot = 0 ∧ !s.roomFor d.func (ceilDiv (x.stateBytes n) pageBytes) then some 12
  else none

/-- Bind a state handle at its first use: a save area, and a state that reads zero (R243). -/
def State.bindHandle (s : State) (func m p h : Nat) : State :=
  if h = 0 ∨ (s.stateHandle p h).slot ≠ 0 then s
  else
    let r := s.allocPages func (ceilDiv ((s.slot m).stateBytes (s.regN (Reg.slotTiles m))) pageBytes)
    r.1.setStateHandle p h { slot := m + 1, pages := r.2 }

/-- Admit an invocation: its task, and for TEMPO the prediction, on whose flag fall the bound fallback serves (R258, R260, R261). -/
def State.admitInv (s : State) (d : Desc) (b : InvokeBody) : State :=
  let m := b.slot
  let p := s.regN (Reg.slotPartition m)
  let s := s.bindHandle d.func m p b.handle
  let f := s.fetchLnc d
  let x := extendAt d.lnc f
  let i := s.models.nextInv
  let deadline := (extendAt d.deadline f).1
  let before := match s.previousInv p i with | some v => v.predicted | none => 0
  let at0 := s.predict p m b.handle x.1 before
  let late : Bool := d.klass = 0 ∧ 50 * deadline < at0
  let fall : Option Nat := if late && s.reg Reg.determinismMode != 1 then s.boundTo m else none
  let serve := fall.getD m
  let k : Task := { func := d.func, ctx := d.context, ring := d.ring, seq := d.seq, klass := d.klass, quiet := d.quiet, urgent := d.urgent
                    part := p, vcount := s.regN (Reg.slotTiles m), target := x.1, fetched := f, past := x.2, inv := i + 1 }
  let v : Invocation := { task := s.nextTask, slot := m, serving := serve, part := p, deadline := deadline, handle := b.handle, io := b.io
                          flagPoint := if late then 1 else 0, predicted := if d.klass = 0 then s.predict p serve b.handle x.1 before else 0 }
  let s := if late then s.flagFall m else s
  let s := (s.addTask k).setInv i v
  { s with models := { s.models with nextInv := i + 1 } }

/-- INVOKE (R239). -/
def execInvoke (f r : Nat) (io : List (Nat × Nat)) (s : State) : Out :=
  .next (s.admitDesc f r (isOp 0x02) [1, 2] (fun s d x => s.descRead d (mapBits x 447 384) 1 [] (fun _ =>
    match s.invokeReason d (invokeBodyOf x io) with | some r => s.refuse d r | none => s.admitInv d (invokeBodyOf x io))))

/-! Inputs and outputs (R239, R240). -/

/-- Lines of an output on this chip that other chips hold (R398). -/
def State.outShared (s : State) (ctx va n : Nat) : List Nat :=
  match s.translate ctx va false true with | .remote _ _ => [] | .host _ => [] | .fault => [] | _ => s.sharedUnder ctx (bits va 42 0) n
/-- Write an output, or the address that faults: on PCI Express, to another chip, or into memory of this one. -/
def State.vaWrite (s : State) (ctx va : Nat) (bs : List Byte) : Except Nat State :=
  match s.translate ctx va false true with
  | .host a => (match s.vaFault ctx va bs.length false true with | some v => .error v | none => .ok (s.emit (.hostWrite (ctx / 16) a bs)))
  | .remote _ _ => (match s.remoteHome ctx va with
    | none => .error va
    | some (j, node) => .ok ((lineChunks (bs.length + 1) va bs.length 0).foldl (fun s e => s.storeChunk ctx j node (s.fabric.nextRequest + 1) va bs e) s))
  | _ => (match s.writeLocal ctx (bits va 42 0) bs with
    | some s' => .ok s'
    | none => .error ((s.vaFault ctx va bs.length false true).getD va))
/-- The declared inputs or outputs of the serving slot, each with its place in the I/O table. -/
def State.iosOf (s : State) (i : Nat) (output : Bool) : List (Nat × IoDecl) :=
  let l := (s.slot (s.inv i).serving).ios
  ((List.range l.length).zip l).filter (fun e => e.2.output == output)
/-- The bytes of a declared input or output of an invocation go to tile SRAM. -/
def State.putInput (s : State) (i : Nat) (e : Nat × IoDecl) : State :=
  match s.areaAt i e.2.vtile with
  | some p => s.updTile p.1 (fun t => t.write (e.2.addr + p.2) (fit e.2.length ((s.inv i).inputs.getD e.1 [])))
  | none => s
/-- The GDDR7 bytes of a transfer are charged to the function (R101). -/
def State.chargeIo (s : State) (ctx va n : Nat) : State :=
  match s.translate ctx va true false with | .gddr _ => s.chargeBytes (ctx / 16) 6 n | _ => s
/-- Read one input of an invocation (R240). -/
def State.readInput (s : State) (i : Nat) (arrived : List (List Byte)) (e : Nat × IoDecl) : State :=
  let v := s.inv i
  let k := s.task v.task
  let va := (v.io.getD e.1 (0, 0)).1
  match s.vaRead k.ctx va e.2.length (arrived.getD e.1 []) with
  | .error a => s.faultTask v.task 10 (bits a 56 8)
  | .ok r =>
    if r.2 then s.containedInv i va
    else (((s.setInv i { v with inputs := (fit' e.1 v.inputs) ++ [r.1] }).putInput i e).chargeIo k.ctx va e.2.length)
where
  /-- The list brought to `n` entries. -/
  fit' (n : Nat) (l : List (List Byte)) : List (List Byte) := (List.range n).map (fun j => l.getD j [])
/-- Read every input before the first node starts (R240). -/
def State.readInputs (s : State) (i : Nat) (arrived : List (List Byte)) : State := (s.iosOf i false).foldl (fun s e => s.readInput i arrived e) s

/-- What becomes of the outputs of an invocation that ends (R240). -/
inductive Outputs where
  /-- Every write is out. -/
  | done (s : State)
  /-- Other chips must first drop lines (R398). -/
  | waits (s : State)
  /-- One faults, or its bytes are poisoned. -/
  | stops (s : State)

/-- Write one output. -/
def State.writeOutput (i : Nat) (a : Outputs) (e : Nat × IoDecl) : Outputs :=
  match a with
  | .done s =>
    let v := s.inv i
    let k := s.task v.task
    let va := (v.io.getD e.1 (0, 0)).1
    (match s.areaAt i e.2.vtile with
     | none => .done s
     | some p =>
       if (s.tile p.1).poisoned (e.2.addr + p.2) e.2.length then .stops (s.containedTile p.1 1 2 (e.2.addr + p.2))
       else match s.vaWrite k.ctx va ((s.tile p.1).read (e.2.addr + p.2) e.2.length) with
         | .error x => .stops (s.faultTask v.task 10 (bits x 56 8))
         | .ok s' => .done (s'.chargeIo k.ctx va e.2.length))
  | x => x
/-- Write every output ahead of the record (R240). -/
def State.writeOutputs (s : State) (i : Nat) : Outputs :=
  let v := s.inv i
  let k := s.task v.task
  let l := s.iosOf i true
  let shared := l.flatMap (fun e => s.outShared k.ctx (v.io.getD e.1 (0, 0)).1 e.2.length)
  if shared.isEmpty then l.foldl (State.writeOutput i) (.done s)
  else .waits (shared.foldl (fun s x => s.invalidateLine ((s.jobOf k.ctx).getD 64) k.ctx x) s)

/-! Starts. -/

/-- The tile is free to take a rank. -/
def Tile.idle (t : Tile) : Bool := t.task == 0 && t.switching == 0
/-- Make ready and start the ranks of an invocation on free tiles, each with the byte at which its areas begin: a loan window passes to it (R72),
areas become resident, inputs are read. -/
def State.startInv (s : State) (i : Nat) (places : List (Nat × Nat)) (arrived : List (List Byte)) : State :=
  let v := s.inv i
  let n := v.task
  let tiles := places.map (fun e => e.1)
  let s := s.setInv i { v with running := true, bases := places.map (fun e => e.2), inputs := [] }
  let s := tiles.foldl (fun s p => if s.isRadio p then s.updTile p (fun t => { t.lend (s.task n).ctx with borrower := n + 1 }) else s) s
  let s := s.bringAll i tiles
  let s := s.setTask n { s.task n with status := .registered, tiles := tiles }
  (s.readInputs i arrived).startRanks n

/-- INVOCATION_START (R100, R240, R244, R251): a TEMPO invocation starts when the one before it on its partition has completed and its
target is reached; tiles that sleep are woken first (R60). -/
def execInvocationStart (inv : Nat) (arrived : List (List Byte)) (s : State) : Out :=
  let v := s.inv inv
  let k := s.task v.task
  let tiles := s.taskTiles k
  let first := !(List.any s.models.invs (fun e => e.2.part == v.part && decide (e.1 < inv)))
  .next (s.when (s.hasInv inv && !v.running && k.klass == 0 && k.status == .waiting && !k.rerunDue && decide (k.target ≤ s.lnc) && first && !s.lowest
      && tiles.all (fun p => (s.tile p).idle))
    (if tiles.all s.awake then s.startInv inv (tiles.map (fun p => (p, 0))) arrived else tiles.foldl State.startWake s))

/-- Affinity score of a free pool tile (R249). -/
def State.affinity (s : State) (m ctx p : Nat) : Nat :=
  let t := s.tile p
  4 * (if !(s.slot m).kernels.isEmpty && (s.slot m).kernels.all (fun h => t.code.contains h) then 1 else 0)
    + 2 * (if t.sleep ≤ 2 then 1 else 0) + (if t.pages.any (fun (e : Nat × List Nat) => e.2.contains ctx) then 1 else 0)
/-- Insert by descending score, ties by ascending number. -/
def insertByScore (l : List (Nat × Nat)) (e : Nat × Nat) : List (Nat × Nat) :=
  match l with
  | [] => [e]
  | x :: r => if x.2 < e.2 ∨ (x.2 = e.2 ∧ e.1 < x.1) then e :: x :: r else x :: insertByScore r e
/-- Free pool tiles in the order of selection (R249). -/
def State.selection (s : State) (m ctx : Nat) (free : List Nat) : List Nat :=
  let score := s.affinity m ctx
  let inC := fun c => free.filter (fun p => clusterOf p == c)
  let cs := ((List.range 8).map (fun c => (c, ((inC c).map score).sum))).foldl insertByScore []
  cs.flatMap (fun c => (((inC c.1).map (fun p => (p, score p))).foldl insertByScore []).map (fun e => e.1))
/-- Where an invocation's areas of some pages may begin on a pool tile: the lowest run of pages that no context holds (R89; log entry 29). -/
def Tile.freePages (t : Tile) (pages : Nat) : Option Nat :=
  (List.range (1025 - pages)).find? (fun g => (List.range pages).all (fun j => (Table.get [] t.pages (g + j)).isEmpty))
/-- Virtual tiles that an operation names. -/
def opTiles (op : NodeOp) : List Nat :=
  match op with
  | .control => []
  | .passes l => l.map (fun e => e.1)
  | .dft vt _ => [vt]
  | .element _ a b out => [a.tile, b.tile, out.tile]
  | .rows x y gain beta _ _ => [x.tile, y.tile, gain.tile, beta.tile]
  | .quant x _ _ _ _ _ => [x.tile]
  | .reduce out _ _ l => out.tile :: l.map (fun e => e.2.1)
  | .gate g => [g.tile, g.rowTile, g.sumTile] ++ (g.inputs.filter (fun x => !x.remote)).map (fun x => x.tile) ++ g.sumRows.map (fun x => x.1)
  | .moves l => l.map (fun e => e.1)
  | .atomic vt _ _ => [vt]
/-- A node acts on a virtual tile. -/
def nodeUses (r : NodeRec) (vt : Nat) : Bool :=
  (opTiles r.op).contains vt || r.waves.any (fun w => w.vtiles.contains vt) || (r.pred != 0xFFFFFFFF && r.predVtile == vt)
/-- A virtual tile may be placed on a radio tile: every node that acts on it is marked borrowable, and the slot's kernels are BORROWABLE
(R250). -/
def State.mayBorrow (s : State) (m vt : Nat) : Bool :=
  (s.slot m).nodes.all (fun r => !nodeUses r vt || r.borrowable) && (s.slot m).kernels.all (fun h => (Table.get {} s.kernels h).borrowable)
/-- Radio tiles that satisfy R75 for a need of bytes, lowest number first (log entry 21). -/
def State.radioLoans (s : State) (need : Nat) : List Nat :=
  (List.range 512).filter (fun p =>
    let t := s.tile p
    s.isRadio p && t.idle && decide (t.borrower = 0 ∧ t.loan ≠ 0 ∧ need + 16384 ≤ 65536 * t.loan) && !Table.has s.relia.promotions p
      && s.radioGap p (s.regN Reg.preemptLead + s.regN Reg.minBorrowGap))
/-- Tiles of a BE invocation by virtual number, with the bytes at which its areas begin (R249, R250): a virtual tile whose state area is resident
keeps its tile when that is free; the rest take the selection in order; with no free pool tile left, a radio tile. It is shorter than
TILES while the invocation has to wait. -/
def State.placement (s : State) (i : Nat) : List (Nat × Nat) :=
  let v := s.inv i
  let k := s.task v.task
  let m := v.serving
  let x := s.slot m
  let free := (s.part 0).tiles.filter (fun p => (s.tile p).idle && (s.tile p).next == 0 && !Table.has s.relia.promotions p)
  let areas := (s.stateHandle v.part v.handle).areas
  let begins := fun vt p => ((s.tile p).freePages (x.needPages vt)).map (fun g => (p, 65536 * g))
  let kept := (List.range k.vcount).map (fun vt => match Table.find? areas vt with
    | some q => if v.handle ≠ 0 ∧ free.contains q.1 then begins vt q.1 else none
    | none => none)
  let used := (kept.filterMap id).map (fun e => e.1)
  let rest := (s.selection m k.ctx free).filter (fun p => !used.contains p)
  let out := ((List.range k.vcount).zip kept).foldl (fun (a : List (Nat × Nat) × List Nat) e =>
    match e.2 with
    | some q => (a.1 ++ [q], a.2)
    | none => match (a.2.filterMap (begins e.1)).head? with
      | some q => (a.1 ++ [q], a.2.filter (fun p => p != q.1))
      | none =>
        if !a.2.isEmpty ∨ !s.mayBorrow m e.1 then a
        else match ((s.radioLoans (x.need e.1)).filter (fun p => !a.1.any (fun q => q.1 == p))).head? with
          | some p => (a.1 ++ [(p, (s.tile p).loanBase)], a.2)
          | none => a) ([], rest)
  out.1

/-- BE_INVOCATION_PLACE (R88, R249, R250): once enough tiles are free the invocation is placed by affinity and starts, if no other BE task
goes before it. -/
def execBeInvocationPlace (inv : Nat) (arrived : List (List Byte)) (s : State) : Out :=
  let v := s.inv inv
  let k := s.task v.task
  let places := s.placement inv
  let tiles := places.map (fun e => e.1)
  let before := List.any s.models.invs (fun e => e.1 != inv && e.2.part == 0 && !e.2.running && s.beBefore (e.2.task, s.task e.2.task) (v.task, k)
    && decide ((s.task e.2.task).target ≤ s.lnc) && (s.task e.2.task).status == .waiting)
  .next (s.when (s.hasInv inv && !v.running && k.klass == 1 && k.status == .waiting && !k.rerunDue && decide (k.target ≤ s.lnc) && !s.lowest && !before
      && places.length == k.vcount)
    (if tiles.all s.awake then s.startInv inv places arrived else tiles.foldl State.startWake s))

/-! Waves (R225, R245 to R248). -/

/-- The BRANCH subgraphs around a node, innermost first, each as its BRANCH and its first node. -/
def Slot.around (x : Slot) (fuel node : Nat) : List (Nat × Nat) :=
  match fuel with
  | 0 => []
  | fuel + 1 => match x.nodes[node]? with
    | some r => if r.under = 0 then [] else (r.under - 1, r.entry) :: x.around fuel (r.under - 1)
    | none => []
/-- See Slot.around. -/
def Slot.chain (x : Slot) (node : Nat) : List (Nat × Nat) := x.around x.nodes.length node
/-- The number of the first wave of a subgraph. -/
def Slot.firstOf (x : Slot) (c : Nat × Nat) : Option Nat := (x.waves.find? (fun e => (x.chain e.2.1).contains c)).map (fun e => e.1)
/-- A wave may go out: every BRANCH around its node is decided, or has PREFETCH_BOTH and the wave is the first of its subgraph (R225). -/
def Slot.mayStream (x : Slot) (v : Invocation) (e : Nat × Nat × Wave) : Bool :=
  (x.chain e.2.1).all (fun c => v.hasBegun c.1 || ((x.nodes.getD c.1 { family := 0 }).prefetchBoth && x.firstOf c == some e.1))
/-- A BRANCH around the wave's node is still to be decided. -/
def Slot.early (x : Slot) (v : Invocation) (e : Nat × Nat × Wave) : Bool := (x.chain e.2.1).any (fun c => !v.hasBegun c.1)
/-- The wave that is issued next: the first of those not yet issued, in list order (R246); where waves wait for a BRANCH, one that streams ahead
of its predicate may pass them (R225). -/
def Slot.nextWave (x : Slot) (v : Invocation) : Option (Nat × Nat × Wave) :=
  let left := x.waves.filter (fun e => !v.waves.contains e.1 && !v.skipped.contains e.2.1)
  left.find? (fun e => x.mayStream v e && left.all (fun w => decide (e.1 ≤ w.1) || (x.early v e && x.early v w)))
/-- The wave stands in the stage of one of its tiles. -/
def State.standsIn (s : State) (i : Nat) (e : Nat × Nat × Wave) : Bool :=
  e.2.2.vtiles.any (fun vt => match s.invTile i vt with
    | some p => ((s.tile p).streamB ++ (s.tile p).streamMv).any (fun w => w.owner == i + 1 && w.index == e.1)
    | none => false)
/-- Waves issued ahead of the one being consumed (R246). -/
def State.wavesAhead (s : State) (i : Nat) (x : Slot) : Nat :=
  let v := s.inv i
  (x.waves.filter (fun e => v.waves.contains e.1 && !v.skipped.contains e.2.1 && (if e.2.2.dest = 2 then !v.hasBegun e.2.1 else s.standsIn i e))).length
/-- The tiles of a wave have room: a half of the B stage, the MV weight input, or bytes of SRAM under no wave still to be consumed (R139,
R159, R246). -/
def State.waveRoom (s : State) (i : Nat) (x : Slot) (w : Wave) : Bool :=
  let v := s.inv i
  let held := x.waves.filter (fun e => v.waves.contains e.1 && e.2.2.dest == 2 && !v.done.contains e.2.1 && !v.skipped.contains e.2.1)
  w.vtiles.all (fun vt => match s.invTile i vt with
    | none => false
    | some p => match w.dest with
      | 0 => decide ((s.tile p).streamB.length < 2)
      | 1 => (s.tile p).streamMv.isEmpty
      | _ => held.all (fun e => !e.2.2.vtiles.contains vt || decide (e.2.2.addr + e.2.2.length ≤ w.addr ∨ w.addr + w.length ≤ e.2.2.addr)))
/-- A wave's bytes reach every tile of its mask (R247). -/
def State.deliverWave (s : State) (i index : Nat) (w : Wave) (data : List Byte) : State :=
  let e : Staged := { owner := i + 1, index := index, data := data }
  w.vtiles.foldl (fun s vt => match s.areaAt i vt with
    | none => s
    | some p => s.updTile p.1 (fun t => match w.dest with
      | 0 => { t with streamB := t.streamB ++ [e] }
      | 1 => { t with streamMv := t.streamMv ++ [e] }
      | _ => if inSram (w.addr + p.2) data.length then t.write (w.addr + p.2) data else t)) s
/-- The next admitted invocation of a partition may take its first waves during the last node of the running one, of the same slot, once that
one's own waves are out (R248). A wave to tile SRAM waits: the working area is the running one's until it ends (R242). -/
def State.mayPrefetch (s : State) (i : Nat) (w : Wave) : Bool :=
  let v := s.inv i
  let before := List.filter (fun (e : Nat × Invocation) => e.2.part == v.part && decide (e.1 < i)) s.models.invs
  match before with
  | [(_, u)] =>
    let x := s.slot u.serving
    (s.task v.task).klass == 0 && u.running && u.serving == v.serving && w.dest != 2
      && (List.range x.nodes.length).all (fun n => u.hasBegun n || u.skipped.contains n)
      && x.waves.all (fun e => u.waves.contains e.1 || u.skipped.contains e.2.1)
  | _ => false

/-- WAVE_ISSUE (R246 to R248): the next wave, at most two ahead of the one consumed, to tiles with room; its bytes are read from the slot's
pages and charged once. Poisoned bytes are a contained error (R369). -/
def execWaveIssue (inv : Nat) (s : State) : Out :=
  let v := s.inv inv
  let x := s.slot v.serving
  match x.nextWave v with
  | none => .next s
  | some (index, node, w) =>
    let k := s.task v.task
    let s0 := if k.tiles.isEmpty then s.setTask v.task { k with tiles := s.taskTiles k } else s
    let bad := s.runPoisoned x.pages w.offset w.length
    let s1 := (s0.deliverWave inv index w (s.runRead x.pages w.offset w.length)).setTask v.task k
    .next (s.when (s.hasInv inv && ((v.running && s.invPlaced inv) || s.mayPrefetch inv w) && !v.abandoned && decide (s0.wavesAhead inv x < 2) && s0.waveRoom inv x w)
      (if bad then s.containedInv inv (runAddr x.pages w.offset)
       else (s1.setInv inv { v with waves := v.waves ++ [index] }).chargeBytes k.func 6 w.length))

/-! Completion of nodes, the monitor (R257 to R261). -/

/-- ns of a number of keeping-clock ticks. -/
def nsOfTicks (n : Nat) : Nat := 32 * n / 5
/-- Remaining time by the table of the nodes already started: the largest (R259). -/
def State.drain (s : State) (v : Invocation) : Nat :=
  let x := s.slot v.serving
  (v.begun.filter (fun e => !v.done.contains e.1)).foldl (fun m e => max m (x.service_ e.1 - nsOfTicks (s.time.ticks - e.2))) 0
/-- The evaluation at a checkpoint (R259 to R261). -/
def State.checkpoint (s : State) (i number : Nat) : State :=
  let v := s.inv i
  let x := s.slot v.serving
  let m := s.regN Reg.monitorMargin
  let p := s.nowNs + x.sumOver (fun n => !v.hasBegun n && !v.skipped.contains n) + s.drain v + m
  if s.lowest ∨ p ≤ 50 * v.deadline then s
  else
    let s := (s.flagFall v.slot).setInv i { v with flagPoint := if v.flagPoint = 0 then 1 + number else v.flagPoint }
    if v.serving ≠ v.slot ∨ s.reg Reg.determinismMode = 1 then s
    else match s.boundTo v.slot with
    | none => s
    | some f =>
      let pf := s.nowNs + s.drain v + 1000 + s.tSwitch v.part f v.handle + (s.slot f).sumOver (fun _ => true) + m
      if pf ≤ 50 * v.deadline ∧ !v.stateWritten then s.setInv i { s.inv i with abandoned := true } else s
/-- The abandoned original has ended: the fallback runs from its first node, with the same inputs and state handle (R258, R259). -/
def State.fallBack (s : State) (i : Nat) : State :=
  let v := s.inv i
  if !v.abandoned || !(v.begun.all (fun e => v.done.contains e.1)) then s
  else match s.boundTo v.slot with
  | none => s.setInv i { v with abandoned := false }
  | some f =>
    let s := ((s.keepState i).leaveTiles i).clearStage i
    let tiles := (s.task v.task).tiles
    let s := (s.setInv i { v.restarted with running := true, serving := f, bases := v.bases }).bringAll i tiles
    (s.iosOf i false).foldl (fun s e => s.putInput i e) s

/-- Work of a node that is still under way: tiles on which it has not run, a reduction, moves, tokens to sum, an ATOMIC list with entries
open. -/
def State.nodeBusy (s : State) (i node : Nat) : Bool :=
  let v := s.inv i
  let k := s.task v.task
  let ran := fun vt => v.ran.contains (node, vt)
  Table.has s.models.reductions (reduceKey i node) ||
    (match (s.node_ i node).op with
     | .passes l => !l.all (fun e => ran e.1)
     | .dft vt _ => !ran vt
     | .moves l => !l.all (fun e => ran e.1) || k.tiles.any (fun p => !(s.tile p).live.moves.isEmpty)
     | .gate g => g.sumCount != 0 && !v.summed.contains node
     | .atomic vt _ _ => (match Table.find? s.fabric.atomics (runKey v.task vt) with
       | some a => a.node == node && (decide (a.next < a.count) || s.openRemote (runKey v.task vt) != 0)
       | none => false)
     | _ => false)

/-- NODE_COMPLETE (R224, R257, R259): the node's duration is measured, a checkpoint is evaluated, later nodes may start. -/
def execNodeComplete (inv node : Nat) (s : State) : Out :=
  let v := s.inv inv
  let r := s.node_ inv node
  let k := s.task v.task
  let at0 := match v.begun.find? (fun e => e.1 == node) with | some e => e.2 | none => s.time.ticks
  let s0 : State := match r.op with | .atomic vt _ _ => { s with fabric := { s.fabric with atomics := Table.erase s.fabric.atomics (runKey v.task vt) } } | _ => s
  let s1 := (s0.measureNode v.serving node (nsOfTicks (s.time.ticks - at0))).setInv inv { v with done := node :: v.done, stateWritten := v.stateWritten || r.writesState }
  let s2 := if r.checkpoint = 0 ∨ k.klass ≠ 0 ∨ v.abandoned ∨ v.exit ≠ 0 then s1 else s1.checkpoint inv r.checkpoint
  .next (s.when (s.hasInv inv && s.invPlaced inv && v.hasBegun node && !v.done.contains node && !s.nodeBusy inv node) (s2.fallBack inv))

/-! The end (R226, R240, R243, R260). -/

/-- Every node that is to run has completed. -/
def State.invDone (s : State) (v : Invocation) : Bool :=
  v.begun.all (fun e => v.done.contains e.1) && !v.abandoned
    && (v.exit != 0 || (List.range (s.slot v.serving).nodes.length).all (fun n => v.done.contains n || v.skipped.contains n))
/-- Outcome of an invocation that ran (R98, R260). -/
def State.invOutcome (s : State) (k : Task) (v : Invocation) : Nat :=
  if v.serving ≠ v.slot then 2 else if k.klass = 0 ∧ v.deadline < s.lnc then 1 else s.startOutcome k
/-- The record of an invocation that has ended, with the slot whose outputs it returns; the tiles are given up (R240, R260). -/
def State.endInv (s : State) (i : Nat) (good : Bool) : State :=
  let v := s.inv i
  let n := v.task
  let k := s.task n
  let r : Record := { s.endRecord k with
    outcome := s.invOutcome k v, model := v.serving, flagPoint := v.flagPoint, exit := v.exit != 0
    info := if k.fault ≠ 0 then k.info % 2 ^ 49 else if v.exit ≠ 0 then v.exit - 1 else 0 }
  let s := if v.running then (s.keepState i).leaveTiles i else s
  let s := if good then s.bump (Reg.slotInvocations v.slot) 1 else s
  let s := if good ∧ v.serving ≠ v.slot then s.bump (Reg.slotFallbackServed v.slot) 1 else s
  let s := if k.quiet && k.fault == 0 then s else s.writeRecord k.func (s.recordRing k.func k.ring) r k.urgent
  let s := { s with models := { s.models with reductions := Table.keep s.models.reductions (fun x _ => x / 65536 != i) } }
  ((s.releaseTask n).dropTask n).dropInvocation (i + 1)
/-- INVOCATION_COMPLETE (R240, R260): every node that is to run has completed; outputs are written, then the record. A faulted invocation ends
here too. -/
def execInvocationComplete (inv : Nat) (s : State) : Out :=
  let v := s.inv inv
  let n := v.task
  let k := s.task n
  let good : Bool := k.status == .running && v.running && s.invPlaced inv && s.invDone v
  let bad : Bool := k.status == .ended && k.fault != 0
  .next (s.when (s.hasInv inv && s.hasTask n && (good || bad))
    (if good then (match s.writeOutputs inv with | .done s => s.endInv inv true | .waits s => s | .stops s => s) else s.endInv inv false))

/-- STATE_FREE (R243): the handle is unbound, its state discarded and its save area freed. A handle of another function's slot is
STATE_MISMATCH. -/
def execStateFree (f r : Nat) (s : State) : Out :=
  .next (s.admitDesc f r (isOp 0x05) [1, 2] (fun s d x =>
    let part := mapBits x 511 504
    let handle := mapBits x 503 488
    let h := s.stateHandle part handle
    if !s.usesPart d part then s.refuse d 4
    else if handle = 0 ∨ 1024 < handle ∨ (h.slot ≠ 0 ∧ s.regN (Reg.slotOwner (h.slot - 1)) ≠ d.func) then s.refuse d 10
    else ((s.freePages h.pages).setStateHandle part handle {}).served d))

end Sys2Proof.Machine
end

