-- ==== Sys2Proof/Machine/Functions.lean ====
section
/-! DEFINITION. Functions and contexts (R431, R432, R453 to R457): enabling, the disabling sequence, the end of a context, the TDISP
and IDE messages. -/

set_option linter.unusedVariables false

namespace Sys2Proof.Machine

/-! Which functions there are. -/

/-- Chip control serves (R556). -/
def State.serving (s : State) : Bool := s.reg Reg.startupStage == 3
/-- PF0, or a VF that VF Enable brings (R431). -/
def State.functionExists (s : State) (f : Nat) : Bool := f == 0 || (decide (f ≤ 512) && s.boot.vfEnable)
/-- The chip-wide numbers of a function's contexts (R432). -/
def ctxsOf (f : Nat) : List Nat := (List.range 16).map (fun x => 16 * f + x)

/-! Contexts (R432). -/

/-- The lowest running completion ring of a function, which takes the records of a context that ends by CTX_ENABLE (log entry 57). -/
def State.endRing (s : State) (f : Nat) : Nat :=
  ((List.range 64).find? (fun r => s.reg (Reg.ringKind f r) == 3 && s.reg (Reg.ringStatus f r) == 1)).getD 0
/-- A context ends (R422, R432): its tasks abort, its requests are forgotten, its objects are checked and freed, its jobs unbound, and
the memory it had mapped goes (log entry 57). -/
def State.endContext (s : State) (c : Nat) : State :=
  let s := (s.abortWhere (fun k => k.ctx == c && k.radio.isNone)).dropRequests c
  let s := ((s.endObjects c (s.endRing (c / 16)) true).dropContextMaps c).forgetQuiet (64 + c)
  { s with
    fabric := { s.fabric with jobs := Table.mapVals {} s.fabric.jobs (fun _ j => if j.bound = c + 1 then { j with bound := 0 } else j) }
    sync := { s.sync with halted := s.sync.halted.filter (fun h => h != c) } }
/-- CTX_ENABLE 1 needs an ENABLED function, which there is none of before SERVING (R558). -/
def ctxEnableRule (s : State) (f v : Nat) : Option State := if v = 1 ∧ s.reg (Reg.functionState f) ≠ 1 then some s else none
/-- CTX_ENABLE takes effect: a context that was enabled ends with 0. -/
def ctxEnableEffect (s : State) (c old v : Nat) : State := if old = 1 ∧ v = 0 then s.endContext c else s
/-- CTX_CLASS and CTX_PASID are read when the context is created and stand while it is enabled (R432). -/
def ctxFieldRule (s : State) (c : Nat) : Option State := if s.ctxOn c then some s else none

/-! The disabling sequence (R453 to R455). -/

/-- Pending resizes of a function's partitions are cancelled; tiles that have left go to the pool (R453). -/
def State.cancelResizes (s : State) (f : Nat) : State :=
  (List.range 64).foldl (fun s p =>
    match (s.part p).resize with
    | none => s
    | some r =>
      if p < 9 ∨ s.regN (Reg.partOwner p) ≠ f then s
      else (if r.left then s.setPart 0 { s.part 0 with tiles := (s.part 0).tiles ++ r.chosen } else s).endResize p 0) s

/-- What happens at T (R453): nothing more is fetched or written, tasks abort, invocations and resizes are cancelled, objects are
abandoned, jobs torn down with FAULT_CAUSE 1 and no record. A second event while DISABLING has no further effect (R455). -/
def State.disableFunction (s : State) (f : Nat) (flr : Bool) : State :=
  if s.reg (Reg.functionState f) = 2 ∨ (s.reg (Reg.functionState f) = 0 ∧ !flr) then s
  else
    let g := s.func f
    let s := (s.setFunc f { g with disablingAt := s.time.ticks + 1, byFlr := flr, pendingBits := [], snaps := [], tdi := if flr then 0 else g.tdi }).setReg
      (Reg.functionState f) 2
    let s := { s with rings := Table.mapVals {} s.rings (fun k r =>
      if k / 64 = f then { r with fetched := [], held := [], irqPending := 0, extra := [], fallback := 0, buffers := [], inUse := [] } else r) }
    let s := (s.abortWhere (fun k => k.func == f && k.radio.isNone)).cancelResizes f
    let s := (List.range 64).foldl (fun s j => if (s.job j).bound ≠ 0 ∧ ((s.job j).bound - 1) / 16 = f then s.tearDown j 1 true else s) s
    (ctxsOf f).foldl (fun s c => (s.abandonContext c).dropRequests c) s

/-- The pages of tile SRAM that a function's contexts hold, and the loan windows of its borrowers, are zeroised (R453). -/
def State.zeroiseTiles (s : State) (f : Nat) : State :=
  { s with tiles := Table.mapVals {} s.tiles (fun _ t =>
    let mine := List.filter (fun (e : Nat × List Nat) => !e.2.isEmpty && e.2.all (fun c => c / 16 == f)) t.pages
    mine.foldl (fun t (e : Nat × List Nat) => { t.zeroRange (65536 * e.1) (65536 * e.1 + 65536) with pages := Table.erase t.pages e.1 }) t) }

/-- A function's tempo inference partitions shrink to nothing, without consent; their tiles join the pool, zeroised (R453). -/
def State.returnPartitions (s : State) (f : Nat) : State :=
  (List.range 55).foldl (fun s i =>
    let p := i + 9
    let ts := (s.part p).tiles
    if s.regN (Reg.partOwner p) ≠ f ∨ ts.isEmpty then s
    else
      let s := (List.range ts.length).foldl (fun s v => s.unmapVtile p v) s
      let s := ts.foldl (fun s t => (s.clearResidency t).updTile t Tile.zeroised) s
      let s := s.setPart p { s.part p with tiles := [] }
      (s.setPart 0 { s.part 0 with tiles := (s.part 0).tiles ++ ts }).slotsResized p 0) s

/-- Resources go back (R453): state handles, model slots, kernels, mappings, tile memory, partitions, sync objects, measurements. -/
def State.returnResources (s : State) (f : Nat) : State :=
  let hs := List.filter (fun (e : Nat × Handle) => e.2.slot != 0 && s.regN (Reg.slotOwner (e.2.slot - 1)) == f) s.models.handles
  let s := hs.foldl (fun s (e : Nat × Handle) =>
    let s := s.freePages e.2.pages
    { s with models := { s.models with handles := Table.erase s.models.handles e.1 } }) s
  let s := ((List.range 256).filter (fun m => s.regN (Reg.slotOwner m) == f && s.reg (Reg.slotState m) != 0)).foldl State.clearSlot s
  let s := (List.map (fun (e : Nat × Kernel) => e.1) (List.filter (fun (e : Nat × Kernel) => !e.2.vendor && e.2.func == f) s.kernels)).foldl State.dropKernel s.bindFallbacks
  let s := (ctxsOf f).foldl (fun s c => ((s.dropContextMaps c).endObjects c 0 false).forgetQuiet (64 + c)) s
  let s := (s.zeroiseTiles f).returnPartitions f
  (s.setBlob (Reg.funcMeas f) []).setBlob (Reg.funcMeasLog f) []

/-- Rings and contexts of a function are off; after an FLR every object of its window that is not RWP reads its default (R453, R454;
log entry 56). -/
def State.windowOff (s : State) (f : Nat) (flr : Bool) : State :=
  let gone := fun (k : Nat) =>
    let u := k / 256 % 65536
    k / 16777216 == f && ((decide (0xB100 ≤ u ∧ u ≤ 0xB13F) && (flr || k % 256 == 2 || k % 256 == 8))
      || (decide (0xB200 ≤ u ∧ u ≤ 0xB20F) && (flr || k % 256 == 0)))
  { s with
    dict := { s.dict with regs := Table.keep s.dict.regs (fun k _ => !gone k) }
    rings := Table.keep s.rings (fun k _ => k / 64 != f)
    sync := { s.sync with halted := s.sync.halted.filter (fun c => c / 16 != f) } }

/-- FUNCTION_DISABLE_COMPLETE (R453): 10 ms after the event the function reads DISABLED, or ENABLED after an FLR. -/
def execFunctionDisableComplete (f : Nat) (s : State) : Out :=
  let g := s.func f
  let on : Bool := g.byFlr && s.functionExists f
  let s1 := (s.returnResources f).windowOff f g.byFlr
  let s2 := s1.setFunc f { s1.func f with disablingAt := 0, byFlr := false, unmasked := if g.byFlr then [] else (s1.func f).unmasked }
  .next (s.when (s.reg (Reg.functionState f) == 2 && decide (g.disablingAt ≠ 0) && s.passed (g.disablingAt - 1) 10000000)
    ((s2.setReg (Reg.functionState f) (if on then 1 else 0)).setReg (Reg.functionEnable f) (if on then 1 else 0)))

/-- Disable every VF (R453, R455). -/
def State.disableVfs (s : State) : State :=
  (List.range 512).foldl (fun s i => if s.reg (Reg.functionState (i + 1)) = 0 then s else s.disableFunction (i + 1) false)
    { s with boot := { s.boot with vfEnable := false } }

/-- FLR (R453, R455): of PF0 it clears VF Enable, so every VF is disabled with it. -/
def execFlr (f : Nat) (s : State) : Out :=
  .next (s.when (s.boot.link && s.functionExists f) ((if f = 0 then s.disableVfs else s).disableFunction f true))

/-- VF_ENABLE_SET (R431, R558): the virtual functions appear; they read DISABLED until PF0 enables them. -/
def execVfEnableSet (s : State) : Out := .next (s.when s.boot.link { s with boot := { s.boot with vfEnable := true } })

/-- VF_ENABLE_CLEAR (R453). -/
def execVfEnableClear (s : State) : Out := .next (s.when s.boot.vfEnable s.disableVfs)

/-- D3HOT_ENTRY (R430, R453). -/
def execD3hotEntry (f : Nat) (s : State) : Out :=
  let s1 := s.setFunc f { s.func f with d3 := true }
  .next (s.when (s.boot.link && s.functionExists f) (s1.disableFunction f false))

/-- The link goes down: every function is disabled (R456). VF Enable goes with it (log entry 56). -/
def State.linkGone (s : State) : State := ({ s with boot := { s.boot with link := false } }).disableVfs.disableFunction 0 false

/-- PCIE_LINK_DOWN (R456). -/
def execPcieLinkDown (s : State) : Out := .next (s.when s.boot.link s.linkGone)

/-- FUNCTION_ENABLE (R453, R558): a function that is not there or is DISABLING, or any before SERVING, is not enabled. -/
def functionEnableRule (s : State) (f v : Nat) : Option State :=
  if v = 1 ∧ (!s.functionExists f ∨ s.reg (Reg.functionState f) = 2 ∨ !s.serving) then some s else none
/-- It takes effect. -/
def functionEnableEffect (s : State) (f v : Nat) : State :=
  if v = 0 then s.disableFunction f false
  else if s.reg (Reg.functionState f) = 0 then (s.setFunc f { s.func f with d3 := false }).setReg (Reg.functionState f) 1 else s

/-! Rings (R459). -/

/-- RING_KIND is enabled only on an ENABLED function; the other objects of a ring are written only while it is off. -/
def ringRule (s : State) (f r sub v : Nat) : Option State :=
  if sub = 2 then (if v ≠ 0 ∧ s.reg (Reg.functionState f) ≠ 1 then some s else none)
  else if s.reg (Reg.ringKind f r) ≠ 0 then some s else none
/-- RING_KIND takes effect: the ring is off, and, if it has a kind, waits for its enabling (RING_ENABLE). -/
def ringKindEffect (s : State) (f r : Nat) : State := (s.setRing f r {}).setReg (Reg.ringStatus f r) 0

/-! Security on the link (R457). -/

/-- A VF's interface is CONFIG_LOCKED or RUN. -/
def State.tdiLocked (s : State) (f : Nat) : Bool := f != 0 && ((s.func f).tdi == 1 || (s.func f).tdi == 2)

/-- TDISP_REQUEST (R457), with the request codes of PCI Express (log entry 55): 0x83 locks an unlocked interface, 0x86 starts a locked
one with the nonce of its lock, 0x87 stops it; 0x81, 0x82, 0x84, 0x85 ask. The answer is code − 0x80, or 0x7F, TDISP_ERROR. -/
def execTdispRequest (f code : Nat) (nonceOk : Bool) (s : State) : Out :=
  let t := (s.func f).tdi
  let next : Option Nat := match code with
    | 0x83 => if t = 0 then some 1 else none
    | 0x86 => if t = 1 ∧ nonceOk then some 2 else none
    | 0x87 => some 0
    | 0x81 => some t
    | 0x82 => some t
    | 0x84 => if t = 1 ∨ t = 2 then some t else none
    | 0x85 => some t
    | _ => none
  let s1 := match next with
    | some x => ((s.setFunc f { s.func f with tdi := x }).emit (.spdm (.doe f) (code - 0x80) (BitVec.ofNat 8 x :: Config.freeBytes s.free 64))).fresh
    | none => s.emit (.spdm (.doe f) 0x7F [BitVec.ofNat 8 t])
  .next (s.when (decide (1 ≤ f) && s.boot.link && s.functionExists f) s1)

/-- Number of an SPDM channel in SecState.spdm. -/
def channelNumber (c : SpdmChannel) : Nat := match c with | .doe f => f | .hdp k => 1024 + k | .window => 2048
/-- The exchange of a channel. -/
def State.spdmOf (s : State) (c : SpdmChannel) : SpdmState := Table.get {} s.sec.spdm (channelNumber c)

/-- IDE_KM_REQUEST (R457), with the messages of PCI Express (log entry 55): byte 0 the object (0 QUERY, 2 KEY_PROG, 4 K_SET_GO,
5 K_SET_STOP), byte 3 the stream, byte 5 the key set, direction and sub-stream, the key and IV from byte 7. Over a secure session
on DOE; at most 65 streams hold keys. -/
def execIdeKmRequest (channel : SpdmChannel) (body : List Byte) (s : State) : Out :=
  let b := fun i => (body.getD i 0).toNat
  let id := b 3
  let x : IdeStream := Table.get {} s.sec.ide id
  let put := fun (y : IdeStream) => { s with sec := { s.sec with ide := Table.put {} s.sec.ide id y } }
  let reply := fun (s : State) (l : List Nat) => s.emit (.spdm channel 0 (l.map (fun n => BitVec.ofNat 8 n)))
  let full : Bool := !Table.has s.sec.ide id && decide (65 ≤ s.sec.ide.length)
  let s1 := match b 0 with
    | 0 => (s.emit (.spdm channel 0 (1 :: Config.freeBytes s.free 64))).fresh
    | 2 => if full then reply s [3, 0, 0, id, 3, b 5, b 6]
           else reply (put { x with keys := x.keys.filter (fun k => k.1 != b 5) ++ [(b 5, body.drop 7)] }) [3, 0, 0, id, 0, b 5, b 6]
    | 4 => reply (put { x with going := if x.going.contains (b 5) then x.going else x.going ++ [b 5] }) [6, 0, 0, id, 0, b 5, b 6]
    | 5 => reply (put { x with going := x.going.filter (fun k => k != b 5) }) [6, 0, 0, id, 0, b 5, b 6]
    | _ => s
  let doe : Bool := match channel with | .doe f => s.functionExists f && s.boot.link | _ => false
  .next (s.when (doe && (s.spdmOf channel).session == 2) s1)

end Sys2Proof.Machine
end

