-- ==== Sys2Proof/Machine/Power.lean ====
section
/-! DEFINITION. Power, clocks and heat (ch. 17): governors and duty, the package limit, the lowest state, domains, PLLs, sensors,
energy. What a rail, the package and the sensors measure are operands (log entry 13). -/

set_option linter.unusedVariables false

namespace Sys2Proof.Machine

/-! Alerts (R509). -/

/-- Set or clear a bit of ALERT_CAUSE; ALERT_N is low while any bit is 1 (R509, R585). -/
def State.setAlert (s : State) (b : Nat) (v : Bool) : State :=
  let old := s.regN Reg.alertCause
  let new := if bit old b == v then old else if v then old + 2 ^ b else old - 2 ^ b
  let s := s.setReg Reg.alertCause new
  if old = 0 ∧ new ≠ 0 then s.emit (.pin 0 false) else if old ≠ 0 ∧ new = 0 then s.emit (.pin 0 true) else s

/-! Duty (R498, R499). -/

/-- Limits of a rail in mA: continuous, 50 µs (R497). -/
def railLimits (rail : Nat) : Nat × Nat :=
  if rail < 8 then (320000, 450000) else if rail < 16 then (60000, 90000)
  else match rail with | 16 => (120000, 160000) | 17 => (150000, 180000) | 18 => (20000, 25000) | _ => (30000, 35000)
/-- Clusters whose tiles a rail supplies; rail 20 is the package (R497, R501). -/
def railClusters (rail : Nat) : List Nat :=
  if rail < 8 then [rail] else if rail < 16 then [rail - 8] else if rail = 20 then List.range 8 else []
/-- Tiles whose duty best-effort work on a rail has: pool tiles, and radio tiles for their borrowers (R498, R502). -/
def State.beTiles (s : State) (rail : Nat) : List Nat :=
  (s.parts.flatMap (fun (e : Nat × Part) => if e.1 ≤ 8 then e.2.tiles else [])).filter (fun t => (railClusters rail).contains (clusterOf t))
/-- Tiles of tempo inference partitions on a rail. -/
def State.tempoTiles (s : State) (rail : Nat) : List Nat :=
  (s.parts.flatMap (fun (e : Nat × Part) => if e.1 ≤ 8 then [] else e.2.tiles)).filter (fun t => (railClusters rail).contains (clusterOf t))
/-- Change the duty of tiles. -/
def State.setDuty (s : State) (ts : List Nat) (f : Nat → Nat) : State := ts.foldl (fun s t => s.updTile t (fun u => { u with duty := f u.duty })) s
/-- Every BE and TEMPO tile of a rail is at duty 1/16 or gated, and there is one. -/
def State.railFloor (s : State) (rail : Nat) : Bool :=
  let l := s.beTiles rail ++ s.tempoTiles rail
  !l.isEmpty && l.all (fun t => decide ((s.tile t).duty ≤ 1))
/-- POWER_STATE and the governor's alert follow the duties: THROTTLED while one lies below full or heat lowers the limit. -/
def State.noteDuty (s : State) : State :=
  let slow := (s.beTiles 20 ++ s.tempoTiles 20).any (fun t => decide ((s.tile t).duty < 16)) || s.power.cut != 0
  let s := s.setAlert 4 ((List.range 16).any s.railFloor)
  if s.lowest then s else s.setReg Reg.powerState (if slow then 1 else 0)
/-- Place of a consumer in SHARE_ORDER, 0 the first (R502). -/
def State.sharePlace (s : State) (code : Nat) : Nat := ((List.range 6).find? (fun i => s.regN Reg.shareOrder / 16 ^ (5 - i) % 16 == code)).getD 6
/-- The tiles of a rail that give way last and those that give way first: TEMPO and BE (R499); for the package in the order of SHARE_ORDER
(R502). -/
def State.dutyOrder (s : State) (rail : Nat) : List Nat × List Nat :=
  if rail = 20 ∧ s.sharePlace 6 < s.sharePlace 5 then (s.beTiles rail, s.tempoTiles rail) else (s.tempoTiles rail, s.beTiles rail)
/-- One reduction by 2/16: BE tiles first, TEMPO tiles once every BE tile is at 1/16 (R499). -/
def State.lowerDuty (s : State) (rail : Nat) : State :=
  let high := fun t => decide (1 < (s.tile t).duty)
  let o := s.dutyOrder rail
  s.setDuty (if (o.2.filter high).isEmpty then o.1.filter high else o.2.filter high) (fun d => max 1 (d - 2))
/-- Some tile of the rail has duty to give (R499). -/
def State.railHigh (s : State) (rail : Nat) : Bool := (s.beTiles rail ++ s.tempoTiles rail).any (fun t => decide (1 < (s.tile t).duty))
/-- One raise by 1/16: TEMPO tiles before BE tiles (R499). A gated tile stays gated. -/
def State.raiseDuty (s : State) (rail : Nat) : State :=
  let low := fun t => decide (1 ≤ (s.tile t).duty ∧ (s.tile t).duty < 16)
  let o := s.dutyOrder rail
  s.setDuty (if (o.1.filter low).isEmpty then o.2.filter low else o.1.filter low) (fun d => d + 1)

/-! The package limit (R493, R501, R513). -/

/-- The active limit in W: 2,400 with burst armed and enabled, else POWER_CAP; less what heat takes; at most V_in × 50 A once V_in is
measured. -/
def State.activeLimit (s : State) : Nat :=
  let base := (if !s.power.burstOff && s.reg Reg.burstEnable == 1 then 2400 else s.regN Reg.powerCap) - s.power.cut
  if s.regN Reg.vin = 0 then base else min base (s.regN Reg.vin / 20)

/-- What a measurement of a rail tells its objects (R516). -/
def State.noteRail (s : State) (rail avg1 avg50 : Nat) : State :=
  if rail < 20 then (s.setReg (Reg.railCurrent rail) avg1).setReg (Reg.railMax50us rail) (max (s.regN (Reg.railMax50us rail)) avg50 : Nat) else s

/-- GOVERNOR_REDUCE (R499, R501), once a microsecond on each rail: the 1 µs average above the 50 µs limit, the 50 µs average above 95 % of it, or the 100 ms average
above the continuous limit. Rail 20 is the package, in W, against the active limit. -/
def execGovernorReduce (rail avg1 avg50 avg100 : Nat) (s : State) : Out :=
  let l := railLimits rail
  let hit : Bool := if rail < 20 then decide (l.2 < avg1 ∨ 95 * l.2 < 100 * avg50 ∨ l.1 < avg100) else decide (s.activeLimit < avg1 ∨ s.activeLimit < avg50)
  let s1 := s.noteRail rail avg1 avg50
  let at' := Table.get 0 s.power.reducedAt rail
  let s2 := { s1 with power := { s1.power with reducedAt := Table.put 0 s.power.reducedAt rail (s.time.ticks + 1) } }
  .next (s.when (decide (rail ≤ 20))
    (if hit && (at' == 0 || s.passed (at' - 1) 1000) then ((if rail < 20 ∧ s.railHigh rail = true then s2.bump (Reg.railGovernorActs rail) 1 else s2).lowerDuty rail).noteDuty else s1))

/-- GOVERNOR_RAISE (R499): the 50 µs average below 85 % of its limit; every 10 µs. -/
def execGovernorRaise (rail avg50 : Nat) (s : State) : Out :=
  let low : Bool := if rail < 20 then decide (100 * avg50 < 85 * (railLimits rail).2) else decide (avg50 < s.activeLimit)
  let at' := Table.get 0 s.power.raisedAt rail
  let s0 : State := if rail < 20 then s.setReg (Reg.railMax50us rail) (max (s.regN (Reg.railMax50us rail)) avg50) else s
  let s1 := { s0 with power := { s0.power with raisedAt := Table.put 0 s.power.raisedAt rail (s.time.ticks + 1) } }
  .next (s.when (decide (rail ≤ 20) && low && (at' == 0 || s.passed (at' - 1) 10000)) ((s1.raiseDuty rail).noteDuty))

/-- BURST_DISARM (R501): 10 ms of burst time. -/
def execBurstDisarm (s : State) : Out :=
  .next (s.when (!s.power.burstOff && decide (10000 ≤ s.regN Reg.burstUsed)) { s with power := { s.power with burstOff := true } })
/-- BURST_ARM (R501): the burst time has fallen to 0. -/
def execBurstArm (s : State) : Out :=
  .next (s.when (s.power.burstOff && s.reg Reg.burstUsed == 0) { s with power := { s.power with burstOff := false } })

/-! Rules and effects of this chapter's objects. -/

/-- RADIO_FLOOR (R503): only while every cell is STOPPED. -/
def radioFloorRule (s : State) : Option State :=
  if (List.range 256).any (fun c => s.reg (Reg.cellState c) != 0) then some (s.setReg Reg.powerStatus 16) else none
/-- RAIL_CLEAR (R516). -/
def railClearEffect (s : State) (n : Nat) : State := s.setReg (Reg.railMax50us n) 0

/-! The lowest state (R505 to R508). -/

/-- Entry (R506): BE tasks are asked to leave, a restore in progress is given up; TEMPO inference tiles are gated and their tasks
frozen. Radio goes on. -/
def State.enterLowest (s : State) : State :=
  if s.lowest then s
  else
    let s := ((s.setReg Reg.powerState 2).bump Reg.lowestEntries 1).setAlert 1 true
    let be := List.filter (fun (e : Nat × Tile) => e.2.task != 0 && (s.task (e.2.task - 1)).klass == 1 && (s.task (e.2.task - 1)).radio.isNone && e.2.switching != 1) s.tiles
    let s := be.foldl (fun s (e : Nat × Tile) =>
      if e.2.switching = 2 then (s.updTile e.1 Tile.freed).noteSuspended (e.2.task - 1) else s.updTile e.1 (fun t => { t with preempt := true, next := 0 })) s
    let s := s.setDuty (s.tempoTiles 20) (fun _ => 0)
    { s with tasks := s.tasks.map (fun (e : Nat × Task) => (e.1, if e.2.klass = 0 ∧ e.2.radio.isNone ∧ e.2.status = .running then { e.2 with status := .frozen } else e.2)) }

/-- Exit (R507): every tile goes on at duty 1/16, frozen tasks run again. -/
def State.leaveLowest (s : State) : State :=
  let s := { s with power := { s.power with overLimit := false, hot := false } }
  let s := s.setDuty (s.tempoTiles 20 ++ s.beTiles 20) (fun _ => 1)
  let s := { s with tasks := s.tasks.map (fun (e : Nat × Task) => (e.1, if e.2.status = TaskStatus.frozen then { e.2 with status := .running } else e.2)) }
  ((s.setReg Reg.powerState 1).setAlert 1 false).noteDuty

/-- FORCE_LOWEST takes effect (R505). -/
def forceLowestEffect (s : State) (v : Nat) : State := if v = 1 then s.enterLowest else s

/-- VR_ALERT_N_ASSERT (R505): within 1 µs of the falling edge, with any domain off. -/
def execVrAlertNAssert (s : State) : Out :=
  .next (s.when (!s.power.vrAlert && !s.power.off) ({ s with power := { s.power with vrAlert := true } }).enterLowest)
/-- VR_ALERT_N_DEASSERT (R507). -/
def execVrAlertNDeassert (s : State) : Out :=
  .next (s.when s.power.vrAlert { s with power := { s.power with vrAlert := false, vrClearAt := s.time.ticks + 1 } })
/-- A condition that began at a stored tick, plus 1, has held for a time in ns. -/
def State.held (s : State) (since ns : Nat) : Bool := decide (since ≠ 0) && s.passed (since - 1) ns
/-- OVER_LIMIT_TIMEOUT (R505): every BE and TEMPO tile at 1/16 and the average still above the active limit for 1 ms. -/
def execOverLimitTimeout (s : State) : Out :=
  .next (s.when (!s.lowest && s.held s.power.overSince 1000000) ({ s with power := { s.power with overLimit := true } }).enterLowest)
/-- THERMAL_LIMIT_TIMEOUT (R505, R513): a sensor above 105 °C for 1 ms. -/
def execThermalLimitTimeout (s : State) : Out :=
  .next (s.when (s.held s.power.hotSince 1000000) ({ s with power := { s.power with hot := true } }).enterLowest)
/-- LOWEST_STATE_EXIT (R507): every cause has cleared; the average has stayed at or below 80 % of the active limit for 10 ms. -/
def execLowestStateExit (s : State) : Out :=
  let vr := !s.power.vrAlert && (s.power.vrClearAt == 0 || s.passed (s.power.vrClearAt - 1) 10000000)
  .next (s.when (s.lowest && vr && s.reg Reg.forceLowest == 0 && s.held s.power.calmSince 10000000 && s.held s.power.coolSince 10000000) s.leaveLowest)
/-- The excess of the 1 ms average over POWER_CAP (R508). -/
def State.capExcess (s : State) : Nat := s.regN Reg.pkgPower - s.regN Reg.powerCap
/-- CAP_UNMET_SET (R508): in the lowest state, the average above POWER_CAP for 1 ms. -/
def execCapUnmetSet (s : State) : Out :=
  .next (s.when (s.lowest && s.reg Reg.capUnmet == 0 && s.held s.power.capOverSince 1000000)
    (((s.setReg Reg.capUnmet 1).setReg Reg.capExcess s.capExcess).setAlert 0 true))
/-- CAP_EXCESS_UPDATE (R508). -/
def execCapExcessUpdate (s : State) : Out := .next (s.when (s.reg Reg.capUnmet == 1) (s.setReg Reg.capExcess s.capExcess))
/-- CAP_UNMET_CLEAR (R508): at or below POWER_CAP for 10 ms. -/
def execCapUnmetClear (s : State) : Out :=
  .next (s.when (s.reg Reg.capUnmet == 1 && s.held s.power.capOkSince 10000000) (((s.setReg Reg.capUnmet 0).setReg Reg.capExcess 0).setAlert 0 false))

/-! Domains (R494, R495). -/

/-- A switched domain is on. -/
def State.domain (s : State) (b : Nat) : Bool := bit (s.regN Reg.domainOn) b
/-- What turns on: PX only when enabled, MG only with a mode, none after a trip, an input fault or a failed boot (R491, R494, R514, R559). -/
def State.mayTurnOn (s : State) (b : Nat) : Bool :=
  decide (b < 40) && !s.domain b && !s.power.trip && !s.power.inputOff && !s.power.off && decide (2 ≤ s.reg Reg.startupStage ∧ s.reg Reg.startupStage ≤ 3)
    && (b != 36 || s.reg Reg.pxEnable == 1) && (b != 37 || s.reg Reg.mgMode != 0)
/-- A tile of a cluster that is off is to wake (R58): its request goes before every other (R495). -/
def State.clusterAsked (s : State) : Bool := List.any s.tiles (fun (e : Nat × Tile) => e.2.wakeAt != 0 && !s.domain (clusterOf e.1))
/-- DOMAIN_TURN_ON (R494, R495): one at a time, at least 5 µs apart; a cluster's request goes first. -/
def execDomainTurnOn (b : Nat) (s : State) : Out :=
  .next (s.when (s.mayTurnOn b && (decide (b < 8) || !s.clusterAsked) && (s.power.lastOn == 0 || s.passed (s.power.lastOn - 1) 5000))
    (({ s with power := { s.power with lastOn := s.time.ticks + 1 } }).setDomain b true))
/-- A loaded slot places a GATE node on a cluster. -/
def State.gateOn (s : State) (k : Nat) : Bool :=
  List.any s.models.slots (fun (e : Nat × Slot) => e.2.nodes.any (fun n => n.family == 0x0C) && (s.part (s.regN (Reg.slotPartition e.1))).tiles.any (fun t => clusterOf t == k))
/-- The off condition of a domain (R494). -/
def State.mayTurnOff (s : State) (b : Nat) : Bool :=
  let tiles := (List.range 64).map (fun i => 64 * (b % 8) + i)
  if b < 8 then !s.clusterHolds b 1 63 && tiles.all (fun t => decide (3 ≤ (s.tile t).sleep)) && !s.pllOn b
  else if b < 16 then tiles.all (fun t => decide ((s.tile t).sleep = 4))
  else if b < 24 then (s.clusterCells (b - 16)).isEmpty && !s.gateOn (b - 16)
  else if b < 32 then (List.range 8).all (fun i => s.reg (Reg.portMode (8 * (b - 24) + i)) == 0 && s.reg (Reg.linkMode (8 * (b - 24) + i)) == 0)
  else if b < 36 then s.reg Reg.trainStatus == 16
  else if b = 36 then s.reg Reg.pxEnable == 0
  else if b = 37 then s.reg Reg.mgMode == 0
  else (List.range 38).all (fun i => !s.domain i)
/-- DOMAIN_TURN_OFF (R494). -/
def execDomainTurnOff (b : Nat) (s : State) : Out :=
  let s1 := s.setDomain b false
  .next (s.when (decide (b < 40) && s.domain b && s.mayTurnOff b)
    (if b = 36 ∧ s.boot.link then s1.linkGone else if b = 37 then s1.setReg Reg.mgLink 0 else s1))

/-! Clocks (R511). -/

/-- REFERENCE_LOST: the cleaning PLL goes to HOLDOVER. -/
def execReferenceLost (s : State) : Out := .next (s.when (s.reg Reg.keepingLock == 0) (s.setReg Reg.keepingLock 1))
/-- REFERENCE_RETURN: it reads LOCKED again; a recovered clock needs its port (R45). -/
def execReferenceReturn (s : State) : Out := .next (s.when (s.reg Reg.keepingLock != 0 && s.referenceThere) (s.setReg Reg.keepingLock 0))
/-- PLL_LOCK_LOST: the cluster's tiles stop and each running task has a contained error. -/
def execPllLockLost (cluster : Nat) (s : State) : Out :=
  let tiles := (List.range 64).map (fun i => 64 * cluster + i)
  let ns := ((tiles.map (fun t => (s.tile t).task)).filter (fun n => n != 0)).eraseDups
  let log := fun (s : State) (n : Nat) =>
    (s.logError { klass := 1, unit := 9, code := 6, cluster := cluster, function := (s.task (n - 1)).func, detail := cluster }).containedTask (n - 1)
  let s1 := ns.foldl log s
  let s2 := (tiles.filter (fun t => decide ((s1.tile t).sleep ≤ 1))).foldl (fun s t => s.updTile t (fun u => { u with sleep := 2, asleepAt := s.time.ticks, wakeAt := 0 })) s1
  .next (s.when (decide (cluster < 8) && s.pllOn cluster) (({ s2 with plls := Table.put 0 s2.plls cluster (s.time.ticks + ticksOf 20000) }).setPll cluster false))
/-- PLL_RELOCK: within 20 µs. -/
def execPllRelock (cluster : Nat) (s : State) : Out :=
  .next (s.when (decide (cluster < 8) && !s.pllOn cluster && s.domain cluster) (({ s with plls := Table.put 0 s.plls cluster s.time.ticks }).setPll cluster true))

/-! Heat (R512 to R514). -/

/-- The largest of a list of readings. -/
def hottest (l : List Int) : Int := match l with | [] => 0 | x :: r => r.foldl max x
/-- SENSOR_READ (R505, R507, R509, R512): TJ_MAX in 1/65,536 °C, and since when every sensor is cool or some sensor too hot. -/
def execSensorRead (readings : List Int) (s : State) : Out :=
  let m := hottest readings
  let t : Int := 65536 * s.reg Reg.throttleTemp
  let since := fun (c : Bool) (old : Nat) => if c then (if old = 0 then s.time.ticks + 1 else old) else 0
  let p := { s.power with coolSince := since (decide (m < t)) s.power.coolSince, hotSince := since (decide (105 * 65536 < m)) s.power.hotSince }
  .next (s.when (readings.length == 36) ((({ s with power := p }).setReg Reg.tjMax m).setAlert 2 (decide (t < m))))
/-- THERMAL_THROTTLE_STEP (R513): once a millisecond the active limit falls by 50 W while a sensor is above THROTTLE_TEMP, and rises
by 50 W while every one lies more than 3 °C below. -/
def execThermalThrottleStep (s : State) : Out :=
  let m := s.reg Reg.tjMax
  let t : Int := 65536 * s.reg Reg.throttleTemp
  let p := { s.power with steppedAt := s.time.ticks + 1 }
  let s1 : State := if t < m then
      (let x := { s with power := { p with cut := min 2400 (p.cut + 50), throttling := true } }
       if s.power.throttling then x else x.bump Reg.thermalThrottles 1)
    else if m < t - 3 * 65536 then { s with power := { p with cut := p.cut - 50, throttling := p.throttling && decide (50 < p.cut) } }
    else { s with power := p }
  .next (s.when (s.power.steppedAt == 0 || s.passed (s.power.steppedAt - 1) 1000000) s1.noteDuty)

/-! Energy (R501, R515). -/

/-- Charge microjoules to an account's millijoule counter; 514 is ENERGY_TOTAL. -/
def State.chargeEnergy (s : State) (account uj : Nat) : State :=
  let x := Table.get 0 s.power.energy account + uj
  let s := { s with power := { s.power with energy := Table.put 0 s.power.energy account (x % 1000) } }
  if account = 514 then s.bump Reg.energyTotal (x / 1000) else s.bump (Reg.accCounter account 9) (x / 1000)
/-- Charge shares until the total is used up; the remainder goes to chip overhead. -/
def chargeShares (s : State) (left : Nat) (shares : List (Nat × Nat)) : State :=
  match shares with
  | [] => s.chargeEnergy overheadAccount left
  | e :: r => chargeShares (if e.1 ≤ 512 then s.chargeEnergy e.1 (min left e.2) else s) (if e.1 ≤ 512 then left - min left e.2 else left) r
/-- Runs of burst intervals, cut to those from interval `lo` on. -/
def trimRuns (lo : Nat) (l : List (Nat × Nat)) : List (Nat × Nat) :=
  (l.filter (fun e => decide (lo < e.1 + e.2))).map (fun e => if e.1 < lo then (lo, e.1 + e.2 - lo) else e)
/-- A further burst interval joins the newest run. -/
def addRun (i : Nat) (l : List (Nat × Nat)) : List (Nat × Nat) := match l with | (a, n) :: r => if a + n = i then (a, n + 1) :: r else (i, 1) :: l | [] => [(i, 1)]
/-- The conditions on the 50 µs average whose duration counts (R505, R507, R508). -/
def State.noteAverage (s : State) (avg : Nat) : State :=
  let floor := (s.beTiles 20 ++ s.tempoTiles 20).all (fun t => decide ((s.tile t).duty ≤ 1))
  let since := fun (c : Bool) (old : Nat) => if c then (if old = 0 then s.time.ticks + 1 else old) else 0
  let p := s.power
  { s with power := { p with
    overSince := since (floor && decide (s.activeLimit < avg)) p.overSince, calmSince := since (decide (5 * avg ≤ 4 * s.activeLimit)) p.calmSince
    capOverSince := since (decide (s.regN Reg.powerCap < avg)) p.capOverSince, capOkSince := since (decide (avg ≤ s.regN Reg.powerCap)) p.capOkSince } }
/-- ENERGY_INTEGRATE (R501, R515): the package energy of one microsecond in µJ, which is its power in W, and the shares of functions. -/
def execEnergyIntegrate (total : Nat) (shares : List (Nat × Nat)) (s : State) : Out :=
  let s := (chargeShares s total shares).chargeEnergy 514 total
  let p := s.power
  let samples := (total :: p.samples).take 50
  let avg := samples.sum / samples.length
  let i := p.intervals + 1
  let runs := trimRuns (i - 100000) p.bursts
  let runs := if s.regN Reg.powerCap < avg then addRun i runs else runs
  let full : Bool := p.msCount = 999
  let s1 := { s with power := { p with
    samples := samples, intervals := i, bursts := runs
    msSum := if full then 0 else p.msSum + total, msCount := if full then 0 else p.msCount + 1 } }
  let s2 := s1.setReg Reg.burstUsed (min 100000 (runs.map (fun e => e.2)).sum : Nat)
  let s2 := s2.noteAverage avg
  let s3 := if s.regN Reg.vin = 0 then s2 else s2.setReg Reg.iin (avg * 1000000 / s.regN Reg.vin : Nat)
  .next (if full then s3.setReg Reg.pkgPower ((p.msSum + total) / 1000 : Nat) else s3)

end Sys2Proof.Machine
end

