-- ==== Sys2Proof/Machine/Reset.lean ====
section
/-! DEFINITION. The input supply, the thermal trip, power-on and chip reset (R491, R492, R514, R545 to R549, R554, R556, R557): what
goes when the switched domains turn off, and what each level keeps. -/

set_option linter.unusedVariables false

namespace Sys2Proof.Machine

/-! What goes. -/

/-- Objects that tell of a switched domain, and those that R554 clears at a chip reset. -/
def regDomain (k : Nat) : Bool :=
  [Reg.domainOn, Reg.pllRunning, Reg.mgLink, Reg.fatal, Reg.degraded, Reg.healthScore].contains k
    || (let u := k / 256; decide (0x4000 ≤ u ∧ u ≤ 0x7FFF) || decide (0x2110 ≤ u ∧ u ≤ 0x2114) || decide (0xA000 ≤ u) || decide (u = 0x9050))
/-- The access code of an object's key. -/
def accessOf (k : Nat) : ObjAccess := match findObj (k / 256 % 65536) (k % 256) with | some o => o.acc | none => .rw
/-- Every switched domain is off (R491, R514, R549): tiles, tasks, partitions, memories, the fabric, sync objects, rings, kernels, models,
cells and ports are as after a power-on, the PCI Express link is down and every function DISABLED (R456). -/
def State.switchedOff (s : State) : State :=
  { s with
    time := { s.time with copies := [], captures := [], lastEdge := [], nextPulse := [], linkDelay := [], wordSent := [], wordReceived := [], ptpSent := [],
                          ptpMaster := false }
    dict := { s.dict with
      regs := Table.keep s.dict.regs (fun k _ => !(k ≥ 16777216 || (regDomain k && accessOf k == .ro)))
      blobs := Table.keep s.dict.blobs (fun k _ => !(k ≥ 16777216 || (regDomain k && accessOf k == .ro)))
      windows := [] }
    tiles := [], tasks := [], parts := [], booked := [], admitted := [], plls := [], mem := {}, fabric := {}, sync := {}, rings := [], funcs := []
    kernels := [], models := {}, radio := {}, ports := {}
    power := { s.power with lastOn := 0, raisedAt := [], burstOff := false, cut := 0, throttling := false, overLimit := false, hot := false }
    relia := { s.relia with
      ctBeat := [], ctHung := [], ctCheck := [], ctRestarts := [], recovering := [], resetting := [], promotions := [], switches := [], switching := [], switched := []
      switchLast := 0, copy := none }
    boot := { s.boot with link := false, vfEnable := false, asked := 0, instant := 0 }
    sec := { s.sec with spdm := Table.keep s.sec.spdm (fun k _ => decide (1024 ≤ k)), ide := [] } }

/-- The power state after every domain has turned off: the lowest state stands while its alert does (R507). -/
def State.restPower (s : State) : State := if s.power.vrAlert then s else (s.setReg Reg.powerState 0).setAlert 1 false

/-- A source of time is no longer followed (R495, R549): HOLDOVER and FREERUN are unchanged, the others change as for a lost source. -/
def State.servoStops (s : State) : State :=
  if s.reg Reg.timeState = 3 then { s with time := { s.time with available := false } } else s.sourceGone

/-- The objects of a chip-scope RW or RWP kind read their defaults (R554), but for INCREMENT and SERVO_ENABLE; WINDOW_FUNCTION of every
session too. Writes that wait are gone with them (R463). -/
def State.configDefault (s : State) : State :=
  let keeps := fun (k : Nat) => accessOf k == .ro || k == Reg.increment || k == Reg.servoEnable
  { s with dict := { s.dict with
    regs := Table.keep s.dict.regs (fun k _ => keeps k)
    blobs := Table.keep s.dict.blobs (fun k _ => keeps k)
    writes := []
    sessions := List.map (fun (e : Nat × Session) => (e.1, { e.2 with windowFunction := 0 })) s.dict.sessions } }

/-- Jobs that were not FREE read FAULT_CAUSE 1 after a chip reset (R554). -/
def State.jobsTorn (s old : State) : State :=
  ((List.range 64).filter (fun j => old.reg (Reg.jobState j) != 0)).foldl (fun s j => s.setReg (Reg.jobFaultCause j) 1) s

/-- A debug token takes effect, or an unlock ends, at the instant of a chip reset (R575). -/
def State.debugAtReset (s : State) : State :=
  let on := s.sec.token
  ({ s with sec := { s.sec with unlocked := on, token := false }, dict := { s.dict with vendorOpen := on } }).setReg Reg.debugStatus (if on then 2 else 0)

/-- The chip reset at its instant C (R549, R554): what is switched goes, the configuration reads its defaults, the ROM verifies again. -/
def State.chipReset (s : State) (cause : Nat) : State :=
  let copying : Bool := s.relia.copy.isSome
  let t := ((s.servoStops.switchedOff.configDefault.jobsTorn s).restPower).debugAtReset.rederive
  let t : State := if copying then t.setReg Reg.copyStatus 17 else t
  let t : State := if t.reg Reg.selftestStatus = 1 then t.setReg Reg.selftestStatus 0 else t
  let t : State := if t.reg Reg.fwStatus = 2 then t.setReg Reg.fwStatus 1 else t
  let t : State := { t with boot := { t.boot with from' := t.time.ticks }, power := { t.power with inputOff := false } }
  let t := { t with sec := { t.sec with running := Table.keep t.sec.running (fun k _ => k == 1), advancing := 0 } }
  (t.setReg Reg.startupStage 1).setReg Reg.lastReset cause

/-- Every switched domain turns off and stays off (R491, R514): the device is at its always-on stage. -/
def State.allOff (s : State) : State := (s.servoStops.switchedOff.restPower).setReg Reg.startupStage 0

/-! The input (R491, R492). -/

/-- INPUT_FAULT (R491, R509, R517, R525): below 38.0 V or above 62.0 V for more than 10 µs. An input outside 40 V to 60 V is an alert. -/
def execInputFault (mv : Nat) (s : State) : Out :=
  let s1 := { s with power := { s.power with inputOff := true } }
  .next (s.when (!s.power.off && !s.power.inputOff && decide (mv < 40000 ∨ 60000 < mv))
    (if mv < 38000 ∨ 62000 < mv
     then ((s1.setReg Reg.vin mv).logError { klass := 3, unit := 18, code := 8, cluster := 8, detail := mv }).allOff.setAlert 3 true
     else (s.setReg Reg.vin mv).setAlert 3 true))

/-- INPUT_QUALIFIED (R491, R545, R549): 40 V to 60 V for 100 ms while AON stayed up restarts the device. After a thermal trip the switched
domains stay off (R514). -/
def execInputQualified (mv : Nat) (s : State) : Out :=
  let s1 := (s.setReg Reg.vin mv).setAlert 3 false
  .next (s.when (!s.power.off && decide (40000 ≤ mv ∧ mv ≤ 60000))
    (if !s.power.inputOff then s1
     else if s.power.trip then { s1 with power := { s1.power with inputOff := false } } else s1.chipReset 3))

/-- POWER_LOSS (R469, R470, R492, R554): below 30 V AON stops. The persistent store stays: committed values with the bookkeeping of their
entries, owner keys and counters, the anti-rollback fuses, RETIRED_MAP, the persistent log, BOOT_COUNT, and the firmware banks. -/
def execPowerLoss (s : State) : Out :=
  let kept := fun (k : Nat) => k == Reg.bootCount || k == Reg.ownerNonce || k == Reg.plog
    || (decide (k / 256 = 0x9002) && decide (1 ≤ k % 256 ∧ k % 256 ≤ 4)) || (decide (0x8010 ≤ k / 256 ∧ k / 256 ≤ 0x8017) && k % 256 == 1)
    || decide (0x9010 ≤ k / 256 ∧ k / 256 ≤ 0x9013)
  let fold := fun (e : Nat × Entry) => (e.1, { e.2 with tokens := s.tokensNow e.1, last := 0 })
  let t : State := {
    pending := s.pending, out := s.out, free := s.free, nextTask := s.nextTask
    dict := { store := s.dict.store, entries := List.map fold s.dict.entries
              regs := Table.keep s.dict.regs (fun k _ => kept k), blobs := Table.keep s.dict.blobs (fun k _ => kept k) }
    power := { off := true, trip := s.power.trip }
    relia := { plog := s.relia.plog }
    boot := { perst := s.boot.perst }
    sec := { banks := s.sec.banks, bank := s.sec.bank, ownerSign := s.sec.ownerSign } }
  .next (s.when (!s.power.off) t)

/-- POWER_ON_RESET (R514, R545, R554, R556, R564): the input rises after it fell below 30 V and qualifies. -/
def execPowerOnReset (mv : Nat) (s : State) : Out :=
  let s1 := ({ s with power := {} }).bump Reg.bootCount 1
  let s2 := (s1.setReg Reg.vin mv).rederive
  .next (s.when (s.power.off && decide (40000 ≤ mv ∧ mv ≤ 60000)) (if s.power.trip then s2.emit (.pin 1 true) else s2))

/-- THERMAL_TRIP (R514, R517, R525): a sensor at 115 °C; it stands until a power-on reset. -/
def execThermalTrip (s : State) : Out :=
  let s1 := ({ s with power := { s.power with trip := true } }).emit (.pin 1 false)
  .next (s.when (!s.power.off && !s.power.trip) (s1.logError { klass := 3, unit := 18, code := 10, cluster := 8 }).allOff)

/-! Chip reset requests (R547, R548). -/

/-- A request stops every cell (R548): a move past its commit point finishes first, and 10 ms after its H are awaited; another aborts. -/
def State.askReset (s : State) (cause : Nat) : State :=
  let s := s.liveCells.foldl (fun s c => match (s.cell c).move with | some m => if m.committed then s else s.abortMove c 1 | none => s) s
  let live := s.liveCells
  if live.isEmpty then s.chipReset cause
  else
    let moves := live.filterMap (fun c => (s.cell c).move.map (fun m => m.h + 10000000))
    let from' := moves.foldl max s.nowNs
    let stop := fun c => s.frameFrom c (from' + 1000000)
    let s1 := (live.filter (fun c => !(match (s.cell c).move with | some m => m.source | none => false))).foldl (fun s c =>
      (s.updCell c (fun x => x.await 2 (stop c))).lastSlotBefore c (stop c)) s
    let s2 := (List.range 64).foldl (fun s p => if (s.part p).resize.isSome then s.endResize p 0 else s) s1
    { s2 with
      boot := { s2.boot with asked := cause + 1, instant := ceilDiv ((live.map stop).foldl max 0) 50 + 1 }
      relia := { s2.relia with switches := [] } }

/-- A chip reset may start: no reset of its level or above is pending or in progress (R547). -/
def State.mayReset (s : State) : Bool :=
  decide (s.boot.asked = 0) && (s.reg Reg.startupStage == 3 || s.reg Reg.startupStage == 16) && !s.power.off && !s.power.trip && !s.power.inputOff

/-- RESET_N_ASSERT (R545, R547, R548): held low for at least 10 µs. -/
def execResetNAssert (s : State) : Out := .next (s.when s.mayReset (s.askReset 1))

/-- CHIP_RESET (R547, R548). -/
def chipResetRule (s : State) : Option State := if s.mayReset then none else some (s.setReg Reg.resetStatus 16)
/-- It is accepted. -/
def chipResetEffect (s : State) : State := (s.setReg Reg.resetStatus 1).askReset 2

/-- CHIP_RESET_INSTANT (R549): the instant C of a pending request. -/
def execChipResetInstant (s : State) : Out :=
  .next (s.when (decide (s.boot.asked ≠ 0 ∧ s.boot.instant ≤ s.lnc + 1)) (s.chipReset (s.boot.asked - 1)))

/-! PCI Express (R557, R585). -/

/-- PERST_N_DEASSERT (R557). -/
def execPerstNDeassert (s : State) : Out :=
  .next (s.when s.boot.perst { s with boot := { s.boot with perst := false, perstAt := s.time.ticks } })
/-- PERST_N_ASSERT (R456, R585): takes the link down and resets nothing else. -/
def execPerstNAssert (s : State) : Out :=
  let s1 := { s with boot := { s.boot with perst := true } }
  .next (s.when (!s.boot.perst) (if s.boot.link then s1.linkGone else s1))
/-- PCIE_LINK_UP (R557, R565): with PX on and PERST_N high, training starts 75 ms after P or 72 ms after C at the earliest; never in
recovery. -/
def execPcieLinkUp (s : State) : Out :=
  let lead := if s.reg Reg.lastReset = 0 then 75000000 else 72000000
  .next (s.when (!s.boot.link && !s.boot.perst && s.domain 36 && decide (2 ≤ s.reg Reg.startupStage ∧ s.reg Reg.startupStage ≤ 3)
      && s.passed s.boot.from' lead)
    { s with boot := { s.boot with link := true } })

end Sys2Proof.Machine
end

