-- ==== Sys2Proof/Machine/Reliability.lean ====
section
/-! DEFINITION. Reliability (R369, R370, R517 to R540, R547, R550 to R553): retirement and promotion of tiles, contained, partition and
fatal errors, the chip control cores, health, the state copy, self-test, and the three lower levels of reset. -/

set_option linter.unusedVariables false

namespace Sys2Proof.Machine

/-! Positions (R9, R528, R529). -/

/-- A position is in RETIRED_MAP. -/
def State.isRetired (s : State) (t : Nat) : Bool := bit (s.regN (Reg.clusRetiredMap (clusterOf t))) (t % 64)
/-- A change of HEALTH_LEVEL or DEGRADED updates EVENT_LAST (R535). -/
def State.healthEvent (s : State) : State :=
  s.setBlob Reg.eventLast { lnc := s.lnc, seq := s.relia.logSeq, detail := s.regN Reg.healthLevel + 256 * s.regN Reg.degraded : LogEntry }.bytes
/-- Set DEGRADED. -/
def State.setDegraded (s : State) (v : Nat) : State := if s.reg Reg.degraded = v then s else (s.setReg Reg.degraded v).healthEvent
/-- Positions of a cluster that are fit for use, ascending. -/
def State.usablePositions (s : State) (k : Nat) : List Nat := ((List.range 64).map (fun i => 64 * k + i)).filter (fun t => !s.isRetired t)
/-- Spare positions that remain in a cluster: fit, in no partition, and not chosen by a promotion. -/
def State.spares (s : State) (k : Nat) : List Nat :=
  (s.usablePositions k).filter (fun t => (s.partOf t).isNone && !List.any s.relia.promotions (fun (e : Nat × Promotion) => e.2.spare == t))
/-- Count SPARES_LEFT and DEGRADED afresh (R532, R544). -/
def State.countSpares (s : State) (k : Nat) : State :=
  let s := s.setReg (Reg.clusSparesLeft k) (min 4 (s.spares k).length : Nat)
  if (s.usablePositions k).length < 60 then s.setDegraded 1 else s

/-- A tile is lost to its partition without a spare (R532, R533). -/
def State.loseWithoutSpare (s : State) (p t : Nat) : State :=
  let s := s.removeTile p t
  let s := if 9 ≤ p then s.slotsResized p (s.part p).tiles.length else s
  (if 1 ≤ p ∧ p ≤ 8 then s.takeRadioTile (p - 1) else s).holdCrowded (clusterOf t)
/-- Radio launches on a quarantined tile that have not run run on their standby tiles (R315, R529). -/
def State.standByFor (s : State) (t : Nat) : State :=
  { s with tasks := s.tasks.map (fun (e : Nat × Task) =>
    (e.1, if e.2.radio.isSome ∧ e.2.status = .registered ∧ s.taskTiles e.2 = [t] then { e.2 with status := .waiting, rerunDue := true } else e.2)) }
/-- The task of a tile is aborted, to be run again. -/
def State.abortOn (s : State) (t : Nat) : State := if (s.tile t).task = 0 then s else s.containedTask ((s.tile t).task - 1)
/-- Take a spare for tile `t` of partition `p`, or do without (R529, R532). -/
def State.promote (s : State) (t p unit : Nat) : State :=
  match s.spares (clusterOf t) with
  | [] => (s.loseWithoutSpare p t).logError { klass := 0, unit := unit, code := 13, ptile := some t, cluster := clusterOf t, partition := some p }
  | sp :: _ =>
    let x : Promotion := { spare := sp, doneAt := s.time.ticks + ticksOf 136500, part := p, unit := unit }
    { s with relia := { s.relia with promotions := Table.insert s.relia.promotions t x } }
/-- A tile is retired (R528 to R533): recorded for ever; an active tile is quarantined and promoted; a spare that fails while it takes
over is replaced by the next one (R531). -/
def State.retireTile (s : State) (t unit : Nat) : State :=
  if 512 ≤ t ∨ s.isRetired t then s
  else
    let k := clusterOf t
    let s := s.setReg (Reg.clusRetiredMap k) (s.regN (Reg.clusRetiredMap k) + 2 ^ (t % 64) : Nat)
    let s := match List.find? (fun (e : Nat × Promotion) => e.2.spare == t) s.relia.promotions with
      | some (old, x) => ({ s with relia := { s.relia with promotions := Table.erase s.relia.promotions old } }).promote old x.part unit
      | none => match s.partOf t with
        | some p => ((s.abortOn t).standByFor t).promote t p unit
        | none => s
    s.countSpares k

/-- Errors of a tile within the last 24 h, of the kinds of ReliaState.recent (R528). -/
def State.recentOn (s : State) (t kind : Nat) : Nat :=
  (s.relia.recent.filter (fun e => e.2.1 == t && e.2.2 == kind && decide (s.time.ticks ≤ e.1 + 86400 * Config.ticksPerSecond))).length

/-- PROMOTION_SWITCH (R10, R529, R531): at the first LNC after the copy the spare takes the tile's place with its pages, or, where a resize
has taken the tile from its partition, the promotion is abandoned. -/
def execPromotionSwitch (tile : Nat) (s : State) : Out :=
  match Table.find? s.relia.promotions tile with
  | none => .next s
  | some x =>
    let s0 := { s with relia := { s.relia with promotions := Table.erase s.relia.promotions tile } }
    let t := s.tile tile
    let here : Bool := s.partOf tile == some x.part
    -- a tile's cycle counter counts its own cycles (R52)
    let s1 := (s0.retarget tile x.spare).setTile x.spare { t with tenths := (s.tile x.spare).tenths, sleep := 1, wakeAt := 0, task := 0, live := {}, wait := .none, code := [], switching := 0, preempt := false }
    let s2 := (s1.setTile tile { tenths := t.tenths }).setPart x.part { s1.part x.part with tiles := (s1.part x.part).tiles.map (fun p => if p = tile then x.spare else p) }
    let s3 := { s2 with
      radio := { s2.radio with work := Table.put [] (Table.put [] s2.radio.work tile []) x.spare (Table.get [] s2.radio.work tile) } }
    let s4 := ((s3.moveResidency tile x.spare).setReg (Reg.clusPromotions (clusterOf tile)) ((s3.regN (Reg.clusPromotions (clusterOf tile)) + 1) % 4294967296 : Nat)).logError
      { klass := 0, unit := x.unit, code := 13, ptile := some tile, cluster := clusterOf tile, partition := some x.part }
    let gone := match s0.partOf tile with | some p => (s0.removeTile p tile).slotsResized p ((s0.removeTile p tile).part p).tiles.length | none => s0
    .next (s.when (decide (x.doneAt ≤ s.time.ticks)) ((if here then s4 else gone).countSpares (clusterOf tile)))

/-! Contained errors (R517 to R520, R545, R552). -/

/-- The logic of a tile starts afresh at T1, with its instruction memory empty (R552); its task is handled as after a contained error. -/
def State.resetTile (s : State) (t : Nat) : State :=
  (s.abortOn t).updTile t (fun x => { x.freed with sleep := 1, wakeAt := 0, code := [], streamB := [], streamMv := [] })
/-- A residue or watchdog error (R517, R528, R545): the tile is reset; a second one within 24 h retires it. -/
def State.tileFailed (s : State) (t unit code : Nat) : State :=
  let again : Bool := s.recentOn t 3 != 0
  let s := (s.tileError t 1 unit code 0).resetTile t
  if again then s.retireTile t unit else s

/-- RESIDUE_ERROR (R517): unit 2 the cubes and MV path, 3 the VS. -/
def execResidueError (tile unit : Nat) (s : State) : Out :=
  .next (s.when (decide (tile < 512 ∧ (unit = 2 ∨ unit = 3)) && decide ((s.tile tile).task ≠ 0)) (s.tileFailed tile unit 3))
/-- TILE_WATCHDOG_EXPIRY (R517): nothing retired and no unit progress for TILE_WATCHDOG. -/
def execTileWatchdogExpiry (tile : Nat) (s : State) : Out :=
  .next (s.when (decide (tile < 512) && decide ((s.tile tile).task ≠ 0) && s.passed (s.tile tile).sliceStart (1000 * s.regN Reg.tileWatchdog))
    (s.tileFailed tile 4 4))
/-- TASK_RERUN (R519, R522, R529): once, from its start, after promotion and recovery. -/
def execTaskRerun (task : Nat) (s : State) : Out :=
  let k := s.task task
  let ready := (s.taskTiles k).all (fun t => !Table.has s.relia.promotions t && !Table.has s.relia.recovering (clusterOf t))
  let s1 := if k.inv = 0 then (s.setTask task { k with status := .registered, rerunDue := false }).startRanks task
    else s.restartInv (k.inv - 1)
  .next (s.when (s.hasTask task && k.rerunDue && k.radio.isNone && ready) s1)

/-! Memory errors (R368 to R370, R528). -/

/-- A poisoned GDDR7 page is retired (R369): its data goes to a spare page that takes over its mappings; without a free page it stays. -/
def State.retirePage (s : State) (p : Nat) : State :=
  let q := s.freePage
  if s.mem.retired.contains p ∨ (Table.has s.mem.pages p ∧ s.pagesFree = 0) then s
  else
    let move := fun x => if x = p then q else x
    let owner := Table.get 0 s.mem.pages p
    let m := s.mem
    let m : MemState := if owner = 0 then { m with retired := p :: m.retired } else
      { m with
        gddr := (List.filter (fun (e : Nat × Byte) => e.1 / pageBytes == p) m.gddr).foldl (fun g (e : Nat × Byte) => Table.put 0 g (q * pageBytes + e.1 % pageBytes) e.2)
          (List.filter (fun (e : Nat × Byte) => e.1 / pageBytes != p) m.gddr)
        poison := m.poison.map (fun g => if g / 8192 = p then q * 8192 + g % 8192 else g)
        pages := Table.put 0 (Table.put 0 m.pages p 0) q owner
        maps := List.map (fun (e : Nat × Mapping) => (e.1, match e.2 with | .gddr x r w => .gddr (move x) r w | y => y)) m.maps
        retired := p :: m.retired }
    ({ s with
      mem := m
      models := { s.models with
        slots := List.map (fun (e : Nat × Slot) => (e.1, { e.2 with pages := e.2.pages.map move })) s.models.slots
        handles := List.map (fun (e : Nat × Handle) => (e.1, { e.2 with pages := e.2.pages.map move })) s.models.handles } }).setReg
      Reg.retiredPages (s.regN Reg.retiredPages + 1 : Nat)

/-- A place in MemState.scrubs. -/
def scrubPlace (gddr : Bool) (tile word : Nat) : Nat := if gddr then 4294967296 + word else tile * 8388608 + word
/-- What stands there. -/
def State.scrubContent (s : State) (gddr : Bool) (tile word : Nat) : List Byte := if gddr then s.gddrRead (256 * word) 256 else (s.tile tile).read (8 * word) 8

/-- PATROL_SCRUB (R176, R368 to R370, R528), on no tile in T3 or T4: kind 0 the read finds a correctable error; 1 the write-back, which is discarded where another
write has come between; 2 the word still holds a single-bit error after it, which retires the tile; 3 the word or granule is
uncorrectable and reads poisoned, which retires the page of a granule. The number of a granule is PA / 256. -/
def execPatrolScrub (gddr : Bool) (tile word kind : Nat) (s : State) : Out :=
  let place := scrubPlace gddr tile word
  let now := s.scrubContent gddr tile word
  let forget : State := { s with mem := { s.mem with scrubs := Table.erase s.mem.scrubs place } }
  let dev := if gddr then deviceOf (channelOf s.mem.devices (256 * word)) else 0
  let write := fun (s : State) bs => if gddr then s.gddrWrite (256 * word) bs else s.updTile tile (fun t => t.write (8 * word) bs)
  let s1 := match kind with
    | 0 =>
      let s := { s with mem := { s.mem with scrubs := Table.insert s.mem.scrubs place now } }
      if gddr then (s.bump (Reg.gdevCorrected dev) 1).logError { klass := 0, unit := 10, code := 1, cluster := 9, detail := 256 * word }
      else
        let s := s.tileError tile 0 1 1 (8 * word)
        if s.regN Reg.sramCeLimit < s.recentOn tile 0 then s.retireTile tile 1 else s
    | 1 => (match Table.find? s.mem.scrubs place with | some bs => if bs = now then write forget bs else forget | none => s)
    | 2 => if gddr then s else s.retireTile tile 1
    | 3 => if gddr then (({ s with mem := { s.mem with poison := if s.mem.poison.contains word then s.mem.poison else s.mem.poison ++ [word] } }).bump (Reg.gdevUncorrectable dev) 1).retirePage (256 * word / pageBytes)
           else s.updTile tile (fun t => { t with poison := if t.poison.contains word then t.poison else t.poison ++ [word] })
    | _ => s
  .next (s.when (if gddr then s.reg Reg.trainStatus == 1 && decide (256 * word < s.regN Reg.gddr7DataBytes) else decide (tile < 512 ∧ word < 8388608 ∧ (s.tile tile).sleep < 3)) s1)

/-! Partition and fatal errors (R522, R523), cluster reset (R550). -/

/-- Work of a cluster, radio apart, is aborted and waits for its re-run. -/
def State.abortCluster (s : State) (k : Nat) : State :=
  (List.map (fun (e : Nat × Task) => e.1) (List.filter (fun (e : Nat × Task) => e.2.radio.isNone && (e.2.status == .running || e.2.status == .suspended || e.2.status == .frozen)
    && (s.taskTiles e.2).any (fun t => clusterOf t == k)) s.tasks)).foldl State.containedTask s
/-- The slots of a cluster's cells whose release lies ahead are held with cause 4 (R522). -/
def State.holdCluster (s : State) (k : Nat) : State :=
  (s.clusterCells k).foldl (fun s c =>
    (List.map (fun (e : Nat × SlotWork) => e.1) (s.cell c).slots).foldl (fun s n =>
      if s.nowNs < s.releaseNs c n ∧ s.serves c n then s.holdSlot c n 4 else s) s) s
/-- Recovery of a cluster begins. -/
def State.recoverCluster (s : State) (k : Nat) : State :=
  let s := { s with relia := { s.relia with recovering := Table.insert s.relia.recovering k (s.time.ticks + 1) } }
  (s.abortCluster k).holdCluster k
/-- PARTITION_ERROR (R517, R522): an uncorrectable tag or directory entry; the granules of its modified lines are marked poisoned. -/
def execPartitionError (cluster : Nat) (granules : List Nat) (s : State) : Out :=
  let s1 := s.logError { klass := 2, unit := 6, code := 2, cluster := cluster }
  let s2 := { s1 with mem := { s1.mem with poison := s1.mem.poison ++ granules.filter (fun g => !s1.mem.poison.contains g) } }
  .next (s.when (decide (cluster < 8) && !Table.has s.relia.recovering cluster && s.serving) (s2.recoverCluster cluster))

/-- The cells of a cluster are reset from the first frame boundary at least 1 ms after recovery (R312, R522). A reset that waits and a
HOLD by command stand. -/
def State.resetCells (s : State) (k : Nat) : State :=
  (s.clusterCells k).foldl (fun s c =>
    let x := s.cell c
    if Table.has x.waiting 5 ∨ !(s.cellSt c = 2 ∨ (s.cellSt c = 3 ∧ x.heldBy ≠ 1)) then s
    else s.resetAt c (s.frameFrom c (s.nowNs + 1000000))) s
/-- CLUSTER_RECOVERY_COMPLETE (R522, R550). -/
def execClusterRecoveryComplete (cluster : Nat) (s : State) : Out :=
  let left := s.relia.resetting.filter (fun k => k != cluster)
  let s1 := { s with relia := { s.relia with recovering := Table.erase s.relia.recovering cluster, resetting := left } }
  let s2 : State := if s.relia.resetting.contains cluster ∧ left.isEmpty ∧ s.boot.asked = 0 then s1.setReg Reg.resetStatus 2 else s1
  .next (s.when (Table.has s.relia.recovering cluster) (s2.resetCells cluster))

/-- A fatal error (R523): FATAL keeps the first unit; work that is not radio's is aborted; every job's part is torn down. -/
def State.fatalError (s : State) (unit : Nat) : State :=
  let s := s.logError { klass := 3, unit := unit, code := 2, cluster := 8 }
  if s.reg Reg.fatal ≠ 0 then s
  else
    let s := (s.setReg Reg.fatal unit).abortWhere (fun k => k.radio.isNone)
    (List.range 64).foldl (fun s j => s.tearDown j 1 false) s
/-- CLUSTER_RECOVERY_TIMEOUT (R522): 50 ms after the error. -/
def execClusterRecoveryTimeout (cluster : Nat) (s : State) : Out :=
  let at' := Table.get 0 s.relia.recovering cluster
  .next (s.when (decide (at' ≠ 0) && s.passed (at' - 1) 50000000 && s.reg Reg.fatal == 0) (s.fatalError 6))
/-- FATAL_ERROR (R517, R523): of a unit other than the trip and the input supply, which follow R491 and R514. -/
def execFatalError (unit : Nat) (s : State) : Out :=
  .next (s.when (decide (1 ≤ unit ∧ unit ≤ 17) && !s.power.off) (s.fatalError unit))

/-- CLUSTER_RESET (R547, R550): refused with BUSY while that cluster is reset or switches firmware, with MOVING. -/
def clusterResetRule (s : State) (k : Nat) : Option State :=
  let busy := s.relia.resetting.contains k || Table.has s.relia.switching k
  let r := if s.boot.asked ≠ 0 then 0 else if busy then 16 else if (s.clusterCells k).any (fun c => s.cellSt c == 4) then 17 else 0
  if r = 0 then none else some (s.setReg Reg.resetStatus r)
/-- It starts: tiles that are no radio tile are reset and both conductors restart. Absorbed by a pending chip reset (R547). -/
def clusterResetEffect (s : State) (k : Nat) : State :=
  if s.boot.asked ≠ 0 then s.setReg Reg.resetStatus 1
  else
    let s := { s with relia := { s.relia with resetting := s.relia.resetting ++ [k] } }
    let s := (s.setReg Reg.resetStatus 1).recoverCluster k
    let s := ((List.range 64).map (fun i => 64 * k + i)).foldl (fun s t => if s.isRadio t ∨ (s.partOf t).isNone then s else s.resetTile t) s
    { s with radio := { s.radio with
      hung := s.radio.hung.filter (fun x => x / 2 != k), checks := Table.put 0 (Table.put 0 s.radio.checks (2 * k) 0) (2 * k + 1) 0
      restarts := s.radio.restarts.filter (fun x => x / 2 != k)
      beats := Table.put 0 (Table.put 0 s.radio.beats (2 * k) s.time.ticks) (2 * k + 1) s.time.ticks } }

/-- A cluster reset in progress acts on a tile: radio tiles stand outside its scope (R545, R550). -/
def State.underReset (s : State) (t : Nat) : Bool := s.relia.resetting.contains (clusterOf t) && !s.isRadio t
/-- A reset of a higher level covers every tile of a request, which is absorbed into it (R547). -/
def State.absorbs (s : State) (tiles : List Nat) : Bool := decide (s.boot.asked ≠ 0) || (!tiles.isEmpty && tiles.all s.underReset)
/-- PARTITION_RESET (R547, R551): refused with BUSY while a resize is pending, and where a cluster reset acts on part of the partition. -/
def partitionResetRule (s : State) (p : Nat) : Option State :=
  if !s.absorbs (s.part p).tiles ∧ (s.reg (Reg.partResizeStatus p) = 1 ∨ (s.part p).tiles.any s.underReset) then some (s.setReg Reg.resetStatus 16) else none
/-- It happens: FAULT 14 for what ran, REASON 40 for what waited; SRAM zeroised; state handles discarded. -/
def partitionResetEffect (s : State) (p : Nat) : State :=
  if s.absorbs (s.part p).tiles then s.setReg Reg.resetStatus 1
  else
    let mine := List.filter (fun (e : Nat × Task) => e.2.radio.isNone && e.2.part == p && e.2.status != .ended) s.tasks
    let ran := fun (k : Task) => (k.status == .running || k.status == .suspended || k.status == .frozen) || k.rerunDue
    let s := mine.foldl (fun s (e : Nat × Task) =>
      if ran e.2 then (s.faultTask e.1 14 0).setTask e.1 { (s.faultTask e.1 14 0).task e.1 with saves := [], rerunDue := false }
      else ((s.returnUnits e.1).refuseTask e.1 40).dropInvocation e.2.inv) s
    let s := (s.part p).tiles.foldl (fun s t => s.updTile t (fun x => { x with mem := [], poison := [] })) s
    let hs := List.filter (fun (e : Nat × Handle) => e.1 / 2048 == p) s.models.handles
    let s := hs.foldl (fun s (e : Nat × Handle) => s.freePages e.2.pages) s
    ({ s with models := { s.models with
      handles := Table.keep s.models.handles (fun k _ => k / 2048 != p)
      pinnedOn := Table.keep s.models.pinnedOn (fun t _ => !(s.part p).tiles.contains t), lastSlot := Table.put 0 s.models.lastSlot p 0 } }).setReg
      Reg.resetStatus 2

/-- TILE_RESET (R547, R552): refused with NOT_ACTIVE for a spare or retired position, BUSY while the tile is being promoted. -/
def tileResetRule (s : State) (t : Nat) : Option State :=
  let r := if s.absorbs [t] then 0 else if Table.has s.relia.promotions t then 16 else if (s.partOf t).isNone then 18 else 0
  if r = 0 then none else some (s.setReg Reg.resetStatus r)
/-- It happens. -/
def tileResetEffect (s : State) (t : Nat) : State := if s.absorbs [t] then s.setReg Reg.resetStatus 1 else (s.resetTile t).setReg Reg.resetStatus 2

/-! Chip control cores (R524). -/

/-- CT_HEARTBEAT (R524): every 10 µs, by a core that runs. -/
def execCtHeartbeat (core : Nat) (s : State) : Out :=
  let runs := (!s.relia.ctHung.contains core || Table.has s.relia.ctCheck core) && !s.fwRestarting 8 core && s.domain (38 + core)
  .next (s.when (decide (core < 2) && runs && s.passed (Table.get 0 s.relia.ctBeat core) 10000)
    { s with relia := { s.relia with ctBeat := Table.put 0 s.relia.ctBeat core s.time.ticks } })
/-- CT_HANG (R311, R517, R524): 50 µs without a heartbeat. The slots of its half's cells whose cut-off lies from 20 µs before the hang to
70 µs after it have their orders treated as missing. -/
def execCtHang (core : Nat) (s : State) : Out :=
  let beat := Table.get 0 s.relia.ctBeat core
  let h := s.nsOfTick beat
  let r := { s.relia with ctHung := s.relia.ctHung.filter (fun x => x != core) ++ [core], ctCheck := Table.put 0 s.relia.ctCheck core 0 }
  let s1 := ({ s with relia := r }).logError { klass := 1, unit := 16, code := 7, cluster := 8, detail := core }
  let mine := s.liveCells.filter (fun c => s.cellOwner c % 2 == core)
  let lose := fun (s : State) c => (s.cutBetween c (h - 20000) (h + 70000)).foldl (fun s n =>
    if (s.slotWork c n).released ≠ 0 ∨ (s.slotWork c n).held ≠ 0 then s
    else s.missSlot c n ((if Config.tddDownlink c n then 1 else 0) + (if Config.tddUplink c n then 2 else 0))) s
  .next (s.when (decide (core < 2) && s.serving && (!s.relia.ctHung.contains core || Table.has s.relia.ctCheck core) && !s.fwRestarting 8 core && s.passed beat 50000)
    (mine.foldl lose s1))
/-- CT_SELFCHECK_PASS (R524, R542): a restarted core passes its self-check; with both hung, only when the power controller restarts
them. -/
def execCtSelfcheckPass (core : Nat) (s : State) : Out :=
  let other := s.relia.ctHung.contains (1 - core) && !Table.has s.relia.ctCheck (1 - core)
  let now := Table.put 0 s.relia.ctBeat core s.time.ticks
  let r := { s.relia with ctCheck := Table.put 0 s.relia.ctCheck core (s.lnc + 1), ctRestarts := s.relia.ctRestarts.filter (fun x => x != core), ctBeat := now }
  let s1 := s.fwChecked 8 core
  .next (if decide (core < 2) && s.fwRestarting 8 core then { s1 with relia := { s1.relia with ctBeat := now } }
    else s.when (decide (core < 2) && s.relia.ctHung.contains core && !Table.has s.relia.ctCheck core && (!other || s.relia.ctRestarts.contains core)) { s with relia := r })
/-- CT_HALF_RESUME (R524): at a fetch instant at least 20 ms after the self-check. -/
def execCtHalfResume (core : Nat) (s : State) : Out :=
  let x := Table.get 0 s.relia.ctCheck core
  .next (s.when (s.relia.ctHung.contains core && decide (x ≠ 0 ∧ 50 * (x - 1) + 20000000 ≤ s.nowNs))
    { s with relia := { s.relia with ctHung := s.relia.ctHung.filter (fun y => y != core), ctCheck := Table.put 0 s.relia.ctCheck core 0 } })
/-- CT_DOUBLE_HANG_RESTART (R524): the power controller restarts both. -/
def execCtDoubleHangRestart (s : State) : Out :=
  let hangs := fun x => s.relia.ctHung.contains x && !Table.has s.relia.ctCheck x
  .next (s.when (hangs 0 && hangs 1) { s with relia := { s.relia with ctRestarts := [0, 1] } })

/-! Health (R534, R535, R537). -/

/-- Retired positions of a cluster. -/
def State.retiredCount (s : State) (k : Nat) : Nat := 64 - (s.usablePositions k).length
/-- HEALTH_SCORE by the penalties of R534. -/
def State.healthOf (s : State) : Nat :=
  let day := s.relia.recent.filter (fun e => decide (s.time.ticks ≤ e.1 + 86400 * Config.ticksPerSecond))
  let count := fun (p : Nat → Bool) => (day.filter (fun e => p e.2.2)).length
  let used := ((List.range 8).map (fun k => min 4 (s.retiredCount k))).sum
  let without := ((List.range 8).map (fun k => s.retiredCount k - 4)).sum
  1000 - (25 * used + 100 * without + min 100 (count (fun k => k == 0) / 1000) + min 200 (10 * count (fun k => k == 1 || k == 3))
    + min 100 (s.regN Reg.retiredPages / 16) + min 200 (50 * count (fun k => k == 2)) + 300 * s.mem.failed.length)
/-- HEALTH_LEVEL (R534): worse at once, one level better after an hour above the mark. -/
def State.moveLevel (s : State) (score : Nat) : State :=
  let l := s.regN Reg.healthLevel
  let down := if score < 400 then 2 else if score < 750 then max l 1 else l
  let better := (l = 1 ∧ 800 ≤ score) ∨ (l = 2 ∧ 450 ≤ score)
  let since := fun (n : Nat) => { s with relia := { s.relia with betterSince := n } }
  if l < down then ((since 0).setReg Reg.healthLevel down).healthEvent
  else if !better then since 0
  else if s.relia.betterSince = 0 then since (s.time.ticks + 1)
  else if s.passed (s.relia.betterSince - 1) 3600000000000 then ((since 0).setReg Reg.healthLevel (l - 1 : Nat)).healthEvent
  else s
/-- HEALTH_UPDATE (R534): every 1 s. -/
def execHealthUpdate (s : State) : Out :=
  let due := s.relia.healthAt == 0 || s.passed (s.relia.healthAt - 1) 1000000000
  let r := { s.relia with healthAt := s.time.ticks + 1, recent := s.relia.recent.filter (fun e => decide (s.time.ticks ≤ e.1 + 86400 * Config.ticksPerSecond)) }
  let s1 := ({ s with relia := r }).setReg Reg.healthScore s.healthOf
  .next (s.when (s.serving && due) (s1.moveLevel s.healthOf))
/-- LIVENESS_TICK (R537): every 1 ms while chip control serves; it stops with a double hang. -/
def execLivenessTick (s : State) : Out :=
  let due := s.relia.livenessAt == 0 || s.passed (s.relia.livenessAt - 1) 1000000
  .next (s.when (s.serving && due && decide (s.relia.ctHung.length < 2))
    (({ s with relia := { s.relia with livenessAt := s.time.ticks + 1 } }).bump Reg.liveness 1))

/-! State copy (R538). -/

/-- COPY_START: refused with BUSY while a copy runs, and where the job is not ACTIVE. -/
def copyStartRule (s : State) : Option State :=
  if s.relia.copy.isSome then some (s.setReg Reg.copyStatus 16) else if s.jobState (s.regN Reg.copyJob) ≠ 2 then some s else none
/-- The copy starts. -/
def copyStartEffect (s : State) : State :=
  let x : CopyRun := { job := s.regN Reg.copyJob, rank := s.regN Reg.copyRank, va := s.regN Reg.copyVa, length := s.regN Reg.copyLength }
  ((({ s with relia := { s.relia with copy := some x } }).setReg Reg.copyStatus 1).setReg Reg.copyBytes 0).copyAsk
/-- COPY_DONE: every byte has been written, and COPY_DIGEST covers them; or a fault ends the copy. -/
def execCopyDone (ok : Bool) (s : State) : Out :=
  match s.relia.copy with
  | none => .next s
  | some c =>
    let bs := (s.readLocal ((s.job c.job).bound - 1) (bits c.va 42 0) c.length).getD []
    let done := ((({ s with relia := { s.relia with copy := none } }).setReg Reg.copyStatus 2).setBlob Reg.copyDigest (Config.sha512 bs))
    .next (if ok then s.when (decide (c.written = c.length)) done else s.copyFault c.job)

/-! Self-test (R539). -/

/-- SELFTEST: refused with RADIO_ACTIVE or CONTEXTS_ACTIVE. -/
def selftestRule (s : State) : Option State :=
  if (List.range 256).any (fun c => s.reg (Reg.cellState c) != 0) then some (s.setReg Reg.selftestStatus 16)
  else if (List.range 513).any (fun f => (ctxsOf f).any s.ctxOn) then some (s.setReg Reg.selftestStatus 17)
  else none
/-- The test runs. -/
def selftestEffect (s : State) : State := s.setReg Reg.selftestStatus 1
/-- SELFTEST_DONE (R528, R539): tiles that fail are retired and promoted. -/
def execSelftestDone (failed : List Nat) (s : State) : Out :=
  let bad := failed.filter (fun t => decide (t < 512))
  let s1 := bad.foldl (fun s t => (s.tileError t 1 1 11 0).retireTile t 1) s
  .next (s.when (s.reg Reg.selftestStatus == 1) (s1.setReg Reg.selftestStatus (if bad.isEmpty then 2 else 3)))

end Sys2Proof.Machine
end

