-- ==== Sys2Proof/Machine/Firmware.lean ====
section
/-! DEFINITION. Firmware (R541 to R543, R562 to R566): verification of images, staging, the live switch, the anti-rollback counts. -/

set_option linter.unusedVariables false

namespace Sys2Proof.Machine

/-! Images in bytes (R562). -/

/-- An image from its header of 256 bytes and its body; the digest reads the signatures as zero. -/
def imageOf (head body : List Byte) : FwImage :=
  let w := natOf head
  { magic := bits w 2047 2016, type := bits w 2015 2008, ownerSigned := bit w 2000, svn := bits w 1999 1984, version := bits w 1983 1952
    minCompat := bits w 1951 1920, ownerSlot := bits w 1887 1880, vendorKey := (head.drop 160).take 32, vendorSig := (head.drop 64).take 64
    ownerSig := head.take 64, digest := Config.sha512 (zeros 128 ++ head.drop 128 ++ body) }
/-- The images of a run, each 256-byte aligned; none where the bytes are no run of whole images. -/
def imagesOf (fuel : Nat) (bs : List Byte) : Option (List FwImage) :=
  match fuel with
  | 0 => if bs.isEmpty then some [] else none
  | fuel + 1 =>
    if bs.isEmpty then some []
    else
      let n := bits (natOf (bs.take 256)) 1919 1888
      if bs.length < 256 + n then none
      else (imagesOf fuel (bs.drop (256 + 256 * ceilDiv n 256))).map (fun l => imageOf (bs.take 256) ((bs.drop 256).take n) :: l)
/-- The images of a bundle: at most one of each of the four types, so at most four; empty where the bytes are no bundle. -/
def bundleOf (bs : List Byte) : List FwImage := (imagesOf 4 bs).getD []

/-! Verification (R563). -/

/-- Why an image fails verification: 16 FW_INVALID, 17 FW_ROLLBACK. -/
def State.imageReason (s : State) (i : FwImage) : Option Nat :=
  let key := s.ownerKey i.ownerSlot
  if i.magic ≠ 0x46574B5A ∨ i.type < 1 ∨ 4 < i.type ∨ Config.sha512 i.vendorKey ≠ s.blob Reg.vendorKeyHash
    ∨ !Config.ed25519Verify i.vendorKey i.digest i.vendorSig then some 16
  else if s.sec.ownerSign ∧ !(i.ownerSigned && decide (i.ownerSlot < 4) && !key.isEmpty && Config.ed25519Verify key i.digest i.ownerSig) then some 16
  else if i.svn < s.regN (Reg.rollbackCount (i.type - 1)) then some 17
  else none
/-- Image of a type in a set. -/
def ofType (l : List FwImage) (t : Nat) : Option FwImage := l.find? (fun i => i.type == t)
/-- A whole set that passes (R564). -/
def State.setOk (s : State) (l : List FwImage) : Bool := [1, 2, 3, 4].all (fun t => match ofType l t with | some i => (s.imageReason i).isNone | none => false)
/-- A run of images of distinct types. -/
def bundleOk (l : List FwImage) : Bool := !l.isEmpty && decide ((l.map (fun i => i.type)).Nodup)
/-- The lowest VERSION that runs of an image's type: each cluster has its own of the last two (R562, R573). -/
def State.runs (s : State) (t : Nat) : List FwImage :=
  match t with
  | 1 => (Table.find? s.sec.running 1).toList
  | 2 => (Table.find? s.sec.running 2).toList
  | 3 => (List.range 8).filterMap (fun n => Table.find? s.sec.running (48 + n))
  | _ => (List.range 8).filterMap (fun n => Table.find? s.sec.running (64 + n))
/-- Why a bundle is refused (R541): 18 FW_INCOMPATIBLE where a running version lies below MIN_COMPAT; recovery asks for R563 alone (R565). -/
def State.bundleReason (s : State) (l : List FwImage) : Option Nat :=
  if !bundleOk l then some 16
  else if (l.filterMap s.imageReason).contains 16 then some 16
  else if (l.filterMap s.imageReason).contains 17 then some 17
  else if s.reg Reg.startupStage ≠ 16 ∧ l.any (fun i => (s.runs i.type).any (fun r => decide (r.version < i.minCompat))) then some 18
  else none

/-! Staging (R541, R565, R566). -/

/-- The set with the images of a bundle in it. -/
def mergeSet (old new : List FwImage) : List FwImage := old.filter (fun i => (ofType new i.type).isNone) ++ new
/-- A bank set. -/
def State.bank (s : State) (b : Nat) : List FwImage := Table.get [] s.sec.banks b
/-- VERSION that FW_STAGED shows: that of the CONTROL image, else of the first one. -/
def stagedVersion (l : List FwImage) : Nat := match ofType l 2 with | some i => i.version | none => (l.head?.map (fun i => i.version)).getD 0
/-- A bundle that passes is stored in the inactive bank set; in recovery in both, and the ROM verifies again (R565). -/
def State.stageBundle (s : State) (l : List FwImage) : State :=
  if s.reg Reg.startupStage = 16 then
    ({ s with sec := { s.sec with banks := Table.insert (Table.insert s.sec.banks 0 (mergeSet (s.bank 0) l)) 1 (mergeSet (s.bank 1) l) } }).setReg Reg.startupStage 1
  else
    let b := 1 - s.sec.bank
    ((({ s with
      sec := { s.sec with banks := Table.insert s.sec.banks b (mergeSet (s.bank b) l), staged := l, stagedBank := b }
      relia := { s.relia with switched := [] } }).setReg Reg.fwStaged (stagedVersion l)).setReg Reg.fwStatus 1)
/-- FW_IMAGE: refused with its reason in FW_STATUS. While a switch runs nothing is staged (log entry 61). During an advance it waits. -/
def fwImageRule (s : State) (l : List FwImage) : Option State :=
  if s.reg Reg.fwStatus = 2 then some s
  else if s.sec.advancing ≠ 0 then none
  else (s.bundleReason l).map (fun r => s.setReg Reg.fwStatus r)
/-- It is stored, or waits for the advance (R566). -/
def fwImageEffect (s : State) (l : List FwImage) : State :=
  if s.sec.advancing ≠ 0 then { s with sec := { s.sec with waiting := s.sec.waiting ++ [l] } } else s.stageBundle l
/-- A staged bundle that has not been switched is discarded (R563). -/
def State.dropStaged (s : State) : State :=
  if s.sec.staged.isEmpty ∨ s.reg Reg.fwStatus ≠ 1 then s
  else
    let b := s.sec.stagedBank
    ((({ s with
      sec := { s.sec with staged := [], banks := Table.insert s.sec.banks b ((s.bank b).filter (fun i => !s.sec.staged.contains i)) }
      relia := { s.relia with switches := [] } }).setReg Reg.fwStaged 0).setReg Reg.fwStatus 0)

/-! The live switch (R542, R543). -/

/-- FW_SWITCH_LNC: an LNC ahead, at least 200 ms after the previous one, with a staged bundle. -/
def fwSwitchRule (s : State) (n l : Nat) : Option State :=
  let prev := s.relia.switchLast
  if s.sec.staged.isEmpty ∨ s.reg Reg.fwStatus = 19 ∨ l ≤ s.lnc ∨ (prev ≠ 0 ∧ l < prev - 1 + 4000000) then some s else none
/-- It is scheduled. -/
def fwSwitchEffect (s : State) (n l : Nat) : State :=
  { s with relia := { s.relia with switches := Table.insert s.relia.switches n (l + 1), switchLast := l + 1 } }
/-- FW_SWITCH (R542): at its LNC. -/
def execFwSwitch (n : Nat) (s : State) : Out :=
  let x := Table.get 0 s.relia.switches n
  let r := { s.relia with switches := Table.erase s.relia.switches n, switching := Table.insert s.relia.switching n { checkAt := x - 1 } }
  .next (s.when (decide (n < 9 ∧ x ≠ 0 ∧ x - 1 ≤ s.lnc) && !Table.has s.relia.switching n) (({ s with relia := r }).setReg Reg.fwStatus 2))
/-- Set how far a switch has come. -/
def State.setSwitch (s : State) (n : Nat) (x : FwSwitch) : State := { s with relia := { s.relia with switching := Table.insert s.relia.switching n x } }
/-- The staged image of a type, or what runs under a key. -/
def State.newImage (s : State) (t k : Nat) : Option FwImage := match ofType s.sec.staged t with | some i => some i | none => Table.find? s.sec.running k
/-- Run the staged image of a type under a key. -/
def State.runImage (s : State) (t k : Nat) : State :=
  match s.newImage t k with | some i => { s with sec := { s.sec with running := Table.insert s.sec.running k i } } | none => s
/-- A switch ends DONE (R542, R564, R570): its cluster, or chip control, runs the staged images, and their bank set boots next. -/
def State.switchDone (s : State) (n : Nat) : State :=
  let s := if n = 8 then s.runImage 2 2 else (s.runImage 3 (48 + n)).runImage 4 (64 + n)
  let s := { s with
    relia := { s.relia with switching := Table.erase s.relia.switching n, switched := s.relia.switched.filter (fun x => x != n) ++ [n] }
    sec := { s.sec with bank := s.sec.stagedBank } }
  (s.setReg Reg.fwStatus (if s.relia.switching.isEmpty then 3 else 2)).rederive

/-- FW_CONDUCTOR_PASS (R542): at a frame boundary the cells of a conductor pass to its partner, 1 ms after S, or back, 20 ms after the
self-check; after the last pass the next core restarts, or the switch is done. Chip control switches CT0, then CT1, at fetch instants. -/
def execFwConductorPass (n : Nat) (s : State) : Out :=
  match Table.find? s.relia.switching n with
  | none => .next s
  | some x =>
    let lead := if x.phase = 0 then 1000000 else 20000000
    let after := 50 * x.checkAt + lead
    let cells := if n = 8 then [] else s.clusterCells n
    let target := fun c => if x.phase = 0 then 1 else if x.core = 0 then 0 else (s.cell c).home
    let due := fun c => decide (s.frameFrom c after ≤ s.nowNs)
    let s1 := (cells.filter due).foldl (fun s c => s.setReg (Reg.cellConductor c) (target c : Nat)) s
    let all := if n = 8 then decide (after ≤ s.nowNs) else cells.all due && (!cells.isEmpty || decide (after ≤ s.nowNs))
    let next := if x.phase = 0 then s1.setSwitch n { core := 0, phase := 1 } else if x.core = 0 then s1.setSwitch n { core := 1, phase := 1 } else s1.switchDone n
    .next (s.when (x.phase != 1) (if all then next else s1))

/-- FW_SELFCHECK_FAIL (R543): the core restarts from the old bank; every later switch is cancelled. -/
def execFwSelfcheckFail (n : Nat) (s : State) : Out :=
  match Table.find? s.relia.switching n with
  | none => .next s
  | some x =>
    let r := { s.relia with switches := [], switching := Table.erase s.relia.switching n }
    let s1 := ({ s with relia := r }).setReg Reg.fwStatus 19
    let s2 : State := if n = 8 then { s1 with relia := { s1.relia with ctHung := s1.relia.ctHung ++ [x.core], ctCheck := Table.put 0 s1.relia.ctCheck x.core 0 } }
      else { s1 with radio := { s1.radio with hung := s1.radio.hung ++ [2 * n + x.core], checks := Table.put 0 s1.radio.checks (2 * n + x.core) 0 } }
    .next (s.when (x.phase == 1) s2)

/-! Anti-rollback (R566). -/

/-- The lowest SVN of a type that either bank holds; none where neither holds the type. -/
def State.lowestSvn (s : State) (t : Nat) : Option Nat :=
  match (s.bank 0 ++ s.bank 1).filter (fun i => i.type == t) with
  | [] => none
  | i :: r => some (r.foldl (fun m x => min m x.svn) i.svn)
/-- ROLLBACK_ADVANCE: STAGED_BUSY, NO_ADVANCE; one advance at a time. -/
def rollbackRule (s : State) (t : Nat) : Option State :=
  if s.reg Reg.fwStatus = 1 ∨ s.reg Reg.fwStatus = 2 then some (s.setReg Reg.rollbackStatus 16)
  else if s.sec.advancing ≠ 0 then some s
  else match s.lowestSvn t with
    | some m => if m ≤ s.regN (Reg.rollbackCount (t - 1)) then some (s.setReg Reg.rollbackStatus 17) else none
    | none => some (s.setReg Reg.rollbackStatus 17)
/-- The advance runs. -/
def rollbackEffect (s : State) (t : Nat) : State := { s with sec := { s.sec with advancing := t } }
/-- ROLLBACK_ADVANCE_COMPLETE (R566, R570): the count is raised, waiting bundles are taken, the alias key is derived again. -/
def execRollbackAdvanceComplete (s : State) : Out :=
  let t := s.sec.advancing
  let m := (s.lowestSvn t).getD 0
  let s1 := ({ s with sec := { s.sec with advancing := 0, waiting := [] } }).setReg (Reg.rollbackCount (t - 1)) (min m 256 : Nat)
  let take := fun (s : State) l => match s.bundleReason l with | some r => s.setReg Reg.fwStatus r | none => s.stageBundle l
  .next (s.when (decide (t ≠ 0)) (s.sec.waiting.foldl take (s1.setReg Reg.rollbackStatus 2).rederive))

end Sys2Proof.Machine
end

