-- ==== Sys2Proof/Machine/Security.lean ====
section
/-! DEFINITION. The security root (R565 to R575): owner commands, debug tokens, the derivation of the alias key, SPDM. -/

set_option linter.unusedVariables false

namespace Sys2Proof.Machine

/-! Sessions that a key opened (R489). -/

/-- Set SESSIONS_OPEN. -/
def State.countSessions (s : State) : State := s.setReg Reg.sessionsOpen s.dict.sessions.length
/-- Close a session: its subscriptions, staged writes and SPDM exchange end with it (R488, R489). -/
def State.closeSession (s : State) (k : Nat) : State :=
  ({ s with
    dict := { s.dict with sessions := Table.erase s.dict.sessions k, subs := Table.erase s.dict.subs (1024 + k), stages := Table.erase s.dict.stages (1024 + k) }
    sec := { s.sec with spdm := Table.erase s.sec.spdm (1024 + k), responses := Table.erase s.sec.responses (1024 + k) } }).countSessions
/-- Close the sessions of peers that satisfy `f`. -/
def State.closeWhere (s : State) (f : Session → Bool) : State :=
  (List.map (fun (e : Nat × Session) => e.1) (List.filter (fun (e : Nat × Session) => f e.2) s.dict.sessions)).foldl State.closeSession s

/-! Owner commands (R567, R568). -/

/-- An owner command from its 128 bytes (R567). -/
def ownerOf (bs : List Byte) : OwnerCmd :=
  let w := natOf (bs.take 64)
  { op := bits w 511 504, slot := bits w 503 496, signer := bits w 495 488, nonce := bits w 479 448, serial := (bs.drop 40).take 16
    newKey := (bs.drop 8).take 32, digest := Config.sha512 (bs.take 64), signature := (bs.drop 64).take 64 }
/-- OWNER_STATUS of a command that is refused, in the order of R568 (log entry 12). `pf0`: it was written through the PF0 window. -/
def State.ownerReason (s : State) (c : OwnerCmd) (pf0 : Bool) : Option Nat :=
  let key := s.ownerKey c.signer
  let keys := ((List.range 4).filter (fun k => !(s.ownerKey k).isEmpty)).length
  if c.signer = 255 ∧ !(pf0 && c.op == 1 && !s.owned) then some 20
  else if c.signer ≠ 255 ∧ (4 ≤ c.signer ∨ key.isEmpty ∨ !Config.ed25519Verify key c.digest c.signature) then some 16
  else if c.nonce ≠ s.regN Reg.ownerNonce then some 17
  else if c.serial ≠ s.blob Reg.serial then some 18
  else match c.op with
    | 1 => if 4 ≤ c.slot ∨ c.newKey.length ≠ 32 then some 20 else if !(s.ownerKey c.slot).isEmpty then some 19 else none
    | 2 => if 4 ≤ c.slot then some 20 else if (s.ownerKey c.slot).isEmpty ∨ keys ≤ 1 then some 19 else none
    | 3 => if 1 < c.slot then some 20 else none
    | 4 => none
    | _ => some 20
/-- An OWNER_CMD that is refused. -/
def ownerRule (s : State) (c : OwnerCmd) (pf0 : Bool) : Option State := (s.ownerReason c pf0).map (fun r => s.setReg Reg.ownerStatus r)
/-- RELEASE clears every HDP peer key too (R568); the sessions that they opened close. -/
def State.clearPeers (s : State) : State :=
  let keys := (List.range 16).map (fun k => s.blob (Reg.peerKey k))
  let s := (List.range 16).foldl (fun s k =>
    { s.setBlob (Reg.peerKey k) [] with dict := { (s.setBlob (Reg.peerKey k) []).dict with store := Table.erase s.dict.store (Reg.peerKey k) } }) s
  s.closeWhere (fun x => keys.contains x.peerKey)
/-- An accepted command (R563, R568, R570). -/
def ownerEffect (s : State) (c : OwnerCmd) : State :=
  let s := match c.op with
    | 1 => s.setBlob (Reg.okeyOwnerKey c.slot) c.newKey
    | 2 => s.setBlob (Reg.okeyOwnerKey c.slot) []
    | 3 => { s with sec := { s.sec with ownerSign := decide (c.slot = 1) } }
    | _ => (List.range 4).foldl (fun (s : State) k => s.setBlob (Reg.okeyOwnerKey k) []) ({ s with sec := { s.sec with ownerSign := false } }).clearPeers
  (((s.setReg Reg.ownerNonce ((s.regN Reg.ownerNonce + 1) % 4294967296 : Nat)).setReg Reg.ownerStatus 2).dropStaged).rederive

/-! Debug (R575). -/

/-- A token of 192 bytes is genuine: its SERIAL and BOOT_COUNT, the vendor's signature under the key of the running CONTROL image, the
second one under a present owner key. Where the fields lie in the token is open (log entry 62). -/
def State.tokenOk (s : State) (bs : List Byte) : Bool :=
  let m := Config.sha512 (bs.take 64)
  let vendor := match Table.find? s.sec.running 2 with | some i => i.vendorKey | none => []
  Config.tokenSerial bs == s.blob Reg.serial && Config.tokenBootCount bs == s.regN Reg.bootCount
    && !vendor.isEmpty && Config.ed25519Verify vendor m (Config.tokenVendorSig bs)
    && (List.range 4).any (fun k => !(s.ownerKey k).isEmpty && Config.ed25519Verify (s.ownerKey k) m (Config.tokenOwnerSig bs))
/-- A token is refused with BUSY or BAD_TOKEN. -/
def debugRule (s : State) (bs : List Byte) : Option State :=
  let busy := (List.range 256).any (fun c => s.reg (Reg.cellState c) != 0) || (List.range 513).any (fun f => (ctxsOf f).any s.ctxOn) || !s.mayReset
  if busy then some (s.setReg Reg.debugStatus 16)
  else if s.tokenOk bs then none
  else some (s.setReg Reg.debugStatus 17)
/-- An accepted token takes effect through a chip reset. -/
def debugEffect (s : State) : State := (({ s with sec := { s.sec with token := true } }).setReg Reg.debugStatus 1).askReset 2

/-! SPDM (R571 to R573). Codes and layouts are those of SPDM 1.3 (log entry 60). -/

/-- The function whose blocks a channel returns (R573). -/
def State.spdmFunction (s : State) (c : SpdmChannel) : Nat :=
  match c with
  | .doe 0 => s.windowOf .pf0
  | .doe f => f
  | .window => s.windowOf .pf0
  | .hdp k => match s.session k with | some x => x.windowFunction | none => 0
/-- Channels that stand. -/
def State.channelOpen (s : State) (c : SpdmChannel) : Bool :=
  match c with
  | .doe f => s.boot.link && s.functionExists f
  | .window => s.boot.link && s.serving
  | .hdp k => (s.session k).isSome && s.serving
/-- Set the exchange of a channel. -/
def State.setSpdm (s : State) (c : SpdmChannel) (x : SpdmState) : State := { s with sec := { s.sec with spdm := Table.put {} s.sec.spdm (channelNumber c) x } }
/-- A response leaves: over DOE, or into SPDM_RESPONSE (R572). -/
def State.spdmSend (s : State) (c : SpdmChannel) (code : Nat) (body : List Byte) : State :=
  match c with
  | .doe _ => s.emit (.spdm c code body)
  | _ => { s with sec := { s.sec with responses := Table.put [] s.sec.responses (channelNumber c) (0x13 :: BitVec.ofNat 8 code :: body) } }
/-- ERROR with its code: 1 InvalidRequest, 4 UnexpectedRequest, 6 DecryptError, 7 UnsupportedRequest. -/
def State.spdmError (s : State) (c : SpdmChannel) (e : Nat) : State := s.spdmSend c 0x7F [BitVec.ofNat 8 e, 0]
/-- The certificate chain now (R569). -/
def State.certChain (s : State) : List Byte := Config.certChain s.sec.derivations
/-- A block in DMTF format. -/
def dmtfBlock (index : Nat) (v : List Byte) : List Byte :=
  BitVec.ofNat 8 index :: 1 :: (bytesOf 2 (v.length + 3) ++ (BitVec.ofNat 8 (if v.length = 64 then index % 128 else 128 + index % 128) :: bytesOf 2 v.length) ++ v)
/-- Value of a measurement block for a function (R573). -/
def State.blockFor (s : State) (f i : Nat) : Option (List Byte) :=
  if 1 ≤ i ∧ i ≤ 7 then some (s.measureBlock i)
  else if i = 0x20 then some (s.chain f)
  else if i = 0x21 then some (s.blob (Reg.funcMeasLog f))
  else none
/-- The blocks that a GET_MEASUREMENTS asks for: one, all (0xFF), or none but their number (0). -/
def State.measurements (s : State) (f index : Nat) : Option (List Byte) :=
  if index = 0 then some [9]
  else if index = 0xFF then some ([1, 2, 3, 4, 5, 6, 7, 0x20, 0x21].flatMap (fun i => match s.blockFor f i with | some v => dmtfBlock i v | none => []))
  else (s.blockFor f index).map (dmtfBlock index)
/-- Sign with the alias key (R569). -/
def State.aliasSign (s : State) (m : List Byte) : List Byte := Config.ed25519Sign s.aliasSeed (Config.sha512 m)
/-- The response to a request that an exchange in the right phase answers; `b` is what follows the request's code: param1, param2 and the
rest. A MEASUREMENTS response is signed where bit 0 of param1 asks for it. -/
def State.spdmAnswer (s : State) (c : SpdmChannel) (code : Nat) (b : List Byte) : State :=
  let x := s.spdmOf c
  match code with
  | 0x81 => s.spdmSend c 0x01 (1 :: Config.sha512 s.certChain)
  | 0x82 =>
    let slot := (b.getD 0 0).toNat % 16
    let offset := natOf ((b.drop 2).take 2)
    if slot ≠ 0 ∨ s.certChain.length ≤ offset then s.spdmError c 1
    else
      let part := (s.certChain.drop offset).take (natOf ((b.drop 4).take 2))
      s.spdmSend c 0x02 (0 :: 0 :: (bytesOf 2 part.length ++ bytesOf 2 (s.certChain.length - offset - part.length) ++ part))
  | 0x83 =>
    let r := Config.sha512 s.certChain ++ Config.freeBytes s.free 32
    (s.spdmSend c 0x03 (r ++ s.aliasSign (b ++ r))).fresh
  | 0xE0 => (match s.measurements (s.spdmFunction c) (b.getD 1 0).toNat with
    | some m =>
      let r := m ++ Config.freeBytes s.free 32
      (s.spdmSend c 0x60 (if (b.getD 0 0).toNat % 2 = 1 then r ++ s.aliasSign (b ++ r) else m)).fresh
    | none => s.spdmError c 1)
  | 0xE4 =>
    let r := Config.freeBytes s.free 128
    ((s.setSpdm c { x with session := 1 }).spdmSend c 0x64 (r ++ s.aliasSign (b ++ r))).fresh
  | _ => s
/-- Requests whose answers carry blocks 2 to 6 or an alias signature; these wait for a derivation in progress (R570). -/
def spdmCarries (code : Nat) : Bool := [0x82, 0x83, 0xE0, 0xE4].contains code
/-- The requests that are answered (R571). -/
def spdmCodes : List Nat := [0x84, 0xE1, 0xE3, 0x81, 0x82, 0x83, 0xE0, 0xE4, 0xE5, 0xE9, 0xE8, 0xEC]
/-- A request (R571): the handshake in its order, then the others; every other code is UnsupportedRequest. -/
def State.spdmRequest (s : State) (c : SpdmChannel) (code : Nat) (b : List Byte) : State :=
  let x := s.spdmOf c
  if !spdmCodes.contains code then s.spdmError c 7
  else match code with
  | 0x84 => (s.setSpdm c { x with phase := 1 }).spdmSend c 0x04 [0, 1, 0, 0x13]
  | 0xE1 => if x.phase ≠ 1 then s.spdmError c 4 else ((s.setSpdm c { x with phase := 2 }).spdmSend c 0x61 (Config.freeBytes s.free 16)).fresh
  | 0xE3 => if x.phase ≠ 2 then s.spdmError c 4 else ((s.setSpdm c { x with phase := 3 }).spdmSend c 0x63 (Config.freeBytes s.free 48)).fresh
  | 0xE5 =>
    if x.session ≠ 1 then s.spdmError c 4
    else if Config.spdmFinishOk s.free b then ((s.setSpdm c { x with session := 2 }).spdmSend c 0x65 []).fresh
    else ((s.setSpdm c { x with session := 0 }).spdmError c 6).fresh
  | 0xE9 => if x.session ≠ 2 then s.spdmError c 4 else s.spdmSend c 0x69 (b.take 2)
  | 0xE8 => if x.session ≠ 2 then s.spdmError c 4 else s.spdmSend c 0x68 []
  | 0xEC => if x.session ≠ 2 then s.spdmError c 4 else (s.setSpdm c { x with session := 0 }).spdmSend c 0x6C []
  | _ =>
    if x.phase ≠ 3 then s.spdmError c 4
    else if s.sec.deriving' && spdmCarries code then { s with sec := { s.sec with held := s.sec.held ++ [(c, code, b)] } }
    else s.spdmAnswer c code b
/-- A request on a channel that stands. -/
def State.spdmRow (s : State) (c : SpdmChannel) (code : Nat) (b : List Byte) : Out := .next (s.when (s.channelOpen c) (s.spdmRequest c code b))

/-- GET_VERSION (R571). -/
def execGetVersion (ch : SpdmChannel) (body : List Byte) (s : State) : Out := s.spdmRow ch 0x84 body
/-- GET_CAPABILITIES (R571). -/
def execGetCapabilities (ch : SpdmChannel) (body : List Byte) (s : State) : Out := s.spdmRow ch 0xE1 body
/-- NEGOTIATE_ALGORITHMS (R571). -/
def execNegotiateAlgorithms (ch : SpdmChannel) (body : List Byte) (s : State) : Out := s.spdmRow ch 0xE3 body
/-- GET_DIGESTS (R570, R571). -/
def execGetDigests (ch : SpdmChannel) (body : List Byte) (s : State) : Out := s.spdmRow ch 0x81 body
/-- GET_CERTIFICATE (R571): slot 0 alone holds a chain. -/
def execGetCertificate (ch : SpdmChannel) (body : List Byte) (s : State) : Out := s.spdmRow ch 0x82 body
/-- CHALLENGE (R571). -/
def execChallenge (ch : SpdmChannel) (body : List Byte) (s : State) : Out := s.spdmRow ch 0x83 body
/-- GET_MEASUREMENTS (R573), of the function that the channel shows. -/
def execGetMeasurements (ch : SpdmChannel) (body : List Byte) (s : State) : Out := s.spdmRow ch 0xE0 body
/-- KEY_EXCHANGE (R571). -/
def execKeyExchange (ch : SpdmChannel) (body : List Byte) (s : State) : Out := s.spdmRow ch 0xE4 body
/-- FINISH (R571): whether its HMAC verifies is free (log entry 60). -/
def execFinish (ch : SpdmChannel) (body : List Byte) (s : State) : Out := s.spdmRow ch 0xE5 body
/-- KEY_UPDATE (R571). -/
def execKeyUpdate (ch : SpdmChannel) (body : List Byte) (s : State) : Out := s.spdmRow ch 0xE9 body
/-- HEARTBEAT (R571). -/
def execSpdmHeartbeat (ch : SpdmChannel) (body : List Byte) (s : State) : Out := s.spdmRow ch 0xE8 body
/-- END_SESSION (R571). -/
def execEndSession (ch : SpdmChannel) (body : List Byte) (s : State) : Out := s.spdmRow ch 0xEC body
/-- Any request of another code (R571); a code with a row of its own meets this row nowhere. -/
def execSpdmUnsupportedRequest (ch : SpdmChannel) (code : Nat) (body : List Byte) (s : State) : Out :=
  if spdmCodes.contains code then .next s else s.spdmRow ch code body

end Sys2Proof.Machine
end

