-- ==== Sys2Proof/Machine/Rules.lean ====
section
/-! DEFINITION. The rules that objects have of their own (R467 steps 3 and 5): ranges of opaque blocks, and for each object what
refuses a write. A refusal may leave its reason in a status object. -/

set_option linter.unusedVariables false

namespace Sys2Proof.Machine

/-! The opening book's script (R476). -/

/-- Items of a BOOK_SCRIPT: index, subindex, type code, value; none where they do not tile it exactly. -/
def bookItems (fuel : Nat) (bs : List Byte) : Option (List (Nat × Nat × Nat × List Byte)) :=
  match fuel with
  | 0 => if bs.isEmpty then some [] else none
  | fuel + 1 =>
    if bs.isEmpty then some []
    else
      let h := natOf (bs.take 8)
      let n := bits h 31 0
      let size := 8 + 8 * ceilDiv n 8
      if bs.length < size then none
      else (bookItems fuel (bs.drop size)).map (fun r => (bits h 63 48, bits h 47 40, bits h 39 32, (bs.drop 8).take n) :: r)
/-- An item that a script may not hold: a WO, RWP, per-function or 0x9000-range object. -/
def scriptBad (e : Nat × Nat × Nat × List Byte) : Bool :=
  (match findObj e.1 e.2.1 with | some o => o.acc == .wo || o.acc == .rwp | none => false)
    || decide (0xB000 ≤ e.1 ∧ e.1 ≤ 0xBFFF) || decide (0x9000 ≤ e.1 ∧ e.1 ≤ 0x9FFF)
/-- A value in its type (R461). -/
def ObjType.decode (t : ObjType) (bs : List Byte) : WData := if t.isBytes then .bytes bs else .num bs.length (natOf bs)

/-- Step 3 of R467 for opaque blocks: a bad BOOK_SCRIPT, host flow (R354) or peer key. -/
def State.blockBad (s : State) (u sub : Nat) (bs : List Byte) : Bool :=
  if u = 0x1040 ∧ sub = 0 then (match bookItems bs.length bs with | none => true | some l => l.any scriptBad)
  else if 0x6200 ≤ u ∧ u ≤ 0x62FF ∧ sub = 0 then s.flowBad bs
  else if 0x9100 ≤ u ∧ u ≤ 0x910F ∧ sub = 0 then bs.length != 32 && !bs.isEmpty
  else false

/-! Rules. -/

/-- Lanes of a link mode (R377). -/
def linkLanes (mode : Nat) : Nat := match mode with | 0 => 0 | 1 => 1 | 2 => 2 | 3 => 4 | 4 => 8 | 5 => 1 | 6 => 2 | _ => 4
/-- The link is the only path of an admitted job or of a cell move. -/
def State.linkNeeded (s : State) (l : Nat) : Bool :=
  let only := fun n => n != s.node && s.paths n == [l]
  (List.range 64).any (fun j => s.jobState j != 0 && (s.jobNodes j).any only)
    || s.liveCells.any (fun c => match (s.cell c).move with | some m => only m.peer | none => false)
/-- LINK_MODE: the reason that refuses it (R377). A link whose lanes meet another's breaks the placement rule. -/
def State.linkReason (s : State) (l v : Nat) : Option Nat :=
  let n := linkLanes v
  if v ≠ 0 ∧ (l % n ≠ 0 ∨ (List.range 64).any (fun q => q != l && s.reg (Reg.linkMode q) != 0 && lanesMeet l n q (linkLanes (s.regN (Reg.linkMode q))))) then some 16
  else if v ≠ 0 ∧ (List.range n).any (fun i => !bit (s.regN Reg.laneGroups) ((l + i) / 8)) then some 18
  else if s.reg (Reg.linkMode l) ≠ 0 ∧ s.linkNeeded l then some 17
  else none
/-- See linkReason. -/
def linkModeRule (s : State) (l v : Nat) : Option State := (s.linkReason l v).map (fun r => s.setReg (Reg.linkStatus l) r)

/-- TDISP (R457): PF0 may not change the RING_BASE, PASIDs, quotas or partition ownership of a locked VF; v is the new owner. -/
def State.tdiRefuses (s : State) (a : Accessor) (u sub f v : Nat) : Bool :=
  a == .pf0 &&
    (if 0x4100 ≤ u ∧ u ≤ 0x413F ∧ sub = 1 then s.tdiLocked (s.regN (Reg.partOwner (u - 0x4100))) || s.tdiLocked v
     else if 0x4A00 ≤ u ∧ u ≤ 0x4C00 ∧ sub = 0 then s.tdiLocked (u - 0x4A00)
     else if 0x7800 ≤ u ∧ u ≤ 0x7A00 ∧ sub = 0 then s.tdiLocked (u - 0x7800)
     else if 0xB100 ≤ u ∧ u ≤ 0xB13F ∧ sub = 0 then s.tdiLocked f
     else if 0xB200 ≤ u ∧ u ≤ 0xB20F ∧ sub = 2 then s.tdiLocked f
     else false)

/-- Rules of time, partitions, accounts, modes and power. -/
def State.ruleLow (s : State) (u sub v lnc : Nat) (d : Int) : Option State :=
  if u = 0x2003 ∧ sub = 0 then incrementRule s
  else if u = 0x2003 ∧ sub = 4 then stepRequestRule s d
  else if 0x2100 ≤ u ∧ u ≤ 0x2107 ∧ sub = 1 then ttPeriodRule s (u - 0x2100) v lnc
  else if 0x2100 ≤ u ∧ u ≤ 0x2107 ∧ sub = 4 then ttArmRule s (u - 0x2100) v lnc
  else if u = 0x3000 ∧ sub = 2 then radioFloorRule s
  else if u = 0x4010 ∧ sub = 0 then determinismRule s v
  else if 0x4100 ≤ u ∧ u ≤ 0x413F then
    (match sub with
     | 4 => resizeTilesRule s (u - 0x4100)
     | 5 => resizeLncRule s (u - 0x4100) v
     | 0xA => swapShareRule s (u - 0x4100) v
     | 0xB => cacheWaysRule s (u - 0x4100) v
     | _ => none)
  else if 0xA000 ≤ u ∧ u ≤ 0xA200 ∧ sub = 0xA then snapRule s (u - 0xA000) v
  else none
/-- Rules of cells, ports, memory and the fabric. -/
def State.ruleMid (s : State) (u sub v lnc : Nat) (bs : List Byte) (i : WInfo) : Option State :=
  if 0x5400 ≤ u ∧ u ≤ 0x54FF then
    (let c := u - 0x5400
     if 1 ≤ sub ∧ sub ≤ 0xD then cellConfigRule s c
     else if sub = 0x10 then cellCmdRule s c v i.peerMatches
     else if sub = 0x14 then holdSourceRule s c bs i.encoded
     else none)
  else if 0x6100 ≤ u ∧ u ≤ 0x61FF then cellConfigRule s (u - 0x6100)
  else if 0x6000 ≤ u ∧ u ≤ 0x603F ∧ sub = 0 then portModeRule s (u - 0x6000) v
  else if u = 0x6040 then laneGroupsRule s v
  else if 0x7010 ≤ u ∧ u ≤ 0x701F ∧ sub = 3 then retrainRule s (u - 0x7010)
  else if u = 0x7301 ∧ sub = 1 then readmitRule s v
  else if 0x7320 ≤ u ∧ u ≤ 0x735F ∧ sub = 0 then linkModeRule s (u - 0x7320) v
  else if 0x7400 ≤ u ∧ u ≤ 0x743F then
    (if sub ≤ 5 ∧ s.jobState (u - 0x7400) ≠ 0 then some s
     else if sub = 6 then jobApplyRule s (u - 0x7400)
     else none)
  else none
/-- Rules of reliability, reset and the security root. -/
def State.ruleHigh (s : State) (a : Accessor) (u sub v : Nat) (bs : List Byte) : Option State :=
  if u = 0x8200 ∧ sub = 4 then (if v = 1 then copyStartRule s else none)
  else if u = 0x8300 ∧ sub = 0 then (if v = 1 then selftestRule s else none)
  else if u = 0x8400 ∧ sub = 0 then fwImageRule s (bundleOf bs)
  else if 0x8410 ≤ u ∧ u ≤ 0x8418 then fwSwitchRule s (u - 0x8410) v
  else if u = 0x8500 ∧ sub = 1 then chipResetRule s
  else if u = 0x8500 ∧ sub = 2 then clusterResetRule s v
  else if u = 0x8500 ∧ sub = 3 then partitionResetRule s v
  else if u = 0x8500 ∧ sub = 4 then tileResetRule s v
  else if u = 0x9002 ∧ sub = 0 then rollbackRule s v
  else if u = 0x9020 ∧ sub = 0 then ownerRule s (ownerOf bs) (a == .pf0)
  else if u = 0x9030 ∧ sub = 0 then debugRule s bs
  else none
/-- Rules of the function window. -/
def State.ruleWindow (s : State) (u sub f v : Nat) : Option State :=
  if u = 0xB000 ∧ sub = 1 then functionEnableRule s f v
  else if 0xB100 ≤ u ∧ u ≤ 0xB13F then ringRule s f (u - 0xB100) sub v
  else if 0xB200 ≤ u ∧ u ≤ 0xB20F then (if sub = 0 then ctxEnableRule s f v else ctxFieldRule s (16 * f + (u - 0xB200)))
  else none
/-- Step 5 of R467: none accepts the write, some gives the state that a refusal leaves. -/
def State.ownRule (s : State) (a : Accessor) (u sub f lnc : Nat) (d : WData) (i : WInfo) : Option State :=
  let x : Int := match d with | .num _ x => x | .bytes _ => 0
  let v := x.toNat
  let bs := match d with | .bytes bs => bs | .num _ _ => []
  if s.tdiRefuses a u sub f v then some s
  else if u < 0x5000 ∨ (0xA000 ≤ u ∧ u ≤ 0xAFFF) then s.ruleLow u sub v lnc x
  else if u < 0x8000 then s.ruleMid u sub v lnc bs i
  else if u < 0xA000 then s.ruleHigh a u sub v bs
  else s.ruleWindow u sub f v

end Sys2Proof.Machine
end

