-- ==== Sys2Proof/Machine/Effects.lean ====
section
/-! DEFINITION. What a dictionary write does when it takes effect (R23), beside the new value of its object. -/

set_option linter.unusedVariables false

namespace Sys2Proof.Machine

/-- LINK_MODE takes effect (R377): the link starts afresh and trains, or is down. -/
def linkModeEffect (s : State) (l v : Nat) : State := (s.setLink l (s.link l).cleared).setLinkUp l (if v = 0 then 0 else 1)
/-- A change of MG_MODE or MG_IPV4 closes every session (R489). -/
def State.closeAll (s : State) : State :=
  let s := s.closeWhere (fun _ => true)
  { s with dict := { s.dict with handshakes := [] } }
/-- MG_MODE takes effect: the field port starts afresh. -/
def mgModeEffect (s : State) (old v : Nat) : State := if old = v then s else s.closeAll.setReg Reg.mgLink 0
/-- MG_IPV4 takes effect. -/
def mgIpv4Effect (s : State) (old v : Nat) : State := if old = v then s else s.closeAll
/-- PEER_KEY or PEER_ROLE takes effect (R489): the sessions opened with that key close. -/
def peerEffect (s : State) (key : List Byte) : State := s.closeWhere (fun x => x.peerKey == key)
/-- TIME_SOURCE takes effect (R31, R40). -/
def timeSourceEffect (s : State) (old v : Nat) : State := if old = v then s else s.selectSource v
/-- FREQ_SOURCE or SYNCE_PORT takes effect (R45, R511): a recovered clock that is not there is a lost reference. -/
def freqEffect (s : State) : State := if s.referenceThere then s else s.setReg Reg.keepingLock 1
/-- PPS_TOD (R593). -/
def ppsTodEffect (s : State) (v : Nat) : State := { s with time := { s.time with ppsTod := some v } }
/-- INCREMENT (R27): from the next tick on. -/
def incrementEffect (s : State) (v : Nat) : State := { s with time := { s.time with incNext := some v } }

/-- Effects of time, power, partitions and accounts. -/
def State.effectLow (s : State) (u sub old v : Nat) (d : Int) : State :=
  if u = 0x1001 ∧ sub = 0 then mgModeEffect s old v
  else if u = 0x1001 ∧ sub = 2 then mgIpv4Effect s old v
  else if u = 0x2002 then (match sub with
    | 0 => timeSourceEffect s old v
    | 1 => if old = v then s else s.ptpForget
    | 2 => freqEffect s
    | 3 => freqEffect s
    | _ => s)
  else if u = 0x2005 ∧ sub = 0 then (if old = v then s else s.ptpForget)
  else if u = 0x2003 ∧ sub = 0 then incrementEffect s v
  else if u = 0x2003 ∧ sub = 4 then s.applyStep d
  else if u = 0x2006 ∧ sub = 0 then ppsTodEffect s v
  else if 0x2100 ≤ u ∧ u ≤ 0x2107 ∧ sub = 4 then ttArmEffect s (u - 0x2100) v
  else if u = 0x3000 ∧ sub = 6 then forceLowestEffect s v
  else if 0x3100 ≤ u ∧ u ≤ 0x3113 ∧ sub = 3 then (if v = 1 then railClearEffect s (u - 0x3100) else s)
  else if 0x4100 ≤ u ∧ u ≤ 0x413F then
    (match sub with
     | 4 => resizeTilesEffect s (u - 0x4100) v
     | 5 => resizeLncEffect s (u - 0x4100) v
     | 7 => consentEffect s (u - 0x4100) v
     | _ => s)
  else if 0xA000 ≤ u ∧ u ≤ 0xA200 ∧ sub = 0xA then snapEffect s (u - 0xA000) v
  else s
/-- Effects of cells, ports, memory and the fabric. -/
def State.effectMid (s : State) (u sub old v lnc : Nat) (bs : List Byte) : State :=
  if 0x5400 ≤ u ∧ u ≤ 0x54FF then
    (if sub = 0x10 then cellCmdEffect s (u - 0x5400) v else if sub = 0x14 then holdSourceEffect s (u - 0x5400) bs else s)
  else if 0x6000 ≤ u ∧ u ≤ 0x603F ∧ sub = 0 then portModeEffect s (u - 0x6000) v
  else if u = 0x6040 then laneGroupsEffect s old v
  else if 0x6200 ≤ u ∧ u ≤ 0x62FF ∧ sub = 0 then flowEffect s (u - 0x6200)
  else if 0x6400 ≤ u ∧ u ≤ 0x67FF ∧ sub = 0x24 then telClearEffect s (u - 0x6400) v
  else if 0x7010 ≤ u ∧ u ≤ 0x701F ∧ sub = 3 then retrainEffect s (u - 0x7010) v
  else if u = 0x7300 ∧ sub = 1 then (if old = v then s else s.hearQuad)
  else if u = 0x7301 ∧ sub = 1 then readmitEffect s v
  else if 0x7320 ≤ u ∧ u ≤ 0x735F ∧ sub = 0 then linkModeEffect s (u - 0x7320) v
  else if 0x7400 ≤ u ∧ u ≤ 0x743F then
    (match sub with
     | 6 => jobApplyEffect s (u - 0x7400) v
     | 8 => if v = 1 then s.tearDown (u - 0x7400) (s.regN (Reg.jobFaultCause (u - 0x7400))) false else s
     | 0xB => if v = 1 then ncroDropEffect s (u - 0x7400) else s
     | _ => s)
  else s
/-- Effects of reliability, reset and the security root. -/
def State.effectHigh (s : State) (holder u sub v : Nat) (oldBytes bs : List Byte) : State :=
  if u = 0x8200 ∧ sub = 4 then (if v = 1 then copyStartEffect s else s)
  else if u = 0x8300 ∧ sub = 0 then (if v = 1 then selftestEffect s else s)
  else if u = 0x8400 ∧ sub = 0 then fwImageEffect s (bundleOf bs)
  else if 0x8410 ≤ u ∧ u ≤ 0x8418 then fwSwitchEffect s (u - 0x8410) v
  else if u = 0x8500 ∧ sub = 1 then chipResetEffect s
  else if u = 0x8500 ∧ sub = 2 then clusterResetEffect s v
  else if u = 0x8500 ∧ sub = 3 then partitionResetEffect s v
  else if u = 0x8500 ∧ sub = 4 then tileResetEffect s v
  else if u = 0x9002 ∧ sub = 0 then rollbackEffect s v
  else if u = 0x9020 ∧ sub = 0 then ownerEffect s (ownerOf bs)
  else if u = 0x9030 ∧ sub = 0 then debugEffect s
  else if u = 0x9040 ∧ sub = 0 then
    (let c : SpdmChannel := if 1024 ≤ holder then .hdp (holder - 1024) else .window
     -- SPDM 1.3 puts the request code in byte 1 (log entry 60)
     s.spdmRequest c (bs.getD 1 0).toNat (bs.drop 2))
  else if 0x9100 ≤ u ∧ u ≤ 0x910F then peerEffect s (if sub = 0 then oldBytes else s.blob (Reg.peerKey (u - 0x9100)))
  else s
/-- Effects of the function window. -/
def State.effectWindow (s : State) (u sub f old v : Nat) : State :=
  if u = 0xB000 ∧ sub = 1 then functionEnableEffect s f v
  else if 0xB100 ≤ u ∧ u ≤ 0xB13F ∧ sub = 2 then ringKindEffect s f (u - 0xB100)
  else if 0xB200 ≤ u ∧ u ≤ 0xB20F ∧ sub = 0 then ctxEnableEffect s (16 * f + (u - 0xB200)) old v
  else s
/-- What a write of a number does when it takes effect. -/
def State.effectNum (s : State) (holder u sub f old : Nat) (v : Int) (lnc : Nat) : State :=
  if u < 0x5000 ∨ (0xA000 ≤ u ∧ u ≤ 0xAFFF) then s.effectLow u sub old v.toNat v
  else if u < 0x8000 then s.effectMid u sub old v.toNat lnc []
  else if u < 0xA000 then s.effectHigh holder u sub v.toNat [] []
  else s.effectWindow u sub f old v.toNat
/-- What a write of a block does when it takes effect. -/
def State.effectBytes (s : State) (holder u sub : Nat) (old bs : List Byte) (lnc : Nat) : State :=
  if u < 0x8000 then s.effectMid u sub 0 0 lnc bs else if u < 0xA000 then s.effectHigh holder u sub 0 old bs else s

/-- Objects whose rule looks at the LNC they name, or whose commit has been made: their rule is checked at acceptance only. -/
def checkedOnce (u sub : Nat) : Bool :=
  (decide (0x4100 ≤ u ∧ u ≤ 0x413F) && (sub == 4 || sub == 5)) || (decide (0x7010 ≤ u ∧ u ≤ 0x701F) && sub == 3)
    || (decide (0x7400 ≤ u ∧ u ≤ 0x743F) && sub == 6) || (decide (0x8400 ≤ u ∧ u ≤ 0x8418)) || decide (0x9000 ≤ u ∧ u ≤ 0x9FFF)
    || (decide (0xA000 ≤ u ∧ u ≤ 0xAFFF) && sub == 0xA)
/-- Who wrote it, as far as rules look (R457). -/
def writerOf (holder : Nat) : Accessor := if holder = 0 then .pf0 else .vf holder
/-- What the object's own rule says when an accepted write is to take effect (log entry 140): none lets it, some gives the state that
its refusal leaves. The range of a number that depends on others is checked again too. -/
def State.staleWrite (s : State) (p : PendingWrite) : Option State :=
  let u := p.key / 256 % 65536
  let sub := p.key % 256
  let f := p.key / 16777216
  if checkedOnce u sub then none
  else
    let fits := match p.data, findObj u sub with
      | .num _ v, some o => o.range != .own || s.ownRange u sub f v s.lnc
      | _, _ => true
    if !fits then some s else s.ownRule (writerOf p.holder) u sub f p.lnc p.data p.info

/-- A write takes effect: an RW or RWP object holds the value; WINDOW_FUNCTION changes the writer's copy (R466); INCREMENT waits for the
next tick (R27). -/
def State.applyWrite (s : State) (p : PendingWrite) : State :=
  let u := p.key / 256 % 65536
  let sub := p.key % 256
  let f := p.key / 16777216
  let wo := accessOf p.key == .wo
  match p.data with
  | .num _ v =>
    if p.key = Reg.windowFunction then
      (if 1024 ≤ p.holder then (match s.session (p.holder - 1024) with | some x => s.setSession (p.holder - 1024) { x with windowFunction := v.toNat } | none => s)
       else s.setReg Reg.windowFunction v)
    else
      let old := s.regN p.key
      let s1 := if wo ∨ p.key = Reg.increment then s else s.setReg p.key v
      s1.effectNum p.holder u sub f old v p.lnc
  | .bytes bs =>
    let old := s.blob p.key
    let s1 := if wo then s else s.setBlob p.key bs
    s1.effectBytes p.holder u sub old bs p.lnc

end Sys2Proof.Machine
end

