-- ==== Sys2Proof/Machine/Access.lean ====
section
/-! DEFINITION. Dictionary accesses (R463 to R488): the order of a write's checks, commits, reads with what they remove, blocks, and
the two ways in, a window and an HDP session. -/

set_option linter.unusedVariables false

namespace Sys2Proof.Machine

/-! Writes (R467). -/

/-- The state with these writes waiting. -/
def State.withWrites (s : State) (l : List PendingWrite) : State := { s with dict := { s.dict with writes := l } }

/-- A write that has passed steps 1 to 5. -/
structure Plan where
  key : Nat
  index : Nat
  sub : Nat
  acc : ObjAccess
  data : WData
  lnc : Nat
  named : Bool
deriving DecidableEq, Repr

/-- Steps 1 to 5 of R467: the first status that fails, with the state that a refusal leaves, or the plan. Rules that look at other
objects see them with the writes `block` of the same commit (R484). -/
def State.checkWrite (s : State) (a : Accessor) (index sub : Nat) (d : WData) (lnc : Option Nat) (i : WInfo) (block : List PendingWrite) : Except (Nat × State) Plan :=
  let view := s.withWrites (s.dict.writes ++ block)
  match s.reach a index sub with
  | .error e => .error (e, s)
  | .ok (u, f, o) =>
    let r := s.mayWrite a index u sub f o
    if r ≠ Status.ok then .error (r, s)
    else match view.checkValue u sub f o d (s.effectLnc lnc) with
    | .error e => .error (e, s)
    | .ok v =>
      if (match v with | .bytes bs => s.blockBad u sub bs | .num _ _ => false) then .error (Status.range, s)
      else
        let k := objKey u sub f
        match s.checkLnc u sub k lnc with
        | .error e => .error (e, s)
        | .ok (l, named) => match view.ownRule a u sub f l v i with
          | some t => .error (Status.refused, t.withWrites s.dict.writes)
          | none => .ok { key := k, index := u, sub := sub, acc := o.acc, data := v, lnc := l, named := named }

/-- Steps 6 and 7 of R467 for the plans of one index: one commit of its RWP values; an OWNER_CMD is a commit of the owner entry (R568). -/
def State.commitPlans (s : State) (ps : List Plan) (ok : Bool) : Nat × State :=
  match ps with
  | [] => (Status.ok, s)
  | p :: _ =>
    let r := if p.index = 0x9020 then s.tryCommit 0x9020 [(Reg.ownerNonce, .num 4 (s.reg Reg.ownerNonce + 1))] ok
             else s.tryCommit p.index ((ps.filter (fun x => x.acc == .rwp)).map (fun x => (x.key, x.data))) ok
    -- a commit that fails verification is logged (R474, R517; CODE: log entry 164)
    if r.1 = Status.storeFault then (r.1, r.2.logError { klass := 0, unit := 15, code := 2, cluster := 8, detail := p.index }) else r

/-- Command objects whose chapter names the instant of a write without an LNC, which starts at its acceptance (R23; log entry 80): the
next edge (PPS_TOD), the LNC that the value names (RESIZE_LNC and RESIZE_TILES, SNAP_REQUEST, RETRAIN_LNC, APPLY_LNC, FW_SWITCH_LNC), the
next sample (CLEAR), the acceptance (TEARDOWN, CHIP_RESET), the commit (the owner's entry), a chip reset (DEBUG_UNLOCK), the response
(SPDM_REQUEST). -/
def actsAtOnce (u sub : Nat) : Bool :=
  u == 0x2006 || (decide (0x4100 ≤ u ∧ u ≤ 0x413F) && (sub == 4 || sub == 5)) || (decide (0xA000 ≤ u ∧ u ≤ 0xA200) && sub == 0xA)
    || (decide (0x7010 ≤ u ∧ u ≤ 0x701F) && sub == 3) || (decide (0x7400 ≤ u ∧ u ≤ 0x743F) && (sub == 6 || sub == 8))
    || decide (0x8410 ≤ u ∧ u ≤ 0x8418) || (decide (0x6400 ≤ u ∧ u ≤ 0x67FF) && sub == 0x24) || (u == 0x8500 && sub == 1)
    || u == 0x9020 || u == 0x9030 || u == 0x9040

/-- A write joins those that wait: after the others, but before a window's write of the same object in the same tick where it comes
through the field port (R22). -/
def addWrite (w : PendingWrite) (l : List PendingWrite) : List PendingWrite :=
  match l with
  | [] => [w]
  | x :: r => if x.key = w.key ∧ x.tick = w.tick ∧ x.holder < 1024 ∧ 1024 ≤ w.holder then w :: x :: r else x :: addWrite w r

/-- An accepted write waits for the LNC it takes effect at (R23, R469). -/
def State.enact (s : State) (holder : Nat) (i : WInfo) (p : Plan) : State :=
  let w : PendingWrite := { key := p.key, data := p.data, lnc := p.lnc, named := p.named, holder := holder, info := i, tick := s.time.ticks }
  if !p.named && p.acc == .wo && actsAtOnce p.index p.sub then s.applyWrite w else s.withWrites (addWrite w s.dict.writes)

/-- A write of one object: its status and the state (R467). -/
def State.writeObject (s : State) (a : Accessor) (index sub : Nat) (d : WData) (lnc : Option Nat) (ok : Bool) (i : WInfo) : Nat × State :=
  match s.checkWrite a index sub d lnc i [] with
  | .error e => e
  | .ok p =>
    let r := s.commitPlans [p] ok
    if r.1 ≠ Status.ok then r else (Status.ok, r.2.enact (Accessor.holder a) i p)

/-- PENDING_WRITE_APPLY (R22, R23, R469): the first of the writes whose LNC has come takes effect, where it is one of this object; it is
dropped where its object's rule refuses it by now (log entry 140). -/
def execPendingWriteApply (key : Nat) (s : State) : Out :=
  match s.dueWrite with
  | none => .next s
  | some p =>
    let rest := s.withWrites (s.dict.writes.erase p)
    .next (s.when (p.key == key) (match rest.staleWrite p with | some t => t | none => rest.applyWrite p))

/-! Reads. -/

/-- What a read of an object returns, and the state after it: a read of the time latches (R28), a reading-removes object loses its oldest
item (R57, R102, R428, R481, R544) when `last` says that its last byte is taken. -/
def State.takeObject (s : State) (a : Accessor) (u sub f : Nat) (o : ObjDef) (last : Bool) : State × List Byte :=
  let pop := fun (t : State) => if last then t else s
  if u = 0x2000 ∧ sub = 0 then ((s.setReg Reg.stcFrac s.time.stc.frac).setReg Reg.lncNow s.lnc, o.ty.bytes s.time.stc.time80)
  else if 0x2110 ≤ u ∧ u ≤ 0x2114 ∧ sub = 2 then
    (let n := u - 0x2110
     match Table.get [] s.time.captures n with
     | [] => (s, o.ty.bytes 0)
     | x :: r => (pop (({ s with time := { s.time with captures := Table.put [] s.time.captures n r } }).setReg (Reg.tcDepth n) r.length), o.ty.bytes x))
  else if u = 0x8100 ∧ sub = 1 then (match s.relia.log with | [] => (s, []) | e :: r => (pop (s.setLog r), e.bytes))
  else if u = 0x1020 ∧ sub = 1 then
    (match s.dict.notes with | [] => (s, []) | e :: r => (pop (({ s with dict := { s.dict with notes := r } }).setReg Reg.notifyDepth r.length), e))
  else if u = 0x4900 ∧ sub = 3 then (match s.sync.records with | [] => (s, []) | e :: r => (pop { s with sync := { s.sync with records := r } }, e))
  else if 0xA000 ≤ u ∧ u ≤ 0xA200 ∧ sub = 0xB then
    (match (s.func (u - 0xA000)).snapQueue with
     | [] => (s, [])
     | e :: r => (pop (s.setFunc (u - 0xA000) { s.func (u - 0xA000) with snapQueue := r }), e))
  else (s.fresh, s.peek a u sub f o)

/-- What an answer carries (R479, R483). -/
structure Reply where
  status : Nat := 0
  data : List Byte := []
  total : Nat := 0
  more : Bool := false
  sub : Option Nat := none
deriving DecidableEq, Repr

/-- Data bytes of one answer: a window's buffer, an HDP frame (R479, R483). -/
def roomOf (a : Accessor) : Nat := match a with | .hdp _ => 1416 | _ => 3840

/-- A read of one object, or of its segment at an offset (R467, R484). -/
def State.readObject (s : State) (a : Accessor) (index sub offset : Nat) : State × Reply :=
  match s.reach a index sub with
  | .error e => (s, { status := e })
  | .ok (u, f, o) =>
    if o.acc == .wo then (s, { status := Status.writeOnly })
    else
      let whole := (s.takeObject a u sub f o false).2
      let rest := whole.drop offset
      let last := decide (rest.length ≤ roomOf a)
      ((s.takeObject a u sub f o last).1, { data := rest.take (roomOf a), total := if o.ty.isBytes then whole.length else 0, more := !last })

/-- One block item (R484). -/
def blockItem (sub code status : Nat) (v : List Byte) : List Byte :=
  bytesOf 8 (sub * 2 ^ 56 + code * 2 ^ 48 + status * 2 ^ 40 + v.length) ++ v ++ zeros ((8 - v.length % 8) % 8)
/-- The items of a range of subindices, WO ones without a value. -/
def State.blockItems (s : State) (a : Accessor) (index : Nat) (subs : List Nat) : State × List Byte :=
  subs.foldl (fun (x : State × List Byte) sub =>
    match x.1.reach a index sub with
    | .error _ => x
    | .ok (u, f, o) =>
      if o.acc == .wo then (x.1, x.2 ++ blockItem sub o.ty.code Status.writeOnly [])
      else
        let r := x.1.takeObject a u sub f o true
        (r.1, x.2 ++ blockItem sub o.ty.code 0 r.2)) (s, [])
/-- The first failing status of a range that holds nothing the accessor reaches. -/
def State.blockStatus (s : State) (a : Accessor) (index : Nat) (subs : List Nat) : Nat :=
  if subs.any (fun sub => match s.reach a index sub with | .ok _ => true | .error _ => false) then Status.ok
  else match s.reach a index (subs.headD 0) with | .error e => e | .ok _ => Status.noSubindex
/-- READ_BLOCK: every value of one tick; a block that is longer than an answer is refused (log entry 12). -/
def State.readBlock (s : State) (a : Accessor) (index sub last : Nat) : State × Reply :=
  let subs := (List.range 256).filter (fun i => decide (sub ≤ i ∧ i ≤ last))
  let st := s.blockStatus a index subs
  if st ≠ Status.ok then (s, { status := st })
  else
    let r := s.blockItems a index subs
    if roomOf a < r.2.length then (s, { status := Status.range }) else (r.1, { data := r.2 })

/-- The items of a WRITE_BLOCK (R484): subindex and value, none where the data is not tiled exactly by its items. -/
def itemsOf (fuel : Nat) (bs : List Byte) : Option (List (Nat × WData)) :=
  match fuel with
  | 0 => if bs.isEmpty then some [] else none
  | fuel + 1 =>
    if bs.isEmpty then some []
    else
      let h := natOf (bs.take 8)
      let n := bits h 31 0
      let v := (bs.drop 8).take n
      if bs.length < 8 + n then none
      else (itemsOf fuel (bs.drop (8 + 8 * ceilDiv n 8))).map (fun r => (bits h 63 56, if 0xA ≤ bits h 55 48 then .bytes v else .num n (natOf v)) :: r)
/-- The numbers of a block as writes that wait, for the rules that look at several of them. -/
def State.blockWrites (s : State) (a : Accessor) (index : Nat) (items : List (Nat × WData)) (lnc : Option Nat) : List PendingWrite :=
  items.filterMap (fun e => match s.reach a index e.1 with
    | .ok (u, f, _) => some { key := objKey u e.1 f, data := e.2, lnc := s.effectLnc lnc, named := false, holder := 0 }
    | .error _ => none)
/-- WRITE_BLOCK: all plans first, one commit, then every effect; a failure names its subindex (R470, R484). -/
def State.writeBlock (s : State) (a : Accessor) (index : Nat) (items : List (Nat × WData)) (lnc : Option Nat) (ok : Bool) (i : Nat → WInfo) : State × Reply :=
  let plans := items.map (fun e => (e.1, s.checkWrite a index e.1 e.2 lnc (i e.1) (s.blockWrites a index items lnc)))
  match plans.find? (fun e => match e.2 with | .error _ => true | .ok _ => false) with
  | some (sub, .error e) => (e.2, { status := e.1, sub := some sub })
  | _ =>
    let ps := plans.filterMap (fun e => match e.2 with | .ok p => some p | .error _ => none)
    let r := s.commitPlans ps ok
    if r.1 ≠ Status.ok then (r.2, { status := r.1 }) else (ps.foldl (fun s p => s.enact (Accessor.holder a) (i p.sub) p) r.2, {})

/-! Segmented writes (R484). -/

/-- Set or clear the staged segments of a holder. -/
def State.setStage (s : State) (h : Nat) (x : Option Stage) : State :=
  { s with dict := { s.dict with stages := match x with | some y => Table.insert s.dict.stages h y | none => Table.erase s.dict.stages h } }
/-- A segment: kept, completed to the whole block, or out of order, which discards what was staged. A whole block of another object is no
segmented write. -/
def State.segment (s : State) (h k offset : Nat) (more : Bool) (bs : List Byte) : State × Except Nat (List Byte) :=
  match assoc s.dict.stages h with
  | none =>
    if offset ≠ 0 then (s, .error Status.segmentError)
    else if more then (s.setStage h (some { key := k, bytes := bs, last := s.time.ticks }), .error Status.ok)
    else (s, .ok bs)
  | some x =>
    if x.key ≠ k ∧ offset = 0 ∧ more = false then (s, .ok bs)
    else if x.key ≠ k ∨ offset ≠ x.bytes.length then (s.setStage h none, .error Status.segmentError)
    else if more then (s.setStage h (some { x with bytes := x.bytes ++ bs, last := s.time.ticks }), .error Status.ok)
    else (s.setStage h none, .ok (x.bytes ++ bs))

/-! The two ways in. -/

/-- The field port carries frames (R482, R597). -/
def State.mgUp (s : State) : Bool := s.reg Reg.mgLink == 1
/-- A header of 40 bytes from a request's own (R483). -/
def hdpHeader (h : HdpFrame) (status len aux : Nat) (more : Bool) (sub : Option Nat) : List Byte :=
  let w := natOf (fit 40 h.body)
  let sub' := match sub with | some x => x | none => bits w 175 168
  bytesOf 40 (0x4844 * 2 ^ 304 + 2 ^ 296 + bits w 295 288 * 2 ^ 288 + status * 2 ^ 280 + (1 + (if more then 2 else 0)) * 2 ^ 272 + len * 2 ^ 256
    + h.session % 2 ^ 32 * 2 ^ 224 + h.seq % 2 ^ 32 * 2 ^ 192 + bits w 191 176 * 2 ^ 176 + sub' * 2 ^ 168 + bits w 167 160 * 2 ^ 160
    + bits w 159 128 * 2 ^ 128 + bits w 127 64 * 2 ^ 64 + aux % 2 ^ 32 * 2 ^ 32)
/-- The tag of a frame (R483). -/
def hdpTag (key m : List Byte) : List Byte := (Config.hmacSha512 key m).take 16
/-- A frame is well formed: magic, version and length, and its session and sequence are those of its header (R483). -/
def hdpFormed (h : HdpFrame) : Bool :=
  let w := natOf (fit 40 h.body)
  decide (40 ≤ h.body.length ∧ h.body.length ≤ 1456) && bits w 271 256 == h.body.length - 40 && bits w 319 304 == 0x4844 && bits w 303 296 == 1
    && bits w 255 224 == h.session && bits w 223 192 == h.seq
/-- OP of a frame. -/
def hdpOp (h : HdpFrame) : Nat := bits (natOf (fit 40 h.body)) 295 288
/-- An operation that the table of R484 lists as a request. -/
def hdpListed (op : Nat) : Bool := decide (1 ≤ op ∧ op ≤ 5) || decide (0x10 ≤ op ∧ op ≤ 0x12)
/-- The frame's header and data are those of the access that the command makes (R483, R484). -/
def hdpNames (h : HdpFrame) (c : Window) : Bool :=
  let w := natOf (fit 40 h.body)
  hdpOp h == c.op && (decide (0x10 ≤ c.op) ||
    (bits w 279 272 / 2 % 4 == c.flags / 2 % 4 && bits w 191 176 == c.index && (c.op == 4 || bits w 175 168 == c.sub)
      && ((c.op != 3 && c.op != 5) || bits w 167 160 == c.subLast) && bits w 159 128 == c.offset && (!bit c.flags 2 || bits w 127 64 == c.lnc)
      && (c.op == 1 || c.op == 3 || h.body.drop 40 == c.buffer)))

/-- Answer a request of a session, and keep the response (R487). -/
def State.hdpAnswer (s : State) (h : HdpFrame) (x : Session) (r : Reply) : State :=
  let head := hdpHeader h r.status r.data.length r.total r.more r.sub
  let keep := fun (y : Session) =>
    let l := y.answered ++ [(h.seq, head, r.data)]
    { y with answered := l.drop (l.length - 16), seen := (h.seq :: y.seen).filter (fun n => decide (y.highSeq ≤ n + 64)), highSeq := max y.highSeq h.seq
             lastFrame := s.time.ticks, source := h.source }
  let s := s.emit (.hdp h.source head r.data (hdpTag x.keyOut (head ++ r.data)))
  match s.session h.session with | some y => s.setSession h.session (keep y) | none => s

/-- A request over HDP (R486, R487): an open session, a tag that verifies, a sequence number that is new; one answered before gets its
stored response again. An OP that R484 does not list is NOT_SUPPORTED; a frame of another access than `c` is not this command's. Until SERVING
other requests are BUSY, but for what recovery serves (R558, R565). -/
def State.hdpAccess (s : State) (h : HdpFrame) (c : Window) (early : Bool) (run : State → State × Reply) : State :=
  if !s.mgUp ∨ (hdpFormed h ∧ hdpListed (hdpOp h) ∧ !hdpNames h c) then s
  else if !hdpFormed h then s.bump Reg.framesDropped 1
  else match s.session h.session with
  | none => s.emit (.hdp h.source (hdpHeader h Status.sessionUnknown 0 0 false none) [] (zeros 16))
  | some x =>
    if hdpTag x.keyIn h.body ≠ h.tag then s.bump Reg.authFailures 1
    else match x.answered.find? (fun e => e.1 == h.seq) with
    | some (_, head, data) =>
      (s.setSession h.session { x with lastFrame := s.time.ticks, source := h.source }).emit (.hdp h.source head data (hdpTag x.keyOut (head ++ data)))
    | none =>
      if h.seq + 64 < x.highSeq ∨ x.seen.contains h.seq then s.bump Reg.framesDropped 1
      else
        let r := if !hdpListed (hdpOp h) then (s, { status := Status.notSupported })
                 else if s.serving || early then run s else (s, { status := Status.busy })
        r.1.hdpAnswer h x r.2

/-- A request through a window of BAR0 (R479, R480, R558): `w` is the control block of the access. -/
def State.windowAccess (s : State) (f : Nat) (w : Window) (run : State → State × Reply) : State :=
  if !(s.boot.link && s.functionExists f) then s
  else
    let r := if s.serving then run s else (s, { status := Status.busy })
    let t := r.1
    let w := { w with status := r.2.status, length := if w.op = 1 ∨ w.op = 3 then r.2.data.length else w.length, domainLength := r.2.total
                      sub := r.2.sub.getD w.sub, buffer := if w.op = 1 ∨ w.op = 3 then r.2.data else w.buffer }
    ({ t with dict := { t.dict with windows := Table.put {} t.dict.windows f w } }).emit (.answer f r.2.status r.2.data r.2.total)

/-- A request on either way in. -/
def State.access (s : State) (a : Accessor) (w : Window) (early : Bool) (run : State → State × Reply) : State :=
  match a with
  | .pf0 => s.windowAccess 0 w run
  | .vf n => s.windowAccess n w run
  | .hdp h => s.hdpAccess h w early run

/-- Bytes of the data that a write carries. -/
def dataBytes (d : WData) : List Byte := match d with | .num size v => bytesOf size (unsigned (8 * size) v) | .bytes bs => bs
/-- Indices that the recovery service reads (R565). -/
def recoveryReads (s : State) (index : Nat) : Bool := s.reg Reg.startupStage == 16 && (index == 0x1000 || index == 0x8500 || index == 0x8400)

/-- A write of a whole object, with the facts that its bytes do not show. -/
def State.dictWrite (s : State) (w : Wr) (index sub : Nat) (i : WInfo) : State :=
  let d := dataBytes w.data
  let c : Window := { op := 2, flags := if w.lnc.isSome then 4 else 0, index := index, sub := sub, lnc := w.lnc.getD 0, length := d.length, buffer := d.take 3840 }
  s.access w.acc c (s.reg Reg.startupStage == 16 && index == 0x8400 && sub == 0) (fun s =>
    let r := s.writeObject w.acc index sub w.data w.lnc w.commitOk i
    (r.2, { status := r.1 }))

/-- A read of one object. -/
def State.dictRead (s : State) (a : Accessor) (index sub offset : Nat) : State :=
  s.access a { op := 1, index := index, sub := sub, offset := offset } (recoveryReads s index) (fun s => s.readObject a index sub offset)

end Sys2Proof.Machine
end

