-- ==== Sys2Proof/Machine/Writes.lean ====
section
/-! DEFINITION. The rows that write one object of the dictionary (R467): each names its object and what its bytes do not show. -/

set_option linter.unusedVariables false

namespace Sys2Proof.Machine

/-! Facts of a bare write (R306, R320). -/

/-- What a bare write means where its object has a row of its own: what the fabric or the encoder decides is free (log entry 62). -/
def State.factsOf (s : State) (a : Accessor) (index sub : Nat) : WInfo :=
  let index := match s.resolve a index with | some (u, _) => u | none => index
  let coin := Config.freeNat s.free % 2 == 1
  if 0x5400 ≤ index ∧ index ≤ 0x54FF ∧ sub = 0x10 then { peerMatches := coin }
  else if 0x5400 ≤ index ∧ index ≤ 0x54FF ∧ sub = 0x14 then { encoded := coin }
  else {}

/-! Rows of one object each. A number outside its family writes nothing. -/

/-- INCREMENT_WRITE (R29, R30). -/
def execIncrementWrite (w : Wr) (s : State) : Out := .next (s.dictWrite w 0x2003 0 {})
/-- TIME_SOURCE_WRITE (R31, R40). -/
def execTimeSourceWrite (w : Wr) (s : State) : Out := .next (s.dictWrite w 0x2002 0 {})
/-- STEP_REQUEST (R34). -/
def execStepRequest (w : Wr) (s : State) : Out := .next (s.dictWrite w 0x2003 4 {})
/-- PPS_TOD_WRITE (R593). -/
def execPpsTodWrite (w : Wr) (s : State) : Out := .next (s.dictWrite w 0x2006 0 {})
/-- TT_ARM_WRITE (R54, R55). -/
def execTtArmWrite (w : Wr) (n : Nat) (s : State) : Out := .next (s.when (decide (n < 8)) (s.dictWrite w (0x2100 + n) 4 {}))
/-- RESIZE_TILES_WRITE (R67). -/
def execResizeTilesWrite (w : Wr) (p : Nat) (s : State) : Out := .next (s.when (decide (p < 64)) (s.dictWrite w (0x4100 + p) 4 {}))
/-- RESIZE_LNC_WRITE (R67). -/
def execResizeLncWrite (w : Wr) (p : Nat) (s : State) : Out := .next (s.when (decide (p < 64)) (s.dictWrite w (0x4100 + p) 5 {}))
/-- The index of a function's account for an accessor (R465): a VF reaches its own in its window. -/
def accountIndex (a : Accessor) (f : Nat) : Nat := match a with | .vf _ => 0xB300 | _ => 0xA000 + f
/-- SNAP_REQUEST (R102). -/
def execSnapRequest (w : Wr) (f : Nat) (s : State) : Out := .next (s.when (decide (f < 513)) (s.dictWrite w (accountIndex w.acc f) 0xA {}))
/-- DETERMINISM_MODE_WRITE (R229). -/
def execDeterminismModeWrite (w : Wr) (s : State) : Out := .next (s.dictWrite w 0x4010 0 {})
/-- HOLD_SOURCE_WRITE (R306, R309). -/
def execHoldSourceWrite (w : Wr) (c : Nat) (encoded : Bool) (s : State) : Out := .next (s.when (decide (c < 256)) (s.dictWrite w (0x5400 + c) 0x14 { encoded := encoded }))
/-- PORT_MODE_WRITE (R328). -/
def execPortModeWrite (w : Wr) (p : Nat) (s : State) : Out := .next (s.when (decide (p < 64)) (s.dictWrite w (0x6000 + p) 0 {}))
/-- LANE_GROUPS_WRITE (R24). -/
def execLaneGroupsWrite (w : Wr) (s : State) : Out := .next (s.dictWrite w 0x6040 0 {})
/-- IDLE_SLOPE_WRITE (R347): of queue q, whose object has the same subindex. -/
def execIdleSlopeWrite (w : Wr) (p q : Nat) (s : State) : Out := .next (s.when (decide (p < 64 ∧ 8 ≤ q ∧ q ≤ 12)) (s.dictWrite w (0x6000 + p) q {}))
/-- TELEMETRY_CLEAR (R352). -/
def execTelemetryClear (w : Wr) (n : Nat) (s : State) : Out := .next (s.when (decide (n < 1024)) (s.dictWrite w (0x6400 + n) 0x24 {}))
/-- HOST_FLOW_WRITE (R354). -/
def execHostFlowWrite (w : Wr) (h : Nat) (s : State) : Out := .next (s.when (decide (h < 256)) (s.dictWrite w (0x6200 + h) 0 {}))
/-- CACHE_WAYS_WRITE (R362). -/
def execCacheWaysWrite (w : Wr) (p : Nat) (s : State) : Out := .next (s.when (decide (p < 64)) (s.dictWrite w (0x4100 + p) 0xB {}))
/-- RETRAIN_LNC_WRITE (R373). -/
def execRetrainLncWrite (w : Wr) (dev : Nat) (s : State) : Out := .next (s.when (decide (dev < 16)) (s.dictWrite w (0x7010 + dev) 3 {}))
/-- LINK_MODE_WRITE (R377). -/
def execLinkModeWrite (w : Wr) (link : Nat) (s : State) : Out := .next (s.when (decide (link < 64)) (s.dictWrite w (0x7320 + link) 0 {}))
/-- READMIT (R405). -/
def execReadmit (w : Wr) (s : State) : Out := .next (s.dictWrite w 0x7301 1 {})
/-- JOB_APPLY_LNC_WRITE (R383). -/
def execJobApplyLncWrite (w : Wr) (j : Nat) (s : State) : Out := .next (s.when (decide (j < 64)) (s.dictWrite w (0x7400 + j) 6 {}))
/-- TEARDOWN (R407). -/
def execTeardown (w : Wr) (j : Nat) (s : State) : Out := .next (s.when (decide (j < 64)) (s.dictWrite w (0x7400 + j) 8 {}))
/-- NCRO_DROP (R399). -/
def execNcroDrop (w : Wr) (j : Nat) (s : State) : Out := .next (s.when (decide (j < 64)) (s.dictWrite w (0x7400 + j) 0xB {}))
/-- CTX_ENABLE (R432). -/
def execCtxEnable (w : Wr) (x : Nat) (s : State) : Out := .next (s.when (decide (x < 16)) (s.dictWrite w (0xB200 + x) 0 {}))
/-- FUNCTION_ENABLE_WRITE (R453). -/
def execFunctionEnableWrite (w : Wr) (s : State) : Out := .next (s.dictWrite w 0xB000 1 {})
/-- MG_MODE_WRITE (R489). -/
def execMgModeWrite (w : Wr) (s : State) : Out := .next (s.dictWrite w 0x1001 0 {})
/-- MG_IPV4_WRITE (R489). -/
def execMgIpv4Write (w : Wr) (s : State) : Out := .next (s.dictWrite w 0x1001 2 {})
/-- PEER_KEY_WRITE (R489): subindex 0 the key, 1 the role. -/
def execPeerKeyWrite (w : Wr) (k sub : Nat) (s : State) : Out := .next (s.when (decide (k < 16 ∧ sub < 2)) (s.dictWrite w (0x9100 + k) sub {}))
/-- SHARE_ORDER_WRITE (R502). -/
def execShareOrderWrite (w : Wr) (s : State) : Out := .next (s.dictWrite w 0x3001 0 {})
/-- RADIO_FLOOR_WRITE (R503). -/
def execRadioFloorWrite (w : Wr) (s : State) : Out := .next (s.dictWrite w 0x3000 2 {})
/-- FORCE_LOWEST_WRITE (R505). -/
def execForceLowestWrite (w : Wr) (s : State) : Out := .next (s.dictWrite w 0x3000 6 {})
/-- RAIL_CLEAR (R516). -/
def execRailClear (w : Wr) (n : Nat) (s : State) : Out := .next (s.when (decide (n < 20)) (s.dictWrite w (0x3100 + n) 3 {}))
/-- COPY_START (R538). -/
def execCopyStart (w : Wr) (s : State) : Out := .next (s.dictWrite w 0x8200 4 {})
/-- SELFTEST (R539). -/
def execSelftest (w : Wr) (s : State) : Out := .next (s.dictWrite w 0x8300 0 {})
/-- FW_IMAGE_WRITE (R541, R562). -/
def execFwImageWrite (w : Wr) (s : State) : Out := .next (s.dictWrite w 0x8400 0 {})
/-- FW_SWITCH_LNC_WRITE (R542). -/
def execFwSwitchLncWrite (w : Wr) (n : Nat) (s : State) : Out := .next (s.when (decide (n < 9)) (s.dictWrite w (0x8410 + n) 0 {}))
/-- CHIP_RESET (R548). -/
def execChipReset (w : Wr) (s : State) : Out := .next (s.dictWrite w 0x8500 1 {})
/-- CLUSTER_RESET (R550). -/
def execClusterReset (w : Wr) (s : State) : Out := .next (s.dictWrite w 0x8500 2 {})
/-- PARTITION_RESET (R551). -/
def execPartitionReset (w : Wr) (s : State) : Out := .next (s.dictWrite w 0x8500 3 {})
/-- TILE_RESET (R552). -/
def execTileReset (w : Wr) (s : State) : Out := .next (s.dictWrite w 0x8500 4 {})
/-- ROLLBACK_ADVANCE (R566). -/
def execRollbackAdvance (w : Wr) (s : State) : Out := .next (s.dictWrite w 0x9002 0 {})

/-! Cell commands (R298): a write of CELL_CMD with the command's value. -/

/-- A write of CELL_CMD. -/
def State.cellWrite (s : State) (w : Wr) (c cmd : Nat) (peer : Bool) : State :=
  s.when (decide (c < 256)) (s.dictWrite { w with data := .num 1 cmd } (0x5400 + c) 0x10 { peerMatches := peer })
/-- START (R298). -/
def execStart (w : Wr) (c : Nat) (s : State) : Out := .next (s.cellWrite w c 1 false)
/-- STOP (R298). -/
def execStop (w : Wr) (c : Nat) (s : State) : Out := .next (s.cellWrite w c 2 false)
/-- HOLD (R298). -/
def execHold (w : Wr) (c : Nat) (s : State) : Out := .next (s.cellWrite w c 3 false)
/-- RESUME (R298). -/
def execResume (w : Wr) (c : Nat) (s : State) : Out := .next (s.cellWrite w c 4 false)
/-- RESET (R298). -/
def execReset (w : Wr) (c : Nat) (s : State) : Out := .next (s.cellWrite w c 5 false)
/-- MOVE (R320): `peerMatches` is what the exchange of digests with the peer found. -/
def execMove (w : Wr) (c : Nat) (peerMatches : Bool) (s : State) : Out := .next (s.cellWrite w c 6 peerMatches)
/-- ABORT_MOVE (R298). -/
def execAbortMove (w : Wr) (c : Nat) (s : State) : Out := .next (s.cellWrite w c 7 false)

/-! Owner commands and debug tokens (R567, R575). -/

/-- A write of OWNER_CMD whose bytes hold an OP. -/
def State.ownerWrite (s : State) (w : Wr) (op : Nat) : State := s.when (decide ((ownerOf (dataBytes w.data)).op = op)) (s.dictWrite w 0x9020 0 {})
/-- INSTALL (R568). -/
def execInstall (w : Wr) (s : State) : Out := .next (s.ownerWrite w 1)
/-- REMOVE (R568). -/
def execRemove (w : Wr) (s : State) : Out := .next (s.ownerWrite w 2)
/-- SET_OWNER_SIGN (R568). -/
def execSetOwnerSign (w : Wr) (s : State) : Out := .next (s.ownerWrite w 3)
/-- RELEASE (R568). -/
def execRelease (w : Wr) (s : State) : Out := .next (s.ownerWrite w 4)
/-- DEBUG_UNLOCK (R575). -/
def execDebugUnlock (w : Wr) (s : State) : Out := .next (s.dictWrite w 0x9030 0 {})

/-! Rows of any object. -/

/-- REGISTER_WRITE (R467): an object with no row of its own. -/
def execRegisterWrite (w : Wr) (index sub : Nat) (s : State) : Out := .next (s.dictWrite w index sub (s.factsOf w.acc index sub)).fresh
/-- DICT_WRITE (R467, R484): one object, or a segment of a block, which is checked and applied with its last segment. -/
def execDictWrite (w : Wr) (index sub offset : Nat) (more : Bool) (s : State) : Out :=
  let d := dataBytes w.data
  let c : Window := { op := 2, flags := (if w.lnc.isSome then 4 else 0) + (if more then 2 else 0), index := index, sub := sub, offset := offset
                      lnc := w.lnc.getD 0, length := d.length, buffer := d.take 3840 }
  let h := Accessor.holder w.acc
  .next (s.access w.acc c (s.reg Reg.startupStage == 16 && index == 0x8400 && sub == 0) (fun s =>
    let g := s.segment h (key index sub) offset more d
    let whole := fun (s : State) (v : WData) =>
      let r := s.writeObject w.acc index sub v w.lnc w.commitOk (s.factsOf w.acc index sub)
      (r.2, ({ status := r.1 } : Reply))
    match w.data with
    | .num _ _ => if offset ≠ 0 ∨ more then (s, { status := Status.segmentError }) else whole s w.data
    | .bytes _ => match g.2 with
      | .error e => (g.1, { status := e })
      | .ok bs => whole g.1 (.bytes bs))).fresh
/-- WRITE_BLOCK (R484): data that is not tiled by its items is TYPE_MISMATCH (log entry 12). -/
def execWriteBlock (acc : Accessor) (index : Nat) (data : List Byte) (lnc : Option Nat) (commitOk : Bool) (s : State) : Out :=
  let c : Window := { op := 4, flags := if lnc.isSome then 4 else 0, index := index, lnc := lnc.getD 0, length := data.length, buffer := data.take 3840 }
  .next (s.access acc c false (fun s => match itemsOf data.length data with
    | none => (s, { status := Status.typeMismatch })
    | some items => s.writeBlock acc index items lnc commitOk (s.factsOf acc index))).fresh

end Sys2Proof.Machine
end

