-- ==== Sys2Proof/Machine/Hdp.lean ====
section
/-! DEFINITION. HDP sessions, subscriptions and the management field port (R481 to R489, R565, R597). -/

set_option linter.unusedVariables false

namespace Sys2Proof.Machine

/-! The field port (R482, R597). -/

/-- Recovery service of the ROM (R565). -/
def State.recovery (s : State) : Bool := s.reg Reg.startupStage == 16
/-- A number of the persistent store where recovery runs, which has no opening book, else the register (R565). -/
def State.bootNum (s : State) (k size : Nat) : Nat :=
  if s.recovery then (match s.stored k (.num size 0) with | .num _ v => v.toNat | .bytes _ => 0) else s.regN k
/-- The same for a block. -/
def State.bootBytes (s : State) (k : Nat) : List Byte :=
  if s.recovery then (match s.stored k (.bytes []) with | .bytes bs => bs | .num _ _ => []) else s.blob k
/-- The chip's IPv4 address: MG_IPV4, or link-local 169.254.a.b from SERIAL (R482). -/
def State.ownAddress (s : State) : Nat :=
  let a := s.bootNum Reg.mgIpv4 4
  let t := s.blob Reg.serial
  if a ≠ 0 then a else 169 * 2 ^ 24 + 254 * 2 ^ 16 + (1 + (t.getD 15 0).toNat % 254) * 2 ^ 8 + (t.getD 14 0).toNat
/-- ARP_REQUEST (R482): the reply, kind 1, holds the MAC and the address in wire order. -/
def execArpRequest (address : Nat) (s : State) : Out :=
  .next (s.when (s.mgUp && address == s.ownAddress) (s.emit (.mgFrame 0 1 ((bytesOf 6 Config.mgMac).reverse ++ (bytesOf 4 address).reverse))))
/-- ICMP_ECHO (R482): the echo reply, kind 2, holds the payload of the request. -/
def execIcmpEcho (address : Nat) (payload : List Byte) (s : State) : Out :=
  .next (s.when (s.mgUp && address == s.ownAddress && decide (payload.length ≤ 1472)) (s.emit (.mgFrame 0 2 payload)))
/-- MG_LINK_UP (R597): never while MG_MODE is 0 or the MG domain is off. -/
def execMgLinkUp (s : State) : Out := .next (s.when (s.domain 37 && s.bootNum Reg.mgMode 1 != 0) (s.setReg Reg.mgLink 1))
/-- MG_LINK_DOWN (R597). -/
def execMgLinkDown (s : State) : Out := .next (s.setReg Reg.mgLink 0)

/-! Opening a session (R485, R486). -/

/-- The role of a key, none where it is not accepted. -/
def State.peerRoleOf (s : State) (key : List Byte) : Option Nat :=
  let peers := (List.range 16).map (fun k => (s.bootBytes (Reg.peerKey k), s.bootNum (Reg.peerRole k) 1))
  match peers.find? (fun p => p.1 == key && p.2 != 0 && !key.isEmpty) with
  | some p => some p.2
  | none => if peers.all (fun p => p.1.isEmpty) && (List.range 4).any (fun k => !(s.ownerKey k).isEmpty && s.ownerKey k == key) then some 3 else none
/-- A session ID that neither a session nor a handshake has, from 1 on. -/
def State.freeSession (s : State) : Nat :=
  ((List.range 17).find? (fun k => decide (1 ≤ k) && (assoc s.dict.sessions k).isNone && (assoc s.dict.handshakes k).isNone)).getD 17
/-- Set or end a handshake. -/
def State.setHandshake (s : State) (k : Nat) (x : Option Handshake) : State :=
  { s with dict := { s.dict with handshakes := match x with | some y => Table.insert s.dict.handshakes k y | none => Table.erase s.dict.handshakes k } }
/-- The header of a frame that answers no stored request: OP, STATUS, LENGTH, SESSION, SEQ (R483). -/
def hdpPlain (op status len session seq : Nat) : List Byte :=
  bytesOf 40 (0x4844 * 2 ^ 304 + 2 ^ 296 + op * 2 ^ 288 + status * 2 ^ 280 + 2 ^ 272 + len * 2 ^ 256 + session % 2 ^ 32 * 2 ^ 224 + seq % 2 ^ 32 * 2 ^ 192)
/-- The X25519 base point (RFC 7748). -/
def basePoint : List Byte := 9 :: zeros 31
/-- Step 2 of R485: alias public key, ephemeral, nonce, signature; the keys of R486 from here on. -/
def State.helloRespond (s : State) (k : Nat) (x : Handshake) (eph nonce : List Byte) : State :=
  let seed := Config.freeBytes s.free 32
  let own := Config.freeBytes (s.free + 1) 32
  let step1 := x.peerKey ++ eph ++ nonce
  let step2 := bytesOf 4 k ++ Config.ed25519Public s.aliasSeed ++ Config.x25519 seed basePoint ++ own
  let sign := s.aliasSign (step1 ++ step2)
  let data := step2.drop 4 ++ sign
  let keys := Config.hmacSha512 (nonce ++ own) (Config.x25519 seed eph)
  let y := { x with keyIn := keys.take 32, keyOut := (keys.drop 32).take 32, transcript := step1 ++ step2 ++ sign, startedAt := s.time.ticks, waits := none }
  let t := (s.setHandshake k (some y)).emit (.hdp x.source (hdpPlain 0x10 0 data.length k x.seq) data (zeros 16))
  t.fresh.fresh
/-- A HELLO that is turned away. -/
def State.helloRefuse (s : State) (h : HdpFrame) (status : Nat) : State := s.emit (.hdp h.source (hdpPlain 0x10 status 0 0 h.seq) [] (zeros 16))
/-- HELLO (R483, R485, R570): peer key, ephemeral key and nonce, 32 bytes each. A ninth session, an unaccepted key, or the response, which waits
while the alias key is derived again. -/
def execHello (h : HdpFrame) (s : State) : Out :=
  let data := h.body.drop 40
  let peerKey := data.take 32
  let peerEph := (data.drop 32).take 32
  let nonce := data.drop 64
  let k := s.freeSession
  let t : State :=
    if 8 ≤ s.dict.sessions.length + s.dict.handshakes.length then s.helloRefuse h Status.sessionLimit
    else match s.peerRoleOf peerKey with
    | none => (s.helloRefuse h Status.authFailed).bump Reg.authFailures 1
    | some r =>
      let x : Handshake := { peerKey := peerKey, role := r, keyIn := [], keyOut := [], transcript := [], source := h.source, seq := h.seq, startedAt := s.time.ticks
                             waits := some (peerEph, nonce) }
      if s.sec.deriving' then s.setHandshake k (some x) else s.helloRespond k x peerEph nonce
  .next (s.when s.mgUp (if hdpFormed h && hdpOp h == 0x10 && data.length == 96 then t else s.bump Reg.framesDropped 1))
/-- A handshake ends with AUTH_FAILED. -/
def State.handshakeFails (s : State) (k : Nat) : State := (s.setHandshake k none).bump Reg.authFailures 1
/-- PROVE (R485): in time, tagged, with a signature that verifies over steps 1 and 2, by a key that is still accepted. -/
def execProve (h : HdpFrame) (s : State) : Out :=
  let signature := h.body.drop 40
  .next (match assoc s.dict.handshakes h.session with
    | none => s.hdpAccess h { op := 0x11 } true (fun s => (s, { status := Status.authFailed }))
    | some x =>
      if !s.mgUp then s
      else if !hdpFormed h ∨ hdpOp h ≠ 0x11 then s.bump Reg.framesDropped 1
      else if x.waits.isSome ∨ hdpTag x.keyIn h.body ≠ h.tag then s.bump Reg.authFailures 1
      else
        let late := s.passed x.startedAt 1000000000
        match s.peerRoleOf x.peerKey with
        | some r =>
          if !late && Config.ed25519Verify x.peerKey (Config.sha512 x.transcript) signature then
            (let y : Session := { peerKey := x.peerKey, role := r, keyIn := x.keyIn, keyOut := x.keyOut, source := h.source, lastFrame := s.time.ticks }
             (((s.setHandshake h.session none).setSession h.session y).countSessions).hdpAnswer h y {})
          else (s.emit (.hdp h.source (hdpHeader h Status.authFailed 0 0 false none) [] (hdpTag x.keyOut (hdpHeader h Status.authFailed 0 0 false none)))).handshakeFails h.session
        | none => (s.emit (.hdp h.source (hdpHeader h Status.authFailed 0 0 false none) [] (hdpTag x.keyOut (hdpHeader h Status.authFailed 0 0 false none)))).handshakeFails h.session)
/-- PROVE_TIMEOUT (R485): 1 s after step 2. -/
def execProveTimeout (session : Nat) (s : State) : Out :=
  .next (match assoc s.dict.handshakes session with
    | none => s
    | some x => s.when (x.waits.isNone && s.passed x.startedAt 1000000000) (s.handshakeFails session))
/-- CLOSE (R484): the session ends after the response. -/
def execClose (h : HdpFrame) (s : State) : Out := .next (s.hdpAccess h { op := 0x12 } true (fun s => (s.closeSession h.session, {})))
/-- SESSION_IDLE_TIMEOUT (R482): no authenticated frame for SESSION_IDLE seconds. -/
def execSessionIdleTimeout (session : Nat) (s : State) : Out :=
  .next (match s.session session with
    | none => s
    | some x => s.when (s.passed x.lastFrame (s.regN Reg.sessionIdle * 1000000000)) (s.closeSession session))
/-- SEGMENT_TIMEOUT (R484): staged segments idle for 10 s are discarded; the next segment is out of order. -/
def execSegmentTimeout (holder : Nat) (s : State) : Out :=
  .next (match assoc s.dict.stages holder with
    | none => s
    | some x => s.when (s.passed x.last 10000000000) (s.setStage holder none))

/-- ALIAS_DERIVATION_COMPLETE (R570): ALIAS_KEY_ID changes and the held responses leave, with the new measurements and key. -/
def execAliasDerivationComplete (s : State) : Out :=
  let s1 := ({ s with sec := { s.sec with deriving' := false, aliasNow := s.aliasSeed, derivations := s.sec.derivations + 1, held := [] } }).setBlob Reg.aliasKeyId s.aliasId
  let s2 := s.sec.held.foldl (fun (s : State) (h : SpdmChannel × Nat × List Byte) => if s.channelOpen h.1 then s.spdmAnswer h.1 h.2.1 h.2.2 else s) s1
  let s3 := List.foldl (fun (s : State) (e : Nat × Handshake) => match e.2.waits with | some (eph, nonce) => s.helloRespond e.1 e.2 eph nonce | none => s) s2 s.dict.handshakes
  .next (s.when s.sec.deriving' s3)

/-! Subscriptions (R481, R488). -/

/-- Who reads for a holder. -/
def holderAccess (holder : Nat) : Accessor := if 1024 ≤ holder then .hdp { session := holder - 1024, seq := 0, source := 0, body := [], tag := [] } else .pf0
/-- What a NOTIFY carries: the value, or the items of a block; nothing is removed. -/
def State.noteValue (s : State) (a : Accessor) (index sub last : Nat) : List Byte :=
  if last ≤ sub then (match s.reach a index sub with | .ok (u, f, o) => if o.acc == .wo then [] else (s.takeObject a u sub f o false).2 | .error _ => [])
  else (s.blockItems a index ((List.range 256).filter (fun i => decide (sub ≤ i ∧ i ≤ last)))).2
/-- Set the subscriptions of a holder. -/
def State.setSubs (s : State) (holder : Nat) (l : List Subscription) : State := { s with dict := { s.dict with subs := Table.put [] s.dict.subs holder l } }
/-- SUBSCRIBE: its status, and the state. -/
def State.subscribe (s : State) (a : Accessor) (index sub last interval mode : Nat) : State × Reply :=
  let h := Accessor.holder a
  let rest := (Table.get [] s.dict.subs h).filter (fun x => !(x.index == index && x.sub == sub && x.last == last))
  let st := match a with
    | .vf _ => Status.notSupported
    | _ => if last ≤ sub then (match s.reach a index sub with | .error e => e | .ok (_, _, o) => if o.acc == .wo then Status.writeOnly else Status.ok)
           else s.blockStatus a index ((List.range 256).filter (fun i => decide (sub ≤ i ∧ i ≤ last)))
  if st ≠ Status.ok then (s, { status := st })
  else if mode = 0 then (s.setSubs h rest, {})
  else if 2 < mode ∨ interval < 1000 ∨ 60000000 < interval then (s, { status := Status.range })
  else if 64 ≤ rest.length then (s, { status := Status.subscriptionLimit })
  else
    let x : Subscription := { index := index, sub := sub, last := last, interval := interval, mode := mode, sentAt := s.time.ticks
                              value := s.noteValue a index sub last }
    (s.setSubs h (rest ++ [x]), {})
/-- SUBSCRIBE (R481, R488). -/
def execSubscribe (acc : Accessor) (index sub last interval mode : Nat) (s : State) : Out :=
  let c : Window := { op := 5, index := index, sub := sub, subLast := last, length := 8, buffer := bytesOf 8 (interval * 2 ^ 32 + mode % 4) }
  .next (s.access acc c false (fun s => s.subscribe acc index sub last interval mode))
/-- The header of a NOTIFY (R483). -/
def State.noteHeader (s : State) (x : Subscription) (session len number : Nat) (more : Bool) : List Byte :=
  bytesOf 40 (0x4844 * 2 ^ 304 + 2 ^ 296 + 6 * 2 ^ 288 + (if more then 2 else 0) * 2 ^ 272 + len * 2 ^ 256 + session % 2 ^ 32 * 2 ^ 224
    + x.index * 2 ^ 176 + x.sub * 2 ^ 168 + x.last % 256 * 2 ^ 160 + s.lnc % 2 ^ 64 * 2 ^ 64 + number % 2 ^ 32 * 2 ^ 32)
/-- A NOTIFY leaves for the holder: on the session, or among the 64 that PF0 may hold, the oldest going first. -/
def State.sendNote (s : State) (holder : Nat) (x : Subscription) (v : List Byte) : State :=
  let d := v.take 1416
  let more := decide (1416 < v.length)
  if 1024 ≤ holder then
    (match s.session (holder - 1024) with
     | none => s
     | some y =>
       let n := y.notifySeq + 1
       let head := s.noteHeader x (holder - 1024) d.length n more
       (s.setSession (holder - 1024) { y with notifySeq := n }).emit (.hdp y.source head d (hdpTag y.keyOut (head ++ d))))
  else
    let n := s.dict.noteSeq + 1
    let l := s.dict.notes ++ [s.noteHeader x 0 d.length n more ++ d]
    let l := l.drop (l.length - 64)
    ((({ s with dict := { s.dict with notes := l, noteSeq := n } }).setReg Reg.notifyDepth l.length).deviceEvent)
/-- A subscription is due: its interval has passed and, ON_CHANGE, its value has changed. -/
def State.noteDue (s : State) (holder : Nat) (x : Subscription) : Bool :=
  s.passed x.sentAt (x.interval * 1000) && (x.mode == 2 || s.noteValue (holderAccess holder) x.index x.sub x.last != x.value)
/-- NOTIFY (R488): a due subscription sends its value at the time of sending. -/
def execNotify (holder index sub : Nat) (s : State) : Out :=
  let subs := Table.get [] s.dict.subs holder
  match subs.find? (fun x => x.index == index && x.sub == sub && s.noteDue holder x) with
  | none => .next s
  | some x =>
    let v := s.noteValue (holderAccess holder) index sub x.last
    let l := subs.map (fun y => if y = x then { x with sentAt := s.time.ticks, value := v } else y)
    .next (s.when (decide (holder < 1024) || s.mgUp) ((s.setSubs holder l).sendNote holder x v).fresh)

end Sys2Proof.Machine
end

