-- ==== Sys2Proof/Machine/Reads.lean ====
section
/-! DEFINITION. The rows that read the dictionary (R28, R57, R105, R429, R467, R481, R484, R544), and the reload of an STC copy (R48). -/

set_option linter.unusedVariables false

namespace Sys2Proof.Machine

/-- DICT_READ (R467, R484). -/
def execDictRead (acc : Accessor) (index sub offset : Nat) (s : State) : Out := .next (s.dictRead acc index sub offset)
/-- READ_BLOCK (R484); the recovery service does not answer it (R565). -/
def execReadBlock (acc : Accessor) (index sub last : Nat) (s : State) : Out :=
  .next (s.access acc { op := 3, index := index, sub := sub, subLast := last } false (fun s => s.readBlock acc index sub last))
/-- STC_NOW_READ (R28): latches STC_FRAC and LNC_NOW from the same tick. -/
def execStcNowRead (acc : Accessor) (s : State) : Out := .next (s.dictRead acc 0x2000 0 0)
/-- TC_POP_READ (R57): the oldest capture of time input `n`, 0 to 4. -/
def execTcPopRead (acc : Accessor) (n : Nat) (s : State) : Out := .next (s.when (decide (n < 5)) (s.dictRead acc (0x2110 + n) 2 0))
/-- SNAP_READ (R105): the oldest snapshot record of function `f`; a virtual function reads its own, in its window (R465). -/
def execSnapRead (acc : Accessor) (f : Nat) (s : State) : Out :=
  let index := match acc with | .vf _ => 0xB300 | _ => 0xA000 + f
  .next (s.when (match acc with | .vf n => n == f | _ => decide (f ≤ 512)) (s.dictRead acc index 0xB 0))
/-- STALEMATE_RECORD_READ (R429): the oldest wait-graph record, from an offset. -/
def execStalemateRecordRead (acc : Accessor) (offset : Nat) (s : State) : Out := .next (s.dictRead acc 0x4900 3 offset)
/-- LOG_POP_READ (R525, R544). -/
def execLogPopRead (acc : Accessor) (s : State) : Out := .next (s.dictRead acc 0x8100 1 0)
/-- NOTIFY_POP_READ (R481). -/
def execNotifyPopRead (acc : Accessor) (s : State) : Out := .next (s.dictRead acc 0x1020 1 0)

/-- STC_COPY_RELOAD (R48, R517): a copy beyond ±2 ns of the master is a corrected error, and the master reloads it. -/
def execStcCopyReload (copy : Nat) (offsetPs : Int) (s : State) : Out :=
  let s1 := { s with time := { s.time with copies := Table.put 0 s.time.copies copy 0 } }
  .next (s.when (decide (copy < 9 ∧ (offsetPs < -2000 ∨ 2000 < offsetPs)))
    (s1.logError { klass := 0, unit := 11, code := 9, cluster := copy, detail := unsigned 64 offsetPs }))

end Sys2Proof.Machine
end

