-- ==== Sys2Proof/Machine/Startup.lean ====
section
/-! DEFINITION. Start-up (R475, R476, R556 to R560, R564, R595): the ROM's choice of a bank set, the opening book, SERVING. -/

set_option linter.unusedVariables false

namespace Sys2Proof.Machine

/-! The opening book (R475, R476). -/

/-- The first failing item is recorded, and the book reads PARTIAL. -/
def State.bookFails (s : State) (index sub status : Nat) : State :=
  let s := if s.reg Reg.bookFailItem = 0 then s.setReg Reg.bookFailItem (index * 65536 + sub * 256 + status : Nat) else s
  s.setReg Reg.bookStatus 1
/-- Steps 3 and 5 of R467 for an item of the book. A named LNC is not asked for, nothing is committed, and no rate limit holds. -/
def State.bookCheck (s : State) (o : ObjDef) (index sub : Nat) (d : WData) : Except (Nat × State) WData :=
  match s.checkValue index sub 0 o d (s.lnc + 1) with
  | .error e => .error (e, s)
  | .ok v =>
    if (match v with | .bytes bs => s.blockBad index sub bs | .num _ _ => false) then .error (Status.range, s)
    else match s.ownRule .pf0 index sub 0 (s.lnc + 1) v (s.factsOf .pf0 index sub) with
      | some t => .error (Status.refused, t)
      | none => .ok v
/-- The value holds. Field port, peers and the time source take it without the effects of a write: sessions stay (R489), and the servo
selects its source once the book is whole (R556). -/
def State.bookTake (s : State) (index sub : Nat) (v : WData) : State :=
  let k := key index sub
  if index < 0x2000 ∨ index = 0x2002 ∨ 0x9000 ≤ index then (match v with | .num _ x => s.setReg k x | .bytes bs => s.setBlob k bs)
  else s.applyWrite { key := k, data := v, lnc := s.lnc, named := false, holder := 0, info := s.factsOf .pf0 index sub }
/-- One committed value. -/
def State.bookItem (s : State) (k : Nat) (d : WData) : State :=
  let index := k / 256 % 65536
  let sub := k % 256
  match findObj index sub with
  | none => s
  | some o =>
    if o.acc != .rwp then s
    else match s.bookCheck o index sub d with
      | .error (e, t) => t.bookFails index sub e
      | .ok v => s.bookTake index sub v
/-- One item of the script. -/
def State.scriptItem (s : State) (e : Nat × Nat × Nat × List Byte) : State :=
  let index := e.1
  let sub := e.2.1
  if !indexExists index then s.bookFails index sub Status.noObject
  else match findObj index sub with
    | none => s.bookFails index sub Status.noSubindex
    | some o =>
      if o.acc != .rw then s.bookFails index sub Status.readOnly
      else if o.ty.code ≠ e.2.2.1 then s.bookFails index sub Status.typeMismatch
      else match s.bookCheck o index sub (o.ty.decode e.2.2.2) with
        | .error (r, t) => t.bookFails index sub r
        | .ok v => (s.bookTake index sub v).fresh
/-- Every RWP object of the tables with its key, in ascending index and then subindex. -/
def bookObjects : List (Nat × ObjDef) :=
  (objectTable.filter (fun o => o.acc == .rwp)).foldl (fun t o => (List.range o.count).foldl (fun t i => Table.insert t (key (o.base + i) o.sub) o) t) ([] : Table ObjDef)
/-- BOOK_DIGEST (R595). -/
def State.bookDigestNow (s : State) : List Byte :=
  Config.sha512 (bookObjects.flatMap (fun e =>
    let v := if e.2.ty.isBytes then s.blob e.1 else e.2.ty.bytes (s.reg e.1)
    bytesOf 8 (e.1 / 256 * 2 ^ 48 + e.1 % 256 * 2 ^ 40 + e.2.ty.code * 2 ^ 32 + v.length) ++ v ++ zeros ((8 - v.length % 8) % 8)))
/-- The servo's source after the book (R31, R495, R556): FREERUN acquires; another state keeps on until the source is there. -/
def State.bookSource (s : State) : State :=
  let v := s.regN Reg.timeSource
  if v = 0 ∨ s.reg Reg.timeState = 0 then s.selectSource v
  else ({ s with time := { s.time with available := false, selectedAt := s.time.ticks, lastUpdate := s.time.ticks } }).markBench v
/-- The opening book is applied. -/
def State.applyBook (s : State) : State :=
  let s := (s.setReg Reg.bookStatus 0).setReg Reg.bookFailItem 0
  let s := List.foldl (fun (s : State) (e : Nat × WData) => s.bookItem e.1 e.2) s s.dict.store
  let s := ((bookItems (s.blob Reg.bookScript).length (s.blob Reg.bookScript)).getD []).foldl State.scriptItem s
  let s := s.bookSource
  let s := { s with mem := { s.mem with devices := s.regN Reg.gddr7Devices, rate := s.regN Reg.gddr7Rate } }
  let s := if s.reg Reg.mgMode ≠ 0 then s.setDomain 37 true else s
  (s.setBlob Reg.bookDigest s.bookDigestNow).rederive

/-! Verification (R556, R559, R564, R565). -/

/-- The images of a set run: CONTROL at once, CONDUCTOR and ENGINE in every cluster, AON only from a power-on reset on. -/
def State.runSet (s : State) (l : List FwImage) : State :=
  let put := fun (t : Table FwImage) (k y : Nat) => match ofType l y with | some i => Table.insert t k i | none => t
  let r := put s.sec.running 2 2
  let r := (List.range 8).foldl (fun t n => put (put t (48 + n) 3) (64 + n) 4) r
  let r := if s.reg Reg.lastReset = 0 ∨ !Table.has s.sec.running 1 then put r 1 1 else r
  { s with sec := { s.sec with running := r } }
/-- Neither set passes: BOOT_FAILED, and the recovery service on the field port. -/
def State.bootFails (s : State) : State :=
  let s := s.setReg Reg.startupStage 16
  if s.bootNum Reg.mgMode 1 ≠ 0 then s.setDomain 37 true else s
/-- STARTUP_VERIFY_DONE (R556, R564): the active bank set, else the whole other one. `a` and `b` are the bytes that the banks hold
where the model has seen none written (log entry 14). CT0 and CT1 start, and the book is applied. -/
def execStartupVerifyDone (a b : List Byte) (s : State) : Out :=
  let s0 : State := if s.sec.banks.isEmpty then { s with sec := { s.sec with banks := [(0, bundleOf a), (1, bundleOf b)] } } else s
  let n := s0.sec.bank
  let start := fun (k : Nat) =>
    let s1 := ({ s0 with sec := { s0.sec with bank := k } }).runSet (s0.bank k)
    (((s1.setDomain 38 true).setDomain 39 true).setReg Reg.startupStage 2).applyBook
  .next (s.when (s.reg Reg.startupStage == 1)
    (if s0.setOk (s0.bank n) then start n else if s0.setOk (s0.bank (1 - n)) then start (1 - n) else s0.bootFails))

/-! SERVING (R9, R64, R528, R532, R556). -/

/-- The tiles of a cluster at start-up: the first 60 positions that are not retired. -/
def State.activeTiles (s : State) (k : Nat) : List Nat := (s.usablePositions k).take 60
/-- Clusters are powered with their tiles at T4 (R556); the pool holds every active tile; spares are counted. -/
def State.powerClusters (s : State) : State :=
  let tiles := (List.range 8).flatMap s.activeTiles
  let s := (List.range 16).foldl (fun s b => s.setDomain b true) s
  let s := { s with tiles := tiles.foldl (fun t p => Table.upd {} t p (fun x => { x with sleep := 4 })) s.tiles }
  let s := s.setPart 0 { tiles := tiles }
  (List.range 8).foldl State.countSpares (s.setReg Reg.degraded 0)
/-- CHIP_CONTROL_SERVING (R556): once GDDR7 has trained or failed to (R371). -/
def execChipControlServing (s : State) : Out :=
  let s1 := ((s.powerClusters.hearQuad).setReg Reg.startupStage 3).setReg Reg.readyLnc s.lnc
  .next (s.when (s.reg Reg.startupStage == 2 && s.reg Reg.trainStatus != 0)
    (if s1.reg Reg.resetStatus = 1 then s1.setReg Reg.resetStatus 2 else s1))

end Sys2Proof.Machine
end

