-- ==== Sys2Proof/Machine/Bar.lean ====
section
/-! DEFINITION. What a read of BAR0 shows beside the dictionary window (R433, R434): the status block. -/

set_option linter.unusedVariables false

namespace Sys2Proof.Machine

/-- CHIP_HEALTH: the greatest of the conditions that hold (log entry 64). -/
def State.chipHealth (s : State) : Nat :=
  if s.reg Reg.powerState = 2 then 3 else if s.reg Reg.capUnmet = 1 then 2 else if s.reg Reg.degraded = 1 then 1 else 0
/-- RINGS_FAULTED: bit r, ring r of the function has a RING_STATUS other than 0 or 1. -/
def State.ringsFaulted (s : State) (f : Nat) : Nat :=
  ((List.range 64).map (fun r => if s.reg (Reg.ringStatus f r) ≠ 0 ∧ s.reg (Reg.ringStatus f r) ≠ 1 then 2 ^ r else 0)).sum
/-- The 32 bytes of the status block of a function; the rest of its 4 KiB reads 0. -/
def State.statusBlock (s : State) (f : Nat) : List Byte :=
  bytesOf 32 (s.lnc % 2 ^ 64 * 2 ^ 192 + s.regN (Reg.functionState f) * 2 ^ 184 + s.regN Reg.timeState * 2 ^ 176 + s.regN Reg.benchGrade * 2 ^ 168
    + s.chipHealth * 2 ^ 160 + s.ringsFaulted f * 2 ^ 96 + s.regN Reg.bootCount * 2 ^ 64)

end Sys2Proof.Machine
end

