-- ==== Sys2Proof/Machine/Switch.lean ====
section
/-! DEFINITION. Save and restore of a rank (R74, R77, R78, R82, R83, R194, R195): what happens to its move in progress, to its stage and to
its remote operations. -/

set_option linter.unusedVariables false

namespace Sys2Proof.Machine

/-- Across a preemption the reads of a rank that wait for an answer are not kept: they are issued again on resume (R83). -/
def State.forgetReads (s : State) (n rank : Nat) : State :=
  let read := fun (r : Request) => r.ofRun (runKey n rank) && r.packet.opcode == 3
  let gone := (s.fabric.requests ++ s.fabric.waiting).filter (fun (e : Nat × Request) => read e.2)
  let k := s.task n
  let again := gone.filterMap (fun (e : Nat × Request) => match e.2.sink with | .atomic _ a => some (rank, a, e.2.packet) | _ => none)
  ({ s with fabric := { s.fabric with
    requests := s.fabric.requests.filter (fun (e : Nat × Request) => !read e.2)
    waiting := s.fabric.waiting.filter (fun (e : Nat × Request) => !read e.2) } }).setTask n { k with again := k.again ++ again }
/-- A move in progress stops at its next 256-byte boundary (R195): of one that reads this tile's SRAM so many blocks have been read as
the time allowed, a free number (log entry 154). -/
def Tile.stopMove (t : Tile) (free : Nat) : Tile :=
  match t.live.moves with
  | [] => t
  | op :: r =>
    let m := moveCmd op.desc
    let n := min m.srcBytes (op.data.length + 256 * Config.freeNat free)
    if op.written || m.srcVa || m.mode == 1 then t
    else { t with live := { t.live with moves := { op with data := op.data ++ t.read (m.src + op.data.length) (n - op.data.length) } :: r } }
/-- PREEMPTION_POINT_TAKEN (R76, R77, R82, R194, R195): at a preemption point, or at once for a task that waits on a remote chip,
the save begins. -/
def execPreemptionPointTaken (tile : Nat) (s : State) : Out :=
  let t := s.tile tile
  let k := s.task (t.task - 1)
  .next (s.when (t.preempt && decide (t.task ≠ 0 ∧ t.switching = 0) && (t.atPoint || s.waitsRemote tile))
    (((s.forgetReads (t.task - 1) t.rank).noteRemote (t.task - 1)).setTile tile
      { t.stopMove s.free with switching := 1, switchLeft := saveTenths k, preempt := false }).fresh)

/-- A borrower's live state is written to its save area (R74), whose layout is not given: free bytes (log entry 87). -/
def State.fillSaveArea (s : State) (tile bytes : Nat) : State :=
  (s.updTile tile (fun t => t.write saveAreaBase ((List.range (min bytes 8704)).map (Config.freeByte s.free)))).fresh

/-- On resume the replies in the task's reply slot are delivered, the reads that were given up are issued again, and the ATOMIC list goes
on (R83). -/
def State.resumeRemote (s : State) (n rank : Nat) : State :=
  let k := s.task n
  let mine := k.replies.filter (fun e => e.1 == rank)
  let reads := k.again.filter (fun e => e.1 == rank)
  let s := s.setTask n { k with replies := k.replies.filter (fun e => e.1 != rank), again := k.again.filter (fun e => e.1 != rank) }
  let s := mine.foldl (fun s e => s.atomicDone (runKey n rank) e.2.1 e.2.2.1 e.2.2.2) s
  let s := reads.foldl (fun s e => s.ask e.2.2 k.ctx (.atomic (runKey n rank) e.2.1)) s
  (issueEntries 64 s (runKey n rank)).noteRemote n

/-- The waves in the stage that are the rank's own are saved with it and leave the stage (R139). -/
def Tile.saveLive (t : Tile) (inv : Nat) : Live :=
  { t.live with streamB := t.streamB.filter (fun e => e.owner == inv), streamMv := t.streamMv.filter (fun e => e.owner == inv) }

/-- SWITCH_COMPLETE (R74, R77, R78, R195): a save keeps the rank's live state and frees the tile, which runs the task chosen for it;
a restore lets the rank go on. -/
def execSwitchComplete (tile : Nat) (s : State) : Out :=
  let t := s.tile tile
  let n := t.task - 1
  let k := s.task n
  let kept := if t.borrower = n + 1 then s.fillSaveArea tile k.stateBytes else s
  let u := (kept.tile tile).freed
  let left := { u with streamB := u.streamB.filter (fun e => e.owner != k.inv), streamMv := u.streamMv.filter (fun e => e.owner != k.inv) }
  let saved := ((kept.setTask n { k with saves := Table.insert k.saves t.rank (t.saveLive k.inv), preempts := k.preempts + 1 }).setTile tile left).noteSuspended n
  let run := if t.next = 0 then saved
    else match (saved.openRanks (t.next - 1) (saved.task (t.next - 1))).find? (fun r => r.2 == tile) with
      | some r => saved.tryRank (t.next - 1) r.1 tile
      | none => saved
  let restored := ((s.setTask n { k with saves := Table.erase k.saves t.rank }).setTile tile { t with switching := 0 }).resumeRemote n t.rank
  .next (s.when (decide (t.switching ≠ 0 ∧ t.switchLeft = 0)) (if t.switching = 1 then run else restored))

/-- BORROWER_SAVE_OVERRUN (R79): one launch quantum before the radio launch an unfinished save is given up; the borrower restarts
from its beginning and its preemption count includes the run. A borrower that is a virtual tile of an invocation (R250) takes the invocation
with it. -/
def execBorrowerSaveOverrun (tile : Nat) (s : State) : Out :=
  let t := s.tile tile
  let n := t.task - 1
  let k := s.task n
  let near := match s.nextRadio tile with | some x => decide (x ≤ s.lnc + 1) | none => false
  let again := if k.inv = 0 then (((s.setTask n { k with saves := [], started := [], halted := [], replies := [], again := [], status := .suspended, preempts := k.preempts + 1 }).setTile tile t.freed).dropRuns n)
    else (s.restartInv (k.inv - 1)).updTask n (fun x => { x with preempts := k.preempts + 1 })
  .next (s.when (decide (t.borrower ≠ 0 ∧ t.task = t.borrower) && (t.preempt || t.switching == 1) && near)
    again)

end Sys2Proof.Machine
end

