-- ==== Sys2Proof/Machine/VsAccum.lean ====
section
/-! DEFINITION. A-class instructions (R127, R182, R188): one meaning each. -/

set_option linter.unusedVariables false

namespace Sys2Proof.Machine


/-- Write saturated parts to an accumulator with the flag (R182). -/
def Vs.putAcc (x : Vs) (ad : Nat) (l : List (Int × Bool)) : Vs := (x.setA ad (ofAcc (l.map (fun p => p.1)))).flag false (anySat l)
/-- Part by part sum of two lists, saturated to 40 bits (R182). -/
def accSum (a b : List Int) : List (Int × Bool) := (List.range 64).map (fun i => satBits 40 (a.getD i 0 + b.getD i 0))

/-- ASUM: lanes added in ascending order from 0, each addition saturated, real and imaginary parts apart (R188, R209). -/
def accFold (l : List Int) : Int × Bool :=
  l.foldl (fun (a : Int × Bool) c => let r := satBits 40 (a.1 + c); (r.1, a.2 || r.2)) (0, false)

/-- ACLR (R188). -/
def execAclr (tile : Nat) (f : AFields) (s : State) : Out :=
  .next (vsRun s tile (aCode 0x00 f) (vsRegs (fun x => x.setA f.ad 0)))
/-- ALOAD: VA × 2¹⁵, exact (R188). -/
def execAload (tile : Nat) (f : AFields) (s : State) : Out :=
  .next (vsRun s tile (aCode 0x01 f) (vsRegs (fun x => x.setA f.ad (ofAcc ((parts16 (x.getV f.va)).map (fun c => c * 32768))))))
/-- AMUL: AD = p (R182). -/
def execAmul (tile : Nat) (f : AFields) (s : State) : Out :=
  .next (vsRun s tile (aCode 0x02 f) (vsRegs (fun x => x.setA f.ad (ofAcc (laneProducts f.lmode f.conj (x.getV f.va) (x.getV f.vb))))))
/-- AMAC: AD = AD + p, saturated (R182). -/
def execAmac (tile : Nat) (f : AFields) (s : State) : Out :=
  .next (vsRun s tile (aCode 0x03 f) (vsRegs (fun x => x.putAcc f.ad (accSum (accParts (x.getA f.ad)) (laneProducts f.lmode f.conj (x.getV f.va) (x.getV f.vb))))))
/-- AMSU: AD = AD − p, saturated (R182). -/
def execAmsu (tile : Nat) (f : AFields) (s : State) : Out :=
  .next (vsRun s tile (aCode 0x04 f) (vsRegs (fun x => x.putAcc f.ad (accSum (accParts (x.getA f.ad)) ((laneProducts f.lmode f.conj (x.getV f.va) (x.getV f.vb)).map (fun p => -p))))))
/-- AADD: AD = AD + AS, saturated (R182). -/
def execAadd (tile : Nat) (f : AFields) (s : State) : Out :=
  .next (vsRun s tile (aCode 0x05 f) (vsRegs (fun x => x.putAcc f.ad (accSum (accParts (x.getA f.ad)) (accParts (x.getA f.as))))))
/-- ASUM: lane 0 of AD = the sum of all lanes of AS (R188). -/
def execAsum (tile : Nat) (f : AFields) (s : State) : Out :=
  .next (vsRun s tile (aCode 0x06 f) (vsRegs (fun x => x.putAcc f.ad (accFold ((List.range 32).map (fun k => acc40 (x.getA f.as) (2 * k))) :: accFold ((List.range 32).map (fun k => acc40 (x.getA f.as) (2 * k + 1))) :: List.replicate 62 (0, false)))))
/-- ANRW: VD = narrowed AS (R127). -/
def execAnrw (tile : Nat) (f : AFields) (s : State) : Out :=
  .next (vsRun s tile (aCode 0x07 f) (vsRegs (fun x => let l := (accParts (x.getA f.as)).map (fun c => narrowQ30 c f.shift); (x.setV f.vd (ofParts (l.map (fun p => p.1)))).flag false (anySat l))))

end Sys2Proof.Machine
end

