-- ==== Sys2Proof/Machine/VsMemory.lean ====
section
/-! DEFINITION. M-class instructions (R183 to R185, R188): one meaning each. -/

set_option linter.unusedVariables false

namespace Sys2Proof.Machine


/-- A load: nothing is read when the access faults (R185). -/
def vsLoad (f : MFields) (size : Nat) (g : Vs → Nat → Vs) (t : Tile) : Except Nat Tile :=
  match checkedAddrs t t.ctx f size with
  | .error e => .error e
  | .ok l =>
    let v := natOf (l.map t.byte)
    .ok ({ t with live := { t.live with vs := accessUpdate (g t.live.vs v) f } }).retire

/-- A load runs; one that may run and reads a poisoned word ends in a contained error of its task (R369). -/
def vsLoadRun (s : State) (tile : Nat) (i : VsCode) (f : MFields) (size : Nat) (g : Vs → Nat → Vs) : State :=
  let t := s.tile tile
  let bad := match checkedAddrs t t.ctx f size with | .ok l => l.any (fun a => t.poison.contains (a / 8)) | .error _ => false
  if s.vsReady tile && s.fetches tile i && !s.pastCode tile && i.legal && !(s.bounded t && t.pastBound) && bad then
    s.containedTile tile 1 2 (match checkedAddrs t t.ctx f size with | .ok (a :: _) => a | _ => 0)
  else vsRun s tile i (vsLoad f size g)

/-- A store: nothing is written when the access faults (R185). The spec signals no completion for it on the local sync port (R164); its
bytes are visible to every unit once it retires (DESIGN CHOICE, log entry 144). -/
def vsStore (f : MFields) (size : Nat) (v : Vs → Nat) (t : Tile) : Except Nat Tile :=
  match checkedAddrs t t.ctx f size with
  | .error e => .error e
  | .ok l =>
    let t' := t.scatter (l.zip (bytesOf size (v t.live.vs)))
    .ok ({ t' with live := { t'.live with vs := accessUpdate t'.live.vs f } }).retire

/-- The address register that RD names: kind [46:45] and index (R187). -/
def vsAset (f : MFields) (x : Vs) : Vs :=
  let v := x.getS (f.imm32 % 16)
  let i := f.rd % 8
  match f.rd / 8 % 4 with
  | 0 => x.setP i (v.setWidth 32)
  | 1 => x.setQ i (v.setWidth 16)
  | 2 => x.setB i (v.setWidth 32)
  | _ => x.setN i (v.setWidth 16)
/-- S = address register, zero-extended (R188). -/
def vsAget (f : MFields) (x : Vs) : Vs :=
  let i := f.rd % 8
  x.setS (f.imm32 % 16) (match f.rd / 8 % 4 with
    | 0 => (x.getP i).setWidth 64
    | 1 => (x.getQ i).setWidth 64
    | 2 => (x.getB i).setWidth 64
    | _ => (x.getN i).setWidth 64)

/-- VLD: V[RD] = 128 bytes at ea (R183, R188). -/
def execVld (tile : Nat) (f : MFields) (s : State) : Out :=
  .next (vsLoadRun s tile (mCode 0x01 f) f 128 (fun x v => x.setV f.rd (BitVec.ofNat 1024 v)))
/-- VST: 128 bytes at ea = V[RD] (R183, R188). -/
def execVst (tile : Nat) (f : MFields) (s : State) : Out :=
  .next (vsRun s tile (mCode 0x02 f) (vsStore f 128 (fun x => (x.getV f.rd).toNat)))
/-- SLD: S[RD] = 8 bytes at ea (R183, R188). -/
def execSld (tile : Nat) (f : MFields) (s : State) : Out :=
  .next (vsLoadRun s tile (mCode 0x03 f) f 8 (fun x v => x.setS f.rd (BitVec.ofNat 64 v)))
/-- SST: 8 bytes at ea = S[RD] (R183, R188). -/
def execSst (tile : Nat) (f : MFields) (s : State) : Out :=
  .next (vsRun s tile (mCode 0x04 f) (vsStore f 8 (fun x => (x.getS f.rd).toNat)))
/-- SLI: S[RD] = sign-extended IMM32 (R188). -/
def execSli (tile : Nat) (f : MFields) (s : State) : Out :=
  .next (vsRun s tile (mCode 0x05 f) (vsRegs (fun x => x.setS f.rd (BitVec.ofInt 64 (signed 32 f.imm32)))))
/-- SLIH: S[RD][63:32] = IMM32 (R188). -/
def execSlih (tile : Nat) (f : MFields) (s : State) : Out :=
  .next (vsRun s tile (mCode 0x06 f) (vsRegs (fun x => x.setS f.rd (BitVec.ofNat 64 ((x.getS f.rd).toNat % 4294967296 + f.imm32 * 4294967296)))))
/-- ASET: address register RD = low bits of S (R188). -/
def execAset (tile : Nat) (f : MFields) (s : State) : Out :=
  .next (vsRun s tile (mCode 0x07 f) (vsRegs (vsAset f)))
/-- AGET (R188). -/
def execAget (tile : Nat) (f : MFields) (s : State) : Out :=
  .next (vsRun s tile (mCode 0x08 f) (vsRegs (vsAget f)))
/-- PADDI: P[PK] = P[PK] + IMM32, no access (R188). -/
def execPaddi (tile : Nat) (f : MFields) (s : State) : Out :=
  .next (vsRun s tile (mCode 0x09 f) (vsRegs (fun x => x.setP f.pk (BitVec.ofNat 32 ((x.getP f.pk).toNat + f.imm32)))))

end Sys2Proof.Machine
end

