-- ==== Sys2Proof/Machine/VsVector.lean ====
section
/-! DEFINITION. V-class instructions (R180, R181, R188, R200): one meaning each. -/

set_option linter.unusedVariables false

namespace Sys2Proof.Machine


/-- Write parts to VD with the SATURATED flag of their narrowing (R181). -/
def Vs.putParts (x : Vs) (vd : Nat) (l : List (Int × Bool)) : Vs := (x.setV vd (ofParts (l.map (fun p => p.1)))).flag false (anySat l)
/-- Write FP32 results to VD with their flags (R135). -/
def Vs.putFp (x : Vs) (vd : Nat) (l : List Res) : Vs :=
  (x.setV vd (ofLanes (l.map (fun r => r.code)))).flag (anyInvalid l) (anySaturated l)
/-- FP32 lane by lane. -/
def fpLanes (g : Nat → Nat → Res) (a b : VecReg) : List Res := (List.range 32).map (fun k => g (elem 32 a k) (elem 32 b k))

/-- VADD or VSUB: sign +1 or −1 on b; the sum narrowed with SHIFT, or FP32 (R181, R188). -/
def vsAddSub (neg : Bool) (f : VFields) (x : Vs) : Vs :=
  let a := x.getV f.va
  let b := x.getV f.vb
  if f.lmode = 2 then x.putFp f.vd (fpLanes (if neg then fp32Sub else fp32Add) a b)
  else x.putParts f.vd ((List.range 64).map (fun i =>
    narrowQ30 ((part16 a i + (if neg then -part16 b i else part16 b i)) * 32768) f.shift))

/-- VMUL: lane products narrowed, or FP32 (R180, R181). -/
def vsMul (f : VFields) (x : Vs) : Vs :=
  if f.lmode = 2 then x.putFp f.vd (fpLanes fp32Mul (x.getV f.va) (x.getV f.vb))
  else x.putParts f.vd ((laneProducts f.lmode f.conj (x.getV f.va) (x.getV f.vb)).map (fun p => narrowQ30 p f.shift))

/-- VROTJ: times j^k, exact; a negated −32,768 saturates (R188). -/
def vsRotj (f : VFields) (x : Vs) : Vs :=
  let a := x.getV f.va
  x.putParts f.vd ((List.range 64).map (fun i =>
    let re := part16 a (2 * (i / 2))
    let im := part16 a (2 * (i / 2) + 1)
    sat16 (match f.imm16 % 4, i % 2 with
      | 0, 0 => re | 0, _ => im
      | 1, 0 => -im | 1, _ => re
      | 2, 0 => -re | 2, _ => -im
      | _, 0 => im | _, _ => -re)))

/-- VSHR and VSHRS: floor of each part by 2^n (R188). -/
def vsShr (vd va n : Nat) (x : Vs) : Vs := x.setV vd (ofParts ((parts16 (x.getV va)).map (fun c => shrFloor c n)))
/-- VSHL: saturating left shift (R188). -/
def vsShl (f : VFields) (x : Vs) : Vs := x.putParts f.vd ((parts16 (x.getV f.va)).map (fun c => sat16 (c * (2 ^ f.shift : Nat))))

/-- VMAX or VMIN (R188). -/
def vsMaxMin (fp : Nat → Nat → Nat) (int : Int → Int → Int) (f : VFields) (x : Vs) : Vs :=
  let a := x.getV f.va
  let b := x.getV f.vb
  if f.lmode = 2 then x.setV f.vd (ofLanes ((List.range 32).map (fun k => fp (elem 32 a k) (elem 32 b k))))
  else x.setV f.vd (ofParts ((List.range 64).map (fun i => int (part16 a i) (part16 b i))))

/-- VMAG2: real part narrowed ar² + ai², imaginary 0 (R181, R188). -/
def vsMag2 (f : VFields) (x : Vs) : Vs :=
  let a := x.getV f.va
  x.putParts f.vd ((List.range 64).map (fun i =>
    if i % 2 = 1 then (0, false) else narrowQ30 (part16 a i * part16 a i + part16 a (i + 1) * part16 a (i + 1)) f.shift))

/-- VSEL (R188). -/
def vsSel (f : VFields) (x : Vs) : Vs :=
  let m := (x.getS f.vc).toNat
  x.setV f.vd (ofLanes ((List.range 32).map (fun k => elem 32 (if bit m k then x.getV f.va else x.getV f.vb) k)))

/-- VPERM (R188). -/
def vsPerm (f : VFields) (x : Vs) : Vs :=
  x.setV f.vd (ofLanes ((List.range 32).map (fun k =>
    let i := elem 32 (x.getV f.vc) k % 64
    if i < 32 then elem 32 (x.getV f.va) i else elem 32 (x.getV f.vb) (i - 32))))

/-- VBCAST (R188). -/
def vsBcast (f : VFields) (x : Vs) : Vs := x.setV f.vd (ofLanes (List.replicate 32 ((x.getS f.vc).toNat % 4294967296)))

/-- r of R200 over the group. -/
def groupSigns (f : VFields) (x : Vs) : Nat :=
  ((List.range (f.imm16 % 16)).flatMap (fun i => (parts16 (x.getV (f.va + i))).map redundantSigns)).foldl min 15

/-- VCMPGT (R188). -/
def vsCmpgt (f : VFields) (x : Vs) : Vs :=
  let a := x.getV f.va
  let b := x.getV f.vb
  let l := if f.lmode = 2 then (List.range 32).map (fun k => fp32Gt (elem 32 a k) (elem 32 b k))
           else (List.range 64).map (fun i => decide (part16 a i > part16 b i))
  x.setS f.vd (BitVec.ofNat 64 (packNat 1 (l.map (fun t => if t then 1 else 0))))

/-- A scalar used as an exponent, kept within ±1,000: beyond that every FP32 and CI16 result is the same. -/
def expOf (w : Word64) : Int := (satRange (-1000) 1000 w.toInt).1

/-- VTOF: lanes 16h to 16h + 15 as FP32 (R188). -/
def vsTof (f : VFields) (x : Vs) : Vs :=
  let h := f.imm16 % 2
  let e := expOf (x.getS f.vc) - 15
  x.putFp f.vd ((List.range 32).map (fun i => encodeFloat fp32 (numOfInt (part16 (x.getV f.va) (32 * h + i)) e)))

/-- VTOI: values narrowed into lanes 16h to 16h + 15, the other lanes unchanged (R188, R114, R115). -/
def vsToi (f : VFields) (x : Vs) : Vs :=
  let h := f.imm16 % 2
  let e := 15 - expOf (x.getS f.vc)
  let r := (List.range 32).map (fun i => encodeInt 16 e (decodeFloat fp32 (elem 32 (x.getV f.va) i)))
  let old := (parts16 (x.getV f.vd)).map (unsigned 16)
  let new := if h = 0 then r.map (fun q => q.code) ++ old.drop 32 else old.take 32 ++ r.map (fun q => q.code)
  (x.setV f.vd (BitVec.ofNat 1024 (packNat 16 new))).flag (anyInvalid r) (anySaturated r)

/-- NOP: the all-zero word, no effect (R188). -/
def execNop (tile : Nat) (f : VFields) (s : State) : Out :=
  .next (vsRun s tile (vCode 0x00 f) (vsRegs (fun x => x)))
/-- VADD (R188). -/
def execVadd (tile : Nat) (f : VFields) (s : State) : Out :=
  .next (vsRun s tile (vCode 0x01 f) (vsRegs (vsAddSub false f)))
/-- VSUB (R188). -/
def execVsub (tile : Nat) (f : VFields) (s : State) : Out :=
  .next (vsRun s tile (vCode 0x02 f) (vsRegs (vsAddSub true f)))
/-- VMUL (R188). -/
def execVmul (tile : Nat) (f : VFields) (s : State) : Out :=
  .next (vsRun s tile (vCode 0x03 f) (vsRegs (vsMul f)))
/-- VROTJ (R188). -/
def execVrotj (tile : Nat) (f : VFields) (s : State) : Out :=
  .next (vsRun s tile (vCode 0x04 f) (vsRegs (vsRotj f)))
/-- VSHR (R188). -/
def execVshr (tile : Nat) (f : VFields) (s : State) : Out :=
  .next (vsRun s tile (vCode 0x05 f) (vsRegs (fun x => vsShr f.vd f.va f.shift x)))
/-- VSHRS: by S[VC] mod 16 (R188). -/
def execVshrs (tile : Nat) (f : VFields) (s : State) : Out :=
  .next (vsRun s tile (vCode 0x06 f) (vsRegs (fun x => vsShr f.vd f.va ((x.getS f.vc).toNat % 16) x)))
/-- VSHL (R188). -/
def execVshl (tile : Nat) (f : VFields) (s : State) : Out :=
  .next (vsRun s tile (vCode 0x07 f) (vsRegs (vsShl f)))
/-- VMAX (R188). -/
def execVmax (tile : Nat) (f : VFields) (s : State) : Out :=
  .next (vsRun s tile (vCode 0x08 f) (vsRegs (vsMaxMin fp32Max max f)))
/-- VMIN (R188). -/
def execVmin (tile : Nat) (f : VFields) (s : State) : Out :=
  .next (vsRun s tile (vCode 0x09 f) (vsRegs (vsMaxMin fp32Min min f)))
/-- VMAG2 (R188). -/
def execVmag2 (tile : Nat) (f : VFields) (s : State) : Out :=
  .next (vsRun s tile (vCode 0x0A f) (vsRegs (vsMag2 f)))
/-- VSEL (R188). -/
def execVsel (tile : Nat) (f : VFields) (s : State) : Out :=
  .next (vsRun s tile (vCode 0x0B f) (vsRegs (vsSel f)))
/-- VPERM (R188). -/
def execVperm (tile : Nat) (f : VFields) (s : State) : Out :=
  .next (vsRun s tile (vCode 0x0C f) (vsRegs (vsPerm f)))
/-- VBCAST (R188). -/
def execVbcast (tile : Nat) (f : VFields) (s : State) : Out :=
  .next (vsRun s tile (vCode 0x0D f) (vsRegs (vsBcast f)))
/-- VBEXP: S[VD] = r (R200). -/
def execVbexp (tile : Nat) (f : VFields) (s : State) : Out :=
  .next (vsRun s tile (vCode 0x0E f) (vsRegs (fun x => x.setS f.vd (BitVec.ofNat 64 (groupSigns f x)))))
/-- VBSCL: S[VD] = max(0, guard − r) (R200). -/
def execVbscl (tile : Nat) (f : VFields) (s : State) : Out :=
  .next (vsRun s tile (vCode 0x0F f) (vsRegs (fun x => x.setS f.vd (BitVec.ofNat 64 (f.imm16 / 256 % 16 - groupSigns f x)))))
/-- VCMPGT (R188). -/
def execVcmpgt (tile : Nat) (f : VFields) (s : State) : Out :=
  .next (vsRun s tile (vCode 0x10 f) (vsRegs (vsCmpgt f)))
/-- VTOF (R188). -/
def execVtof (tile : Nat) (f : VFields) (s : State) : Out :=
  .next (vsRun s tile (vCode 0x11 f) (vsRegs (vsTof f)))
/-- VTOI (R188). -/
def execVtoi (tile : Nat) (f : VFields) (s : State) : Out :=
  .next (vsRun s tile (vCode 0x12 f) (vsRegs (vsToi f)))

end Sys2Proof.Machine
end

