-- ==== Sys2Proof/Machine/Dispatch.lean ====
section
/-! DEFINITION. The one dispatch: each command to its meaning. -/

namespace Sys2Proof.Machine

/-- The effect of a command on everything but the queue. -/
def exec (i : Instr) (s : State) : Host.Outcome State Fault Refusal :=
  match i with
  | .registerWrite w index sub => Sys2Proof.Machine.execRegisterWrite w index sub s
  | .pendingWriteApply key => Sys2Proof.Machine.execPendingWriteApply key s
  | .stcNowRead acc => Sys2Proof.Machine.execStcNowRead acc s
  | .incrementWrite w => Sys2Proof.Machine.execIncrementWrite w s
  | .timeSourceWrite w => Sys2Proof.Machine.execTimeSourceWrite w s
  | .stepRequest w => Sys2Proof.Machine.execStepRequest w s
  | .ppsTodWrite w => Sys2Proof.Machine.execPpsTodWrite w s
  | .ppsInEdge rising => Sys2Proof.Machine.execPpsInEdge rising s
  | .ptpMessageTx port kind => Sys2Proof.Machine.execPtpMessageTx port kind s
  | .benchSyncRx m => Sys2Proof.Machine.execBenchSyncRx m s
  | .sourceLossTimeout => Sys2Proof.Machine.execSourceLossTimeout s
  | .timeWord link peerTime echo => Sys2Proof.Machine.execTimeWord link peerTime echo s
  | .timeWordTx link => Sys2Proof.Machine.execTimeWordTx link s
  | .stcCopyReload copy offsetPs => Sys2Proof.Machine.execStcCopyReload copy offsetPs s
  | .ttArmWrite w n => Sys2Proof.Machine.execTtArmWrite w n s
  | .ttPulse n => Sys2Proof.Machine.execTtPulse n s
  | .captureEdge n rising => Sys2Proof.Machine.execCaptureEdge n rising s
  | .tcPopRead acc n => Sys2Proof.Machine.execTcPopRead acc n s
  | .keepingClockTick => Sys2Proof.Machine.execKeepingClockTick s
  | .taskLaunch task => Sys2Proof.Machine.execTaskLaunch task s
  | .wakeLeadStart task => Sys2Proof.Machine.execWakeLeadStart task s
  | .clocksReady task => Sys2Proof.Machine.execClocksReady task s
  | .pllStop cluster => Sys2Proof.Machine.execPllStop cluster s
  | .tileSleepEntry tile depth => Sys2Proof.Machine.execTileSleepEntry tile depth s
  | .tileWakeComplete tile => Sys2Proof.Machine.execTileWakeComplete tile s
  | .radioLaunchRegister task => Sys2Proof.Machine.execRadioLaunchRegister task s
  | .staggerWindow => Sys2Proof.Machine.execStaggerWindow s
  | .resizeTilesWrite w p => Sys2Proof.Machine.execResizeTilesWrite w p s
  | .resizeLncWrite w p => Sys2Proof.Machine.execResizeLncWrite w p s
  | .resizeEviction p => Sys2Proof.Machine.execResizeEviction p s
  | .resizeTilesLeave p => Sys2Proof.Machine.execResizeTilesLeave p s
  | .resizeApply p => Sys2Proof.Machine.execResizeApply p s
  | .preemptionRequest tile => Sys2Proof.Machine.execPreemptionRequest tile s
  | .preemptionPointTaken tile => Sys2Proof.Machine.execPreemptionPointTaken tile s
  | .switchComplete tile => Sys2Proof.Machine.execSwitchComplete tile s
  | .borrowerSaveOverrun tile => Sys2Proof.Machine.execBorrowerSaveOverrun tile s
  | .borrowerRestore tile => Sys2Proof.Machine.execBorrowerRestore tile s
  | .borrowerPlace task tile => Sys2Proof.Machine.execBorrowerPlace task tile s
  | .loanWindowResize tile => Sys2Proof.Machine.execLoanWindowResize tile s
  | .beSliceEnd tile => Sys2Proof.Machine.execBeSliceEnd tile s
  | .beRequestExpired task => Sys2Proof.Machine.execBeRequestExpired task s
  | .snapRequest w f => Sys2Proof.Machine.execSnapRequest w f s
  | .snapshotCapture f => Sys2Proof.Machine.execSnapshotCapture f s
  | .snapRead acc f => Sys2Proof.Machine.execSnapRead acc f s
  | .determinismModeWrite w => Sys2Proof.Machine.execDeterminismModeWrite w s
  | .nop tile f => Sys2Proof.Machine.execNop tile f s
  | .vadd tile f => Sys2Proof.Machine.execVadd tile f s
  | .vsub tile f => Sys2Proof.Machine.execVsub tile f s
  | .vmul tile f => Sys2Proof.Machine.execVmul tile f s
  | .vrotj tile f => Sys2Proof.Machine.execVrotj tile f s
  | .vshr tile f => Sys2Proof.Machine.execVshr tile f s
  | .vshrs tile f => Sys2Proof.Machine.execVshrs tile f s
  | .vshl tile f => Sys2Proof.Machine.execVshl tile f s
  | .vmax tile f => Sys2Proof.Machine.execVmax tile f s
  | .vmin tile f => Sys2Proof.Machine.execVmin tile f s
  | .vmag2 tile f => Sys2Proof.Machine.execVmag2 tile f s
  | .vsel tile f => Sys2Proof.Machine.execVsel tile f s
  | .vperm tile f => Sys2Proof.Machine.execVperm tile f s
  | .vbcast tile f => Sys2Proof.Machine.execVbcast tile f s
  | .vbexp tile f => Sys2Proof.Machine.execVbexp tile f s
  | .vbscl tile f => Sys2Proof.Machine.execVbscl tile f s
  | .vcmpgt tile f => Sys2Proof.Machine.execVcmpgt tile f s
  | .vtof tile f => Sys2Proof.Machine.execVtof tile f s
  | .vtoi tile f => Sys2Proof.Machine.execVtoi tile f s
  | .aclr tile f => Sys2Proof.Machine.execAclr tile f s
  | .aload tile f => Sys2Proof.Machine.execAload tile f s
  | .amul tile f => Sys2Proof.Machine.execAmul tile f s
  | .amac tile f => Sys2Proof.Machine.execAmac tile f s
  | .amsu tile f => Sys2Proof.Machine.execAmsu tile f s
  | .aadd tile f => Sys2Proof.Machine.execAadd tile f s
  | .asum tile f => Sys2Proof.Machine.execAsum tile f s
  | .anrw tile f => Sys2Proof.Machine.execAnrw tile f s
  | .vld tile f => Sys2Proof.Machine.execVld tile f s
  | .vst tile f => Sys2Proof.Machine.execVst tile f s
  | .sld tile f => Sys2Proof.Machine.execSld tile f s
  | .sst tile f => Sys2Proof.Machine.execSst tile f s
  | .sli tile f => Sys2Proof.Machine.execSli tile f s
  | .slih tile f => Sys2Proof.Machine.execSlih tile f s
  | .aset tile f => Sys2Proof.Machine.execAset tile f s
  | .aget tile f => Sys2Proof.Machine.execAget tile f s
  | .paddi tile f => Sys2Proof.Machine.execPaddi tile f s
  | .br tile f => Sys2Proof.Machine.execBr tile f s
  | .beqz tile f => Sys2Proof.Machine.execBeqz tile f s
  | .bnez tile f => Sys2Proof.Machine.execBnez tile f s
  | .bltz tile f => Sys2Proof.Machine.execBltz tile f s
  | .jal tile f => Sys2Proof.Machine.execJal tile f s
  | .jr tile f => Sys2Proof.Machine.execJr tile f s
  | .vsRepeat tile f => Sys2Proof.Machine.execVsRepeat tile f s
  | .repeats tile f => Sys2Proof.Machine.execRepeats tile f s
  | .sadd tile f => Sys2Proof.Machine.execSadd tile f s
  | .ssub tile f => Sys2Proof.Machine.execSsub tile f s
  | .smul tile f => Sys2Proof.Machine.execSmul tile f s
  | .sand tile f => Sys2Proof.Machine.execSand tile f s
  | .sor tile f => Sys2Proof.Machine.execSor tile f s
  | .sxor tile f => Sys2Proof.Machine.execSxor tile f s
  | .sshl tile f => Sys2Proof.Machine.execSshl tile f s
  | .ssra tile f => Sys2Proof.Machine.execSsra tile f s
  | .sslt tile f => Sys2Proof.Machine.execSslt tile f s
  | .saddi tile f => Sys2Proof.Machine.execSaddi tile f s
  | .rdflg tile f => Sys2Proof.Machine.execRdflg tile f s
  | .rdlnc tile f => Sys2Proof.Machine.execRdlnc tile f s
  | .rdcyc tile f => Sys2Proof.Machine.execRdcyc tile f s
  | .halt tile f => Sys2Proof.Machine.execHalt tile f s
  | .xpass tile f => Sys2Proof.Machine.execXpass tile f s
  | .xmv tile f => Sys2Proof.Machine.execXmv tile f s
  | .xmove tile f => Sys2Proof.Machine.execXmove tile f s
  | .xwait tile f => Sys2Proof.Machine.execXwait tile f s
  | .xIssueAccepted tile => Sys2Proof.Machine.execXIssueAccepted tile s
  | .preemptBound tile cycles => Sys2Proof.Machine.execPreemptBound tile cycles s
  | .passComplete tile => Sys2Proof.Machine.execPassComplete tile s
  | .mvPassComplete tile => Sys2Proof.Machine.execMvPassComplete tile s
  | .copy tile arrived => Sys2Proof.Machine.execCopy tile arrived s
  | .zero tile => Sys2Proof.Machine.execZero tile s
  | .normalise tile arrived => Sys2Proof.Machine.execNormalise tile arrived s
  | .unpackBfp tile arrived => Sys2Proof.Machine.execUnpackBfp tile arrived s
  | .packBfp tile arrived => Sys2Proof.Machine.execPackBfp tile arrived s
  | .moveComplete tile => Sys2Proof.Machine.execMoveComplete tile s
  | .taskComplete task => Sys2Proof.Machine.execTaskComplete task s
  | .kernelLoad f r package => Sys2Proof.Machine.execKernelLoad f r package s
  | .kernelFree f r => Sys2Proof.Machine.execKernelFree f r s
  | .matmul inv node vt => Sys2Proof.Machine.execMatmul inv node vt s
  | .matvec inv node vt => Sys2Proof.Machine.execMatvec inv node vt s
  | .conv inv node vt => Sys2Proof.Machine.execConv inv node vt s
  | .cmatmul inv node vt => Sys2Proof.Machine.execCmatmul inv node vt s
  | .dft inv node => Sys2Proof.Machine.execDft inv node s
  | .interp inv node vt => Sys2Proof.Machine.execInterp inv node vt s
  | .elementwise inv node => Sys2Proof.Machine.execElementwise inv node s
  | .exp2 inv node => Sys2Proof.Machine.execExp2 inv node s
  | .recip inv node => Sys2Proof.Machine.execRecip inv node s
  | .rsqrt inv node => Sys2Proof.Machine.execRsqrt inv node s
  | .exp inv node => Sys2Proof.Machine.execExp inv node s
  | .sigmoid inv node => Sys2Proof.Machine.execSigmoid inv node s
  | .silu inv node => Sys2Proof.Machine.execSilu inv node s
  | .gelu inv node => Sys2Proof.Machine.execGelu inv node s
  | .tanh inv node => Sys2Proof.Machine.execTanh inv node s
  | .softmax inv node => Sys2Proof.Machine.execSoftmax inv node s
  | .rmsnorm inv node => Sys2Proof.Machine.execRmsnorm inv node s
  | .layernorm inv node => Sys2Proof.Machine.execLayernorm inv node s
  | .quant inv node => Sys2Proof.Machine.execQuant inv node s
  | .reduceOrdered inv node => Sys2Proof.Machine.execReduceOrdered inv node s
  | .reduceArrival inv node => Sys2Proof.Machine.execReduceArrival inv node s
  | .reducePartialArrival inv node rank data => Sys2Proof.Machine.execReducePartialArrival inv node rank data s
  | .gateDrop inv node => Sys2Proof.Machine.execGateDrop inv node s
  | .gateReroute inv node => Sys2Proof.Machine.execGateReroute inv node s
  | .gateArrival inv node arrivals => Sys2Proof.Machine.execGateArrival inv node arrivals s
  | .moveNode inv node vt => Sys2Proof.Machine.execMoveNode inv node vt s
  | .branch inv node => Sys2Proof.Machine.execBranch inv node s
  | .exit inv node => Sys2Proof.Machine.execExit inv node s
  | .atomic inv node => Sys2Proof.Machine.execAtomic inv node s
  | .nodeComplete inv node => Sys2Proof.Machine.execNodeComplete inv node s
  | .modelLoad f r container => Sys2Proof.Machine.execModelLoad f r container s
  | .modelLoadComplete slot => Sys2Proof.Machine.execModelLoadComplete slot s
  | .modelUnload f r => Sys2Proof.Machine.execModelUnload f r s
  | .modelUnloadComplete slot => Sys2Proof.Machine.execModelUnloadComplete slot s
  | .invoke f r io => Sys2Proof.Machine.execInvoke f r io s
  | .invocationStart inv arrived => Sys2Proof.Machine.execInvocationStart inv arrived s
  | .beInvocationPlace inv arrived => Sys2Proof.Machine.execBeInvocationPlace inv arrived s
  | .invocationComplete inv => Sys2Proof.Machine.execInvocationComplete inv s
  | .stateFree f r => Sys2Proof.Machine.execStateFree f r s
  | .waveIssue inv => Sys2Proof.Machine.execWaveIssue inv s
  | .dlTti f r list => Sys2Proof.Machine.execDlTti f r list s
  | .ulTti f r list => Sys2Proof.Machine.execUlTti f r list s
  | .txData f r list => Sys2Proof.Machine.execTxData f r list s
  | .ulDci f r list => Sys2Proof.Machine.execUlDci f r list s
  | .orderCutoff c slot payloads => Sys2Proof.Machine.execOrderCutoff c slot payloads s
  | .missedLimitReached c => Sys2Proof.Machine.execMissedLimitReached c s
  | .ldpcDecode c b => Sys2Proof.Machine.execLdpcDecode c b s
  | .ldpcEncode c slot pdu index => Sys2Proof.Machine.execLdpcEncode c slot pdu index s
  | .polarEncode c slot pdu index => Sys2Proof.Machine.execPolarEncode c slot pdu index s
  | .polarDecode c slot pdu info llrs => Sys2Proof.Machine.execPolarDecode c slot pdu info llrs s
  | .resultBatchWrite c slot otype btype entries => Sys2Proof.Machine.execResultBatchWrite c slot otype btype entries s
  | .srsEstimateExpiry c handle => Sys2Proof.Machine.execSrsEstimateExpiry c handle s
  | .releasePoint c slot => Sys2Proof.Machine.execReleasePoint c slot s
  | .symbolRelease c slot symbol => Sys2Proof.Machine.execSymbolRelease c slot symbol s
  | .symbolWindowClose c slot symbol => Sys2Proof.Machine.execSymbolWindowClose c slot symbol s
  | .start w c => Sys2Proof.Machine.execStart w c s
  | .stop w c => Sys2Proof.Machine.execStop w c s
  | .hold w c => Sys2Proof.Machine.execHold w c s
  | .resume w c => Sys2Proof.Machine.execResume w c s
  | .reset w c => Sys2Proof.Machine.execReset w c s
  | .move w c peerMatches => Sys2Proof.Machine.execMove w c peerMatches s
  | .abortMove w c => Sys2Proof.Machine.execAbortMove w c s
  | .startResize c => Sys2Proof.Machine.execStartResize c s
  | .holdSourceCheck c encoded => Sys2Proof.Machine.execHoldSourceCheck c encoded s
  | .startFrameReached c => Sys2Proof.Machine.execStartFrameReached c s
  | .firstFrameEnd c => Sys2Proof.Machine.execFirstFrameEnd c s
  | .stopFrameReached c => Sys2Proof.Machine.execStopFrameReached c s
  | .radioPartitionShrink cluster => Sys2Proof.Machine.execRadioPartitionShrink cluster s
  | .holdFrameReached c => Sys2Proof.Machine.execHoldFrameReached c s
  | .resumeFrameReached c => Sys2Proof.Machine.execResumeFrameReached c s
  | .resetFrameReached c => Sys2Proof.Machine.execResetFrameReached c s
  | .holdSourceWrite w c encoded => Sys2Proof.Machine.execHoldSourceWrite w c encoded s
  | .holdSourceSwitch c => Sys2Proof.Machine.execHoldSourceSwitch c s
  | .holdLaunch c slot => Sys2Proof.Machine.execHoldLaunch c slot s
  | .conductorHeartbeat cluster core => Sys2Proof.Machine.execConductorHeartbeat cluster core s
  | .conductorHang cluster core => Sys2Proof.Machine.execConductorHang cluster core s
  | .conductorSelfcheckPass cluster core => Sys2Proof.Machine.execConductorSelfcheckPass cluster core s
  | .handback c => Sys2Proof.Machine.execHandback c s
  | .conductorRestartByControl cluster => Sys2Proof.Machine.execConductorRestartByControl cluster s
  | .moveTargetPrepare c => Sys2Proof.Machine.execMoveTargetPrepare c s
  | .moveBulkCopy c buffers estimates => Sys2Proof.Machine.execMoveBulkCopy c buffers estimates s
  | .moveCommitPoint c peerReady peerLocked => Sys2Proof.Machine.execMoveCommitPoint c peerReady peerLocked s
  | .dualRxOpen c => Sys2Proof.Machine.execDualRxOpen c s
  | .moveHandover c => Sys2Proof.Machine.execMoveHandover c s
  | .moveFinalCopy c buffers estimates => Sys2Proof.Machine.execMoveFinalCopy c buffers estimates s
  | .moveFinalAck c => Sys2Proof.Machine.execMoveFinalAck c s
  | .dualRxClose c => Sys2Proof.Machine.execDualRxClose c s
  | .portModeWrite w p => Sys2Proof.Machine.execPortModeWrite w p s
  | .laneGroupsWrite w => Sys2Proof.Machine.execLaneGroupsWrite w s
  | .portLinkUp p => Sys2Proof.Machine.execPortLinkUp p s
  | .portDown p => Sys2Proof.Machine.execPortDown p s
  | .frameReceive p f => Sys2Proof.Machine.execFrameReceive p f s
  | .delayMeasRequestTx c => Sys2Proof.Machine.execDelayMeasRequestTx c s
  | .egressFrameStart p => Sys2Proof.Machine.execEgressFrameStart p s
  | .frameTx f r content => Sys2Proof.Machine.execFrameTx f r content s
  | .frameTxWriteback f r => Sys2Proof.Machine.execFrameTxWriteback f r s
  | .idleSlopeWrite w p q => Sys2Proof.Machine.execIdleSlopeWrite w p q s
  | .telemetrySample p => Sys2Proof.Machine.execTelemetrySample p s
  | .telemetryClear w n => Sys2Proof.Machine.execTelemetryClear w n s
  | .hostFlowWrite w h => Sys2Proof.Machine.execHostFlowWrite w h s
  | .map f r => Sys2Proof.Machine.execMap f r s
  | .unmap f r => Sys2Proof.Machine.execUnmap f r s
  | .cacheWaysWrite w p => Sys2Proof.Machine.execCacheWaysWrite w p s
  | .patrolScrub gddr tile word kind => Sys2Proof.Machine.execPatrolScrub gddr tile word kind s
  | .wckTracking => Sys2Proof.Machine.execWckTracking s
  | .retrainLncWrite w dev => Sys2Proof.Machine.execRetrainLncWrite w dev s
  | .deviceRetrain dev => Sys2Proof.Machine.execDeviceRetrain dev s
  | .deviceRetrainComplete dev => Sys2Proof.Machine.execDeviceRetrainComplete dev s
  | .gddr7TrainingDone density failed => Sys2Proof.Machine.execGddr7TrainingDone density failed s
  | .gddr7ZeroiseComplete page => Sys2Proof.Machine.execGddr7ZeroiseComplete page s
  | .linkModeWrite w link => Sys2Proof.Machine.execLinkModeWrite w link s
  | .flitReceive link f => Sys2Proof.Machine.execFlitReceive link f s
  | .linkRetrainComplete link ok => Sys2Proof.Machine.execLinkRetrainComplete link ok s
  | .linkDown link => Sys2Proof.Machine.execLinkDown link s
  | .fabricFrameReceive link etherType packets priorities ptp fcsOk => Sys2Proof.Machine.execFabricFrameReceive link etherType packets priorities ptp fcsOk s
  | .load p => Sys2Proof.Machine.execLoad p s
  | .store p => Sys2Proof.Machine.execStore p s
  | .read p => Sys2Proof.Machine.execRead p s
  | .fetchAdd p => Sys2Proof.Machine.execFetchAdd p s
  | .swap p => Sys2Proof.Machine.execSwap p s
  | .cas p => Sys2Proof.Machine.execCas p s
  | .minS p => Sys2Proof.Machine.execMinS p s
  | .maxS p => Sys2Proof.Machine.execMaxS p s
  | .minU p => Sys2Proof.Machine.execMinU p s
  | .maxU p => Sys2Proof.Machine.execMaxU p s
  | .faddF32 p => Sys2Proof.Machine.execFaddF32 p s
  | .faddF64 p => Sys2Proof.Machine.execFaddF64 p s
  | .data p => Sys2Proof.Machine.execData p s
  | .ack p => Sys2Proof.Machine.execAck p s
  | .reply p => Sys2Proof.Machine.execReply p s
  | .getS p => Sys2Proof.Machine.execGetS p s
  | .inv p => Sys2Proof.Machine.execInv p s
  | .invAck p => Sys2Proof.Machine.execInvAck p s
  | .evictS p => Sys2Proof.Machine.execEvictS p s
  | .heartbeat p => Sys2Proof.Machine.execHeartbeat p s
  | .heartbeatSend => Sys2Proof.Machine.execHeartbeatSend s
  | .fence tile => Sys2Proof.Machine.execFence tile s
  | .fenceComplete ctx => Sys2Proof.Machine.execFenceComplete ctx s
  | .requestRetry id => Sys2Proof.Machine.execRequestRetry id s
  | .requestLost id => Sys2Proof.Machine.execRequestLost id s
  | .replayEntryAge job node tag => Sys2Proof.Machine.execReplayEntryAge job node tag s
  | .peerDeclaredDead node => Sys2Proof.Machine.execPeerDeclaredDead node s
  | .readmit w => Sys2Proof.Machine.execReadmit w s
  | .jobApplyLncWrite w j => Sys2Proof.Machine.execJobApplyLncWrite w j s
  | .jobActivate j => Sys2Proof.Machine.execJobActivate j s
  | .jobBind f r => Sys2Proof.Machine.execJobBind f r s
  | .teardown w j => Sys2Proof.Machine.execTeardown w j s
  | .teardownTimeout j => Sys2Proof.Machine.execTeardownTimeout j s
  | .teardownComplete j => Sys2Proof.Machine.execTeardownComplete j s
  | .ncroDrop w j => Sys2Proof.Machine.execNcroDrop w j s
  | .fabricLinkUp link peer => Sys2Proof.Machine.execFabricLinkUp link peer s
  | .create f r => Sys2Proof.Machine.execCreate f r s
  | .destroy f r => Sys2Proof.Machine.execDestroy f r s
  | .signal f r => Sys2Proof.Machine.execSignal f r s
  | .eventReset f r => Sys2Proof.Machine.execEventReset f r s
  | .proxy f r granted => Sys2Proof.Machine.execProxy f r granted s
  | .waitBegin task => Sys2Proof.Machine.execWaitBegin task s
  | .syncSignal p => Sys2Proof.Machine.execSyncSignal p s
  | .syncWait p => Sys2Proof.Machine.execSyncWait p s
  | .syncGrant p => Sys2Proof.Machine.execSyncGrant p s
  | .syncAbandon p => Sys2Proof.Machine.execSyncAbandon p s
  | .stalemateWindowExpiry part => Sys2Proof.Machine.execStalemateWindowExpiry part s
  | .staleReport job rank sent received => Sys2Proof.Machine.execStaleReport job rank sent received s
  | .staleQuery job => Sys2Proof.Machine.execStaleQuery job s
  | .staleConfirm job rank => Sys2Proof.Machine.execStaleConfirm job rank s
  | .staleReject job rank => Sys2Proof.Machine.execStaleReject job rank s
  | .staleHalt job => Sys2Proof.Machine.execStaleHalt job s
  | .staleResume job => Sys2Proof.Machine.execStaleResume job s
  | .staleConfirmTimeout job => Sys2Proof.Machine.execStaleConfirmTimeout job s
  | .stalemateRecordRead acc offset => Sys2Proof.Machine.execStalemateRecordRead acc offset s
  | .ringEnable f r h => Sys2Proof.Machine.execRingEnable f r h s
  | .ringFetch f r h slots => Sys2Proof.Machine.execRingFetch f r h slots s
  | .ringExtraFetch f r h slots => Sys2Proof.Machine.execRingExtraFetch f r h slots s
  | .ringFallbackFetch f r h slots => Sys2Proof.Machine.execRingFallbackFetch f r h slots s
  | .nopDescriptor f r => Sys2Proof.Machine.execNopDescriptor f r s
  | .task f r args => Sys2Proof.Machine.execTask f r args s
  | .ctxEnable w x => Sys2Proof.Machine.execCtxEnable w x s
  | .completionConsReread f r cons => Sys2Proof.Machine.execCompletionConsReread f r cons s
  | .modTimeExpiry f r => Sys2Proof.Machine.execModTimeExpiry f r s
  | .flr f => Sys2Proof.Machine.execFlr f s
  | .functionEnableWrite w => Sys2Proof.Machine.execFunctionEnableWrite w s
  | .vfEnableClear => Sys2Proof.Machine.execVfEnableClear s
  | .d3hotEntry f => Sys2Proof.Machine.execD3hotEntry f s
  | .pcieLinkDown => Sys2Proof.Machine.execPcieLinkDown s
  | .functionDisableComplete f => Sys2Proof.Machine.execFunctionDisableComplete f s
  | .atsInvalidation f pasid va => Sys2Proof.Machine.execAtsInvalidation f pasid va s
  | .vfEnableSet => Sys2Proof.Machine.execVfEnableSet s
  | .msixVectorUnmask f vector => Sys2Proof.Machine.execMsixVectorUnmask f vector s
  | .tdispRequest f code nonceOk => Sys2Proof.Machine.execTdispRequest f code nonceOk s
  | .ideKmRequest channel body => Sys2Proof.Machine.execIdeKmRequest channel body s
  | .frameRxBuf f r => Sys2Proof.Machine.execFrameRxBuf f r s
  | .dictRead acc index sub offset => Sys2Proof.Machine.execDictRead acc index sub offset s
  | .dictWrite w index sub offset more => Sys2Proof.Machine.execDictWrite w index sub offset more s
  | .readBlock acc index sub last => Sys2Proof.Machine.execReadBlock acc index sub last s
  | .writeBlock acc index data lnc commitOk => Sys2Proof.Machine.execWriteBlock acc index data lnc commitOk s
  | .subscribe acc index sub last interval mode => Sys2Proof.Machine.execSubscribe acc index sub last interval mode s
  | .notify holder index sub => Sys2Proof.Machine.execNotify holder index sub s
  | .notifyPopRead acc => Sys2Proof.Machine.execNotifyPopRead acc s
  | .hello h => Sys2Proof.Machine.execHello h s
  | .prove h => Sys2Proof.Machine.execProve h s
  | .close h => Sys2Proof.Machine.execClose h s
  | .proveTimeout session => Sys2Proof.Machine.execProveTimeout session s
  | .sessionIdleTimeout session => Sys2Proof.Machine.execSessionIdleTimeout session s
  | .segmentTimeout holder => Sys2Proof.Machine.execSegmentTimeout holder s
  | .arpRequest address => Sys2Proof.Machine.execArpRequest address s
  | .icmpEcho address payload => Sys2Proof.Machine.execIcmpEcho address payload s
  | .mgModeWrite w => Sys2Proof.Machine.execMgModeWrite w s
  | .mgIpv4Write w => Sys2Proof.Machine.execMgIpv4Write w s
  | .peerKeyWrite w k sub => Sys2Proof.Machine.execPeerKeyWrite w k sub s
  | .mgLinkUp => Sys2Proof.Machine.execMgLinkUp s
  | .mgLinkDown => Sys2Proof.Machine.execMgLinkDown s
  | .inputFault mv => Sys2Proof.Machine.execInputFault mv s
  | .inputQualified mv => Sys2Proof.Machine.execInputQualified mv s
  | .powerLoss => Sys2Proof.Machine.execPowerLoss s
  | .domainTurnOn b => Sys2Proof.Machine.execDomainTurnOn b s
  | .domainTurnOff b => Sys2Proof.Machine.execDomainTurnOff b s
  | .governorReduce rail avg1 avg50 avg100 => Sys2Proof.Machine.execGovernorReduce rail avg1 avg50 avg100 s
  | .governorRaise rail avg50 => Sys2Proof.Machine.execGovernorRaise rail avg50 s
  | .burstDisarm => Sys2Proof.Machine.execBurstDisarm s
  | .burstArm => Sys2Proof.Machine.execBurstArm s
  | .shareOrderWrite w => Sys2Proof.Machine.execShareOrderWrite w s
  | .radioFloorWrite w => Sys2Proof.Machine.execRadioFloorWrite w s
  | .vrAlertNAssert => Sys2Proof.Machine.execVrAlertNAssert s
  | .vrAlertNDeassert => Sys2Proof.Machine.execVrAlertNDeassert s
  | .forceLowestWrite w => Sys2Proof.Machine.execForceLowestWrite w s
  | .overLimitTimeout => Sys2Proof.Machine.execOverLimitTimeout s
  | .thermalLimitTimeout => Sys2Proof.Machine.execThermalLimitTimeout s
  | .lowestStateExit => Sys2Proof.Machine.execLowestStateExit s
  | .capUnmetSet => Sys2Proof.Machine.execCapUnmetSet s
  | .capExcessUpdate => Sys2Proof.Machine.execCapExcessUpdate s
  | .capUnmetClear => Sys2Proof.Machine.execCapUnmetClear s
  | .sensorRead readings => Sys2Proof.Machine.execSensorRead readings s
  | .thermalThrottleStep => Sys2Proof.Machine.execThermalThrottleStep s
  | .thermalTrip => Sys2Proof.Machine.execThermalTrip s
  | .referenceLost => Sys2Proof.Machine.execReferenceLost s
  | .referenceReturn => Sys2Proof.Machine.execReferenceReturn s
  | .pllLockLost cluster => Sys2Proof.Machine.execPllLockLost cluster s
  | .pllRelock cluster => Sys2Proof.Machine.execPllRelock cluster s
  | .energyIntegrate total shares => Sys2Proof.Machine.execEnergyIntegrate total shares s
  | .railClear w n => Sys2Proof.Machine.execRailClear w n s
  | .residueError tile unit => Sys2Proof.Machine.execResidueError tile unit s
  | .tileWatchdogExpiry tile => Sys2Proof.Machine.execTileWatchdogExpiry tile s
  | .radioRerun task => Sys2Proof.Machine.execRadioRerun task s
  | .taskRerun task => Sys2Proof.Machine.execTaskRerun task s
  | .partitionError cluster granules => Sys2Proof.Machine.execPartitionError cluster granules s
  | .clusterRecoveryComplete cluster => Sys2Proof.Machine.execClusterRecoveryComplete cluster s
  | .clusterRecoveryTimeout cluster => Sys2Proof.Machine.execClusterRecoveryTimeout cluster s
  | .fatalError unit => Sys2Proof.Machine.execFatalError unit s
  | .ctHeartbeat core => Sys2Proof.Machine.execCtHeartbeat core s
  | .ctHang core => Sys2Proof.Machine.execCtHang core s
  | .ctSelfcheckPass core => Sys2Proof.Machine.execCtSelfcheckPass core s
  | .ctHalfResume core => Sys2Proof.Machine.execCtHalfResume core s
  | .ctDoubleHangRestart => Sys2Proof.Machine.execCtDoubleHangRestart s
  | .logPopRead acc => Sys2Proof.Machine.execLogPopRead acc s
  | .promotionSwitch tile => Sys2Proof.Machine.execPromotionSwitch tile s
  | .healthUpdate => Sys2Proof.Machine.execHealthUpdate s
  | .livenessTick => Sys2Proof.Machine.execLivenessTick s
  | .copyStart w => Sys2Proof.Machine.execCopyStart w s
  | .copyDone ok => Sys2Proof.Machine.execCopyDone ok s
  | .selftest w => Sys2Proof.Machine.execSelftest w s
  | .selftestDone failed => Sys2Proof.Machine.execSelftestDone failed s
  | .fwImageWrite w => Sys2Proof.Machine.execFwImageWrite w s
  | .fwSwitchLncWrite w n => Sys2Proof.Machine.execFwSwitchLncWrite w n s
  | .fwSwitch n => Sys2Proof.Machine.execFwSwitch n s
  | .fwConductorPass n => Sys2Proof.Machine.execFwConductorPass n s
  | .fwSelfcheckFail n => Sys2Proof.Machine.execFwSelfcheckFail n s
  | .powerOnReset mv => Sys2Proof.Machine.execPowerOnReset mv s
  | .resetNAssert => Sys2Proof.Machine.execResetNAssert s
  | .chipReset w => Sys2Proof.Machine.execChipReset w s
  | .chipResetInstant => Sys2Proof.Machine.execChipResetInstant s
  | .clusterReset w => Sys2Proof.Machine.execClusterReset w s
  | .partitionReset w => Sys2Proof.Machine.execPartitionReset w s
  | .tileReset w => Sys2Proof.Machine.execTileReset w s
  | .startupVerifyDone a b => Sys2Proof.Machine.execStartupVerifyDone a b s
  | .chipControlServing => Sys2Proof.Machine.execChipControlServing s
  | .perstNDeassert => Sys2Proof.Machine.execPerstNDeassert s
  | .perstNAssert => Sys2Proof.Machine.execPerstNAssert s
  | .pcieLinkUp => Sys2Proof.Machine.execPcieLinkUp s
  | .install w => Sys2Proof.Machine.execInstall w s
  | .remove w => Sys2Proof.Machine.execRemove w s
  | .setOwnerSign w => Sys2Proof.Machine.execSetOwnerSign w s
  | .release w => Sys2Proof.Machine.execRelease w s
  | .rollbackAdvance w => Sys2Proof.Machine.execRollbackAdvance w s
  | .rollbackAdvanceComplete => Sys2Proof.Machine.execRollbackAdvanceComplete s
  | .debugUnlock w => Sys2Proof.Machine.execDebugUnlock w s
  | .aliasDerivationComplete => Sys2Proof.Machine.execAliasDerivationComplete s
  | .getVersion ch body => Sys2Proof.Machine.execGetVersion ch body s
  | .getCapabilities ch body => Sys2Proof.Machine.execGetCapabilities ch body s
  | .negotiateAlgorithms ch body => Sys2Proof.Machine.execNegotiateAlgorithms ch body s
  | .getDigests ch body => Sys2Proof.Machine.execGetDigests ch body s
  | .getCertificate ch body => Sys2Proof.Machine.execGetCertificate ch body s
  | .challenge ch body => Sys2Proof.Machine.execChallenge ch body s
  | .getMeasurements ch body => Sys2Proof.Machine.execGetMeasurements ch body s
  | .keyExchange ch body => Sys2Proof.Machine.execKeyExchange ch body s
  | .finish ch body => Sys2Proof.Machine.execFinish ch body s
  | .keyUpdate ch body => Sys2Proof.Machine.execKeyUpdate ch body s
  | .spdmHeartbeat ch body => Sys2Proof.Machine.execSpdmHeartbeat ch body s
  | .endSession ch body => Sys2Proof.Machine.execEndSession ch body s
  | .spdmUnsupportedRequest ch code body => Sys2Proof.Machine.execSpdmUnsupportedRequest ch code body s

end Sys2Proof.Machine
end

