-- ==== Sys2Proof/Safety.lean ====
section
/-! DEFINITION. What a safe run is, in the terms that claims use: a step that goes on, and the invariants of a state. -/

namespace Sys2Proof.Machine

/-- The step answers a next state. -/
def Completes (o : Host.Outcome State Fault Refusal) : Prop := ∃ t, o = .next t

/-- The PCI Express link (R455, R545, R585): PERST_N low keeps the link down, and without a link VF Enable is clear. -/
def State.linkOk (s : State) : Prop := (s.boot.perst = true → s.boot.link = false) ∧ (s.boot.link = false → s.boot.vfEnable = false)

/-- The system time counter holds less than 10⁹ nanoseconds and a fraction of 32 bits (R26, R27). -/
def State.timeOk (s : State) : Prop := s.time.stc.ns < 1000000000 ∧ s.time.stc.frac < 2 ^ 32

/-- The register tables are in canonical form: keys rising, no entry at its default. -/
def State.regsOk (s : State) : Prop := Table.wfBy regDefault s.dict.regs = true

/-- GDDR7 contents are in canonical form (R374: an unlisted byte reads 0). -/
def State.gddrOk (s : State) : Prop := Table.wf 0 s.mem.gddr = true

/-- A command completes with a state of which `P` holds. -/
def Does (i : Instr) (s : State) (P : State → Prop) : Prop := ∃ t, exec i s = .next t ∧ P t

/-- The vector sequencer of tile `n` issues instruction `i` next (R187, R188, R197, R598): it may issue, the code holds `i` at its program counter,
and a borrowable kernel has not passed its bound. -/
abbrev State.vsGoes (s : State) (n : Nat) (i : VsCode) : Prop :=
  s.vsReady n = true ∧ s.fetches n i = true ∧ s.pastCode n = false ∧ (s.bounded (s.tile n) && (s.tile n).pastBound) = false

/-- The sequencer issues instruction `i` next, whose fields R186 allows. -/
abbrev State.vsRuns (s : State) (n : Nat) (i : VsCode) : Prop := s.vsGoes n i ∧ i.legal = true

/-- The state in which the registers of tile `n`'s sequencer have been changed by `g` and the instruction has retired. -/
def State.vsAfter (s : State) (n : Nat) (g : Vs → Vs) : State :=
  s.setTile n ({ s.tile n with live := { (s.tile n).live with vs := g (s.tile n).live.vs } }).retire

/-- Descriptor `d` with the bits `x` is the next that ring `r` of function `f` admits (R440), and the checks that every kind shares let it pass
(R61, R426, R442, R446). -/
abbrev State.admits (s : State) (f r : Nat) (d : Desc) (x : Slot64) (kinds : List Nat) : Prop :=
  s.nextDesc f r = some (d, x) ∧ s.behindRing f r = false ∧ (s.takeDesc f r).commonReason d x kinds = none

/-- The accessor's request is run (R480, R486, R487, R558): the chip serves, and a window's link stands and its function exists, or a session of the
field port is open and its frame is well formed, authentic and new, and asks for the access `w` (R484). -/
abbrev State.accepts (s : State) (a : Accessor) (w : Window) : Prop :=
  s.serving = true ∧
  match a with
  | .pf0 => s.boot.link = true ∧ s.functionExists 0 = true
  | .vf n => s.boot.link = true ∧ s.functionExists n = true
  | .hdp h => s.mgUp = true ∧ hdpFormed h = true ∧ hdpListed (hdpOp h) = true ∧ hdpNames h w = true ∧ ∃ x, s.session h.session = some x ∧ hdpTag x.keyIn h.body = h.tag ∧
      x.answered.find? (fun e => e.1 == h.seq) = none ∧ x.highSeq ≤ h.seq + 64 ∧ x.seen.contains h.seq = false

/-- The reply `r.2` to a request with control block `w` that left the state `r.1` (R479, R487): a window shows it and the host sees it; a session gets its
frame and keeps it. -/
def State.answers (s : State) (a : Accessor) (w : Window) (r : State × Reply) : State :=
  let shown : Window := { w with
    status := r.2.status, length := if w.op = 1 ∨ w.op = 3 then r.2.data.length else w.length, domainLength := r.2.total
    sub := r.2.sub.getD w.sub, buffer := if w.op = 1 ∨ w.op = 3 then r.2.data else w.buffer }
  let window := fun (f : Nat) => ({ r.1 with dict := { r.1.dict with windows := Table.put {} r.1.dict.windows f shown } }).emit (.answer f r.2.status r.2.data r.2.total)
  match a with
  | .pf0 => window 0
  | .vf n => window n
  | .hdp h => match s.session h.session with
    | some x => r.1.hdpAnswer h x r.2
    | none => s

/-- The control block of a write of one object (R479, R480). -/
def wrControl (w : Wr) (index sub : Nat) : Window :=
  { op := 2, flags := if w.lnc.isSome then 4 else 0, index := index, sub := sub, lnc := w.lnc.getD 0, length := (dataBytes w.data).length
    buffer := (dataBytes w.data).take 3840 }

end Sys2Proof.Machine
end

