-- ==== Sys2Proof/WellFormed.lean ====
section
/-! DEFINITION. Which commands are well formed: every number names something that exists (R8, R11, R64, R263, R328, R377, R398, R431, R435), and
every field fits its width (R187, R388, R483). The meanings do not rely on it: a command that is not well formed changes nothing or
is answered as the spec says. -/

set_option linter.unusedVariables false

namespace Sys2Proof

/-- A physical or virtual tile number (R11). -/
def tileOk (t : Nat) : Bool := decide (t < 512)
/-- A cluster (R8). -/
def clusterOk (k : Nat) : Bool := decide (k < 8)
/-- A cell (R263). -/
def cellOk (c : Nat) : Bool := decide (c < 256)
/-- A function, PF0 or a VF (R431). -/
def functionOk (f : Nat) : Bool := decide (f ≤ 512)
/-- A ring of a function (R435). -/
def ringOk (r : Nat) : Bool := decide (r < 64)
/-- A job entry (R398). -/
def jobOk (j : Nat) : Bool := decide (j < 64)
/-- A fabric link (R377). -/
def linkOk (l : Nat) : Bool := decide (l < 64)
/-- A core of a pair (R318, R524). -/
def coreOk (c : Nat) : Bool := decide (c < 2)
/-- A GDDR7 device (R365). -/
def deviceOk (n : Nat) : Bool := decide (n < 16)
/-- An index of the dictionary (R460). -/
def indexOk (i : Nat) : Bool := decide (i < 65536)
/-- A subindex (R460). -/
def subOk (i : Nat) : Bool := decide (i < 256)
/-- A rank of a job (R398). -/
def rankOk (r : Nat) : Bool := decide (r < 4096)
/-- An HDP datagram has a header, at most 1,416 data bytes and a tag of 16 (R483). -/
def HdpFrame.wf (h : HdpFrame) : Bool :=
  decide (40 ≤ h.body.length ∧ h.body.length ≤ 1456 ∧ h.tag.length = 16 ∧ h.session < 2 ^ 32 ∧ h.seq < 2 ^ 32)
/-- A window belongs to PF0 or to a VF. -/
def Accessor.wf (a : Accessor) : Bool := match a with | .pf0 => true | .vf n => decide (1 ≤ n ∧ n ≤ 512) | .hdp h => h.wf
/-- A number has the size of some type (R461). -/
def WData.wf (x : WData) : Bool := match x with | .num n _ => [1, 2, 4, 8, 10].contains n | .bytes _ => true
/-- A named LNC has 64 bits (R468). -/
def Wr.wf (w : Wr) : Bool := w.acc.wf && w.data.wf && (match w.lnc with | some l => decide (l < 2 ^ 64) | none => true)
/-- A PTP message of a kind that is modelled (R41; log entry 139). -/
def PtpMsg.wf (m : PtpMsg) : Bool := decide (m.kind < 5 ∧ m.domain < 256 ∧ m.seq < 2 ^ 16)
/-- A fronthaul or Ethernet port (R328). -/
def portOk (p : Nat) : Bool := decide (p < 64)
/-- A partition (R64). -/
def partOk (p : Nat) : Bool := decide (p < 64)
/-- A time-triggered output (R53). -/
def outputOk (n : Nat) : Bool := decide (n < 8)
/-- A capture input (R56). -/
def inputOk (n : Nat) : Bool := decide (n < 5)
/-- A queue of a port with an idle slope (R347). -/
def queueOk (q : Nat) : Bool := decide (8 ≤ q ∧ q ≤ 12)
/-- A telemetry entry of a queue of a port (R352). -/
def entryOk (n : Nat) : Bool := decide (n < 1024)
/-- A host flow (R354). -/
def flowOk (h : Nat) : Bool := decide (h < 256)
/-- A context of a function (R432). -/
def contextOk (x : Nat) : Bool := decide (x < 16)
/-- A peer key (R489). -/
def peerOk (k : Nat) : Bool := decide (k < 16)
/-- A rail (R516). -/
def railOk (n : Nat) : Bool := decide (n < 20)
/-- A unit that switches its firmware: eight clusters, then chip control (R542). -/
def unitOk (n : Nat) : Bool := decide (n < 9)
/-- Widths of R187. -/
def VFields.wf (f : VFields) : Bool :=
  decide (f.lmode < 4 ∧ f.vd < 32 ∧ f.va < 32 ∧ f.vb < 32 ∧ f.vc < 32 ∧ f.shift < 32 ∧ f.imm16 < 2 ^ 16 ∧ f.rsvd < 2 ^ 10)
/-- Widths of R187. -/
def AFields.wf (f : AFields) : Bool :=
  decide (f.lmode < 4 ∧ f.ad < 4 ∧ f.as < 4 ∧ f.va < 32 ∧ f.vb < 32 ∧ f.vd < 32 ∧ f.shift < 32 ∧ f.rsvd < 2 ^ 27)
/-- Widths of R187. -/
def MFields.wf (f : MFields) : Bool := decide (f.pk < 8 ∧ f.amode < 8 ∧ f.rd < 32 ∧ f.imm32 < 2 ^ 32 ∧ f.rsvd < 2 ^ 10)
/-- Widths of R187. -/
def CFields.wf (f : CFields) : Bool := decide (f.sd < 16 ∧ f.sa < 16 ∧ f.sb < 16 ∧ f.body < 256 ∧ f.imm32 < 2 ^ 32 ∧ f.rsvd < 2)
/-- Widths of R187. -/
def XFields.wf (f : XFields) : Bool := decide (f.pk < 8 ∧ f.sync < 8 ∧ f.chmask < 256 ∧ f.imm32 < 2 ^ 32 ∧ f.rsvd < 256)
/-- Widths of R388. -/
def Packet.wf (p : Packet) : Bool := decide (p.opcode < 64 ∧ p.vc < 8 ∧ p.src < 4096 ∧ p.dst < 4096 ∧ p.job < 4096 ∧ p.len < 64 ∧ p.tag < 2 ^ 32 ∧ p.offset < 2 ^ 43)
/-- An SPDM channel (R572). -/
def SpdmChannel.wf (c : SpdmChannel) : Bool := match c with | .doe f => functionOk f | .hdp _ => true | .window => true

/-- A well-formed command. -/
def Instr.wf (i : Instr) : Bool :=
  match i with
  | .registerWrite w index sub => w.wf && indexOk index && subOk sub
  | .pendingWriteApply _ => true
  | .stcNowRead acc => acc.wf
  | .incrementWrite w => w.wf
  | .timeSourceWrite w => w.wf
  | .stepRequest w => w.wf
  | .ppsTodWrite w => w.wf
  | .ppsInEdge _ => true
  | .ptpMessageTx _ _ => true
  | .benchSyncRx m => m.wf
  | .sourceLossTimeout => true
  | .timeWord link _ _ => linkOk link
  | .timeWordTx link => linkOk link
  | .stcCopyReload unit _ => unitOk unit
  | .ttArmWrite w n => w.wf && outputOk n
  | .ttPulse n => outputOk n
  | .captureEdge n _ => inputOk n
  | .tcPopRead acc n => acc.wf && inputOk n
  | .keepingClockTick => true
  | .taskLaunch _ => true
  | .wakeLeadStart _ => true
  | .clocksReady _ => true
  | .pllStop cluster => clusterOk cluster
  | .tileSleepEntry tile _ => tileOk tile
  | .tileWakeComplete tile => tileOk tile
  | .radioLaunchRegister _ => true
  | .staggerWindow => true
  | .resizeTilesWrite w p => w.wf && partOk p
  | .resizeLncWrite w p => w.wf && partOk p
  | .resizeEviction p => partOk p
  | .resizeTilesLeave p => partOk p
  | .resizeApply p => partOk p
  | .preemptionRequest tile => tileOk tile
  | .preemptionPointTaken tile => tileOk tile
  | .switchComplete tile => tileOk tile
  | .borrowerSaveOverrun tile => tileOk tile
  | .borrowerRestore tile => tileOk tile
  | .borrowerPlace _ tile => tileOk tile
  | .loanWindowResize tile => tileOk tile
  | .beSliceEnd tile => tileOk tile
  | .beRequestExpired _ => true
  | .snapRequest w f => w.wf && functionOk f
  | .snapshotCapture f => functionOk f
  | .snapRead acc f => acc.wf && functionOk f
  | .determinismModeWrite w => w.wf
  | .nop tile f => tileOk tile && f.wf
  | .vadd tile f => tileOk tile && f.wf
  | .vsub tile f => tileOk tile && f.wf
  | .vmul tile f => tileOk tile && f.wf
  | .vrotj tile f => tileOk tile && f.wf
  | .vshr tile f => tileOk tile && f.wf
  | .vshrs tile f => tileOk tile && f.wf
  | .vshl tile f => tileOk tile && f.wf
  | .vmax tile f => tileOk tile && f.wf
  | .vmin tile f => tileOk tile && f.wf
  | .vmag2 tile f => tileOk tile && f.wf
  | .vsel tile f => tileOk tile && f.wf
  | .vperm tile f => tileOk tile && f.wf
  | .vbcast tile f => tileOk tile && f.wf
  | .vbexp tile f => tileOk tile && f.wf
  | .vbscl tile f => tileOk tile && f.wf
  | .vcmpgt tile f => tileOk tile && f.wf
  | .vtof tile f => tileOk tile && f.wf
  | .vtoi tile f => tileOk tile && f.wf
  | .aclr tile f => tileOk tile && f.wf
  | .aload tile f => tileOk tile && f.wf
  | .amul tile f => tileOk tile && f.wf
  | .amac tile f => tileOk tile && f.wf
  | .amsu tile f => tileOk tile && f.wf
  | .aadd tile f => tileOk tile && f.wf
  | .asum tile f => tileOk tile && f.wf
  | .anrw tile f => tileOk tile && f.wf
  | .vld tile f => tileOk tile && f.wf
  | .vst tile f => tileOk tile && f.wf
  | .sld tile f => tileOk tile && f.wf
  | .sst tile f => tileOk tile && f.wf
  | .sli tile f => tileOk tile && f.wf
  | .slih tile f => tileOk tile && f.wf
  | .aset tile f => tileOk tile && f.wf
  | .aget tile f => tileOk tile && f.wf
  | .paddi tile f => tileOk tile && f.wf
  | .br tile f => tileOk tile && f.wf
  | .beqz tile f => tileOk tile && f.wf
  | .bnez tile f => tileOk tile && f.wf
  | .bltz tile f => tileOk tile && f.wf
  | .jal tile f => tileOk tile && f.wf
  | .jr tile f => tileOk tile && f.wf
  | .vsRepeat tile f => tileOk tile && f.wf
  | .repeats tile f => tileOk tile && f.wf
  | .sadd tile f => tileOk tile && f.wf
  | .ssub tile f => tileOk tile && f.wf
  | .smul tile f => tileOk tile && f.wf
  | .sand tile f => tileOk tile && f.wf
  | .sor tile f => tileOk tile && f.wf
  | .sxor tile f => tileOk tile && f.wf
  | .sshl tile f => tileOk tile && f.wf
  | .ssra tile f => tileOk tile && f.wf
  | .sslt tile f => tileOk tile && f.wf
  | .saddi tile f => tileOk tile && f.wf
  | .rdflg tile f => tileOk tile && f.wf
  | .rdlnc tile f => tileOk tile && f.wf
  | .rdcyc tile f => tileOk tile && f.wf
  | .halt tile f => tileOk tile && f.wf
  | .xpass tile f => tileOk tile && f.wf
  | .xmv tile f => tileOk tile && f.wf
  | .xmove tile f => tileOk tile && f.wf
  | .xwait tile f => tileOk tile && f.wf
  | .xIssueAccepted tile => tileOk tile
  | .preemptBound tile _ => tileOk tile
  | .passComplete tile => tileOk tile
  | .mvPassComplete tile => tileOk tile
  | .copy tile _ => tileOk tile
  | .zero tile => tileOk tile
  | .normalise tile _ => tileOk tile
  | .unpackBfp tile _ => tileOk tile
  | .packBfp tile _ => tileOk tile
  | .moveComplete tile => tileOk tile
  | .taskComplete _ => true
  | .kernelLoad f r _ => functionOk f && ringOk r
  | .kernelFree f r => functionOk f && ringOk r
  | .matmul _ _ _ => true
  | .matvec _ _ _ => true
  | .conv _ _ _ => true
  | .cmatmul _ _ _ => true
  | .dft _ _ => true
  | .interp _ _ _ => true
  | .elementwise _ _ => true
  | .exp2 _ _ => true
  | .recip _ _ => true
  | .rsqrt _ _ => true
  | .exp _ _ => true
  | .sigmoid _ _ => true
  | .silu _ _ => true
  | .gelu _ _ => true
  | .tanh _ _ => true
  | .softmax _ _ => true
  | .rmsnorm _ _ => true
  | .layernorm _ _ => true
  | .quant _ _ => true
  | .reduceOrdered _ _ => true
  | .reduceArrival _ _ => true
  | .reducePartialArrival _ _ rank _ => rankOk rank
  | .gateDrop _ _ => true
  | .gateReroute _ _ => true
  | .gateArrival _ _ _ => true
  | .moveNode _ _ _ => true
  | .branch _ _ => true
  | .exit _ _ => true
  | .atomic _ _ => true
  | .nodeComplete _ _ => true
  | .modelLoad f r _ => functionOk f && ringOk r
  | .modelLoadComplete _ => true
  | .modelUnload f r => functionOk f && ringOk r
  | .modelUnloadComplete _ => true
  | .invoke f r _ => functionOk f && ringOk r
  | .invocationStart _ _ => true
  | .beInvocationPlace _ _ => true
  | .invocationComplete _ => true
  | .stateFree f r => functionOk f && ringOk r
  | .waveIssue _ => true
  | .dlTti f r _ => functionOk f && ringOk r
  | .ulTti f r _ => functionOk f && ringOk r
  | .txData f r _ => functionOk f && ringOk r
  | .ulDci f r _ => functionOk f && ringOk r
  | .orderCutoff c _ _ => cellOk c
  | .missedLimitReached c => cellOk c
  | .ldpcDecode c _ => cellOk c
  | .ldpcEncode c _ _ _ => cellOk c
  | .polarEncode c _ _ _ => cellOk c
  | .polarDecode c _ _ _ _ => cellOk c
  | .resultBatchWrite c _ _ _ _ => cellOk c
  | .srsEstimateExpiry c _ => cellOk c
  | .releasePoint c _ => cellOk c
  | .symbolRelease c _ _ => cellOk c
  | .symbolWindowClose c _ _ => cellOk c
  | .start w c => w.wf && cellOk c
  | .stop w c => w.wf && cellOk c
  | .hold w c => w.wf && cellOk c
  | .resume w c => w.wf && cellOk c
  | .reset w c => w.wf && cellOk c
  | .move w c _ => w.wf && cellOk c
  | .abortMove w c => w.wf && cellOk c
  | .startResize c => cellOk c
  | .holdSourceCheck c _ => cellOk c
  | .startFrameReached c => cellOk c
  | .firstFrameEnd c => cellOk c
  | .stopFrameReached c => cellOk c
  | .radioPartitionShrink cluster => clusterOk cluster
  | .holdFrameReached c => cellOk c
  | .resumeFrameReached c => cellOk c
  | .resetFrameReached c => cellOk c
  | .holdSourceWrite w c _ => w.wf && cellOk c
  | .holdSourceSwitch c => cellOk c
  | .holdLaunch c _ => cellOk c
  | .conductorHeartbeat cluster core => clusterOk cluster && coreOk core
  | .conductorHang cluster core => clusterOk cluster && coreOk core
  | .conductorSelfcheckPass cluster core => clusterOk cluster && coreOk core
  | .handback c => cellOk c
  | .conductorRestartByControl cluster => clusterOk cluster
  | .moveTargetPrepare c => cellOk c
  | .moveBulkCopy c _ _ => cellOk c
  | .moveCommitPoint c _ _ => cellOk c
  | .dualRxOpen c => cellOk c
  | .moveHandover c => cellOk c
  | .moveFinalCopy c _ _ => cellOk c
  | .moveFinalAck c => cellOk c
  | .dualRxClose c => cellOk c
  | .portModeWrite w p => w.wf && portOk p
  | .laneGroupsWrite w => w.wf
  | .portLinkUp p => portOk p
  | .portDown p => portOk p
  | .frameReceive p _ => portOk p
  | .delayMeasRequestTx c => cellOk c
  | .egressFrameStart p => portOk p
  | .frameTx f r _ => functionOk f && ringOk r
  | .frameTxWriteback f r => functionOk f && ringOk r
  | .idleSlopeWrite w p q => w.wf && portOk p && queueOk q
  | .telemetrySample p => portOk p
  | .telemetryClear w n => w.wf && entryOk n
  | .hostFlowWrite w h => w.wf && flowOk h
  | .map f r => functionOk f && ringOk r
  | .unmap f r => functionOk f && ringOk r
  | .cacheWaysWrite w p => w.wf && partOk p
  | .patrolScrub _ tile _ _ => tileOk tile
  | .wckTracking => true
  | .retrainLncWrite w dev => w.wf && deviceOk dev
  | .deviceRetrain dev => deviceOk dev
  | .deviceRetrainComplete dev => deviceOk dev
  | .gddr7TrainingDone _ _ => true
  | .gddr7ZeroiseComplete _ => true
  | .linkModeWrite w link => w.wf && linkOk link
  | .flitReceive link _ => linkOk link
  | .linkRetrainComplete link _ => linkOk link
  | .linkDown link => linkOk link
  | .fabricFrameReceive link _ _ _ _ _ => linkOk link
  | .load p => p.wf
  | .store p => p.wf
  | .read p => p.wf
  | .fetchAdd p => p.wf
  | .swap p => p.wf
  | .cas p => p.wf
  | .minS p => p.wf
  | .maxS p => p.wf
  | .minU p => p.wf
  | .maxU p => p.wf
  | .faddF32 p => p.wf
  | .faddF64 p => p.wf
  | .data p => p.wf
  | .ack p => p.wf
  | .reply p => p.wf
  | .getS p => p.wf
  | .inv p => p.wf
  | .invAck p => p.wf
  | .evictS p => p.wf
  | .heartbeat p => p.wf
  | .heartbeatSend => true
  | .fence tile => tileOk tile
  | .fenceComplete _ => true
  | .requestRetry _ => true
  | .requestLost _ => true
  | .replayEntryAge job _ _ => jobOk job
  | .peerDeclaredDead _ => true
  | .readmit w => w.wf
  | .jobApplyLncWrite w j => w.wf && jobOk j
  | .jobActivate j => jobOk j
  | .jobBind f r => functionOk f && ringOk r
  | .teardown w j => w.wf && jobOk j
  | .teardownTimeout j => jobOk j
  | .teardownComplete j => jobOk j
  | .ncroDrop w j => w.wf && jobOk j
  | .fabricLinkUp link _ => linkOk link
  | .create f r => functionOk f && ringOk r
  | .destroy f r => functionOk f && ringOk r
  | .signal f r => functionOk f && ringOk r
  | .eventReset f r => functionOk f && ringOk r
  | .proxy f r _ => functionOk f && ringOk r
  | .waitBegin _ => true
  | .syncSignal p => p.wf
  | .syncWait p => p.wf
  | .syncGrant p => p.wf
  | .syncAbandon p => p.wf
  | .stalemateWindowExpiry _ => true
  | .staleReport job rank _ _ => jobOk job && rankOk rank
  | .staleQuery job => jobOk job
  | .staleConfirm job rank => jobOk job && rankOk rank
  | .staleReject job rank => jobOk job && rankOk rank
  | .staleHalt job => jobOk job
  | .staleResume job => jobOk job
  | .staleConfirmTimeout job => jobOk job
  | .stalemateRecordRead acc _ => acc.wf
  | .ringEnable f r _ => functionOk f && ringOk r
  | .ringFetch f r _ _ => functionOk f && ringOk r
  | .ringExtraFetch f r _ _ => functionOk f && ringOk r
  | .ringFallbackFetch f r _ _ => functionOk f && ringOk r
  | .nopDescriptor f r => functionOk f && ringOk r
  | .task f r _ => functionOk f && ringOk r
  | .ctxEnable w x => w.wf && contextOk x
  | .completionConsReread f r _ => functionOk f && ringOk r
  | .modTimeExpiry f r => functionOk f && ringOk r
  | .flr f => functionOk f
  | .functionEnableWrite w => w.wf
  | .vfEnableClear => true
  | .d3hotEntry f => functionOk f
  | .pcieLinkDown => true
  | .functionDisableComplete f => functionOk f
  | .atsInvalidation f _ _ => functionOk f
  | .vfEnableSet => true
  | .msixVectorUnmask f _ => functionOk f
  | .tdispRequest f _ _ => functionOk f
  | .ideKmRequest channel _ => channel.wf
  | .frameRxBuf f r => functionOk f && ringOk r
  | .dictRead acc index sub _ => acc.wf && indexOk index && subOk sub
  | .dictWrite w index sub _ _ => w.wf && indexOk index && subOk sub
  | .readBlock acc index sub last => acc.wf && indexOk index && subOk sub && subOk last
  | .writeBlock acc index _ _ _ => acc.wf && indexOk index
  | .subscribe acc index sub last _ _ => acc.wf && indexOk index && subOk sub && subOk last
  | .notify _ index sub => indexOk index && subOk sub
  | .notifyPopRead acc => acc.wf
  | .hello h => h.wf
  | .prove h => h.wf
  | .close h => h.wf
  | .proveTimeout _ => true
  | .sessionIdleTimeout _ => true
  | .segmentTimeout _ => true
  | .arpRequest _ => true
  | .icmpEcho _ _ => true
  | .mgModeWrite w => w.wf
  | .mgIpv4Write w => w.wf
  | .peerKeyWrite w k sub => w.wf && peerOk k && subOk sub
  | .mgLinkUp => true
  | .mgLinkDown => true
  | .inputFault _ => true
  | .inputQualified _ => true
  | .powerLoss => true
  | .domainTurnOn _ => true
  | .domainTurnOff _ => true
  | .governorReduce _ _ _ _ => true
  | .governorRaise _ _ => true
  | .burstDisarm => true
  | .burstArm => true
  | .shareOrderWrite w => w.wf
  | .radioFloorWrite w => w.wf
  | .vrAlertNAssert => true
  | .vrAlertNDeassert => true
  | .forceLowestWrite w => w.wf
  | .overLimitTimeout => true
  | .thermalLimitTimeout => true
  | .lowestStateExit => true
  | .capUnmetSet => true
  | .capExcessUpdate => true
  | .capUnmetClear => true
  | .sensorRead _ => true
  | .thermalThrottleStep => true
  | .thermalTrip => true
  | .referenceLost => true
  | .referenceReturn => true
  | .pllLockLost cluster => clusterOk cluster
  | .pllRelock cluster => clusterOk cluster
  | .energyIntegrate _ _ => true
  | .railClear w n => w.wf && railOk n
  | .residueError tile _ => tileOk tile
  | .tileWatchdogExpiry tile => tileOk tile
  | .radioRerun _ => true
  | .taskRerun _ => true
  | .partitionError cluster _ => clusterOk cluster
  | .clusterRecoveryComplete cluster => clusterOk cluster
  | .clusterRecoveryTimeout cluster => clusterOk cluster
  | .fatalError _ => true
  | .ctHeartbeat core => coreOk core
  | .ctHang core => coreOk core
  | .ctSelfcheckPass core => coreOk core
  | .ctHalfResume core => coreOk core
  | .ctDoubleHangRestart => true
  | .logPopRead acc => acc.wf
  | .promotionSwitch tile => tileOk tile
  | .healthUpdate => true
  | .livenessTick => true
  | .copyStart w => w.wf
  | .copyDone _ => true
  | .selftest w => w.wf
  | .selftestDone _ => true
  | .fwImageWrite w => w.wf
  | .fwSwitchLncWrite w n => w.wf && unitOk n
  | .fwSwitch n => unitOk n
  | .fwConductorPass _ => true
  | .fwSelfcheckFail _ => true
  | .powerOnReset _ => true
  | .resetNAssert => true
  | .chipReset w => w.wf
  | .chipResetInstant => true
  | .clusterReset w => w.wf
  | .partitionReset w => w.wf
  | .tileReset w => w.wf
  | .startupVerifyDone _ _ => true
  | .chipControlServing => true
  | .perstNDeassert => true
  | .perstNAssert => true
  | .pcieLinkUp => true
  | .install w => w.wf
  | .remove w => w.wf
  | .setOwnerSign w => w.wf
  | .release w => w.wf
  | .rollbackAdvance w => w.wf
  | .rollbackAdvanceComplete => true
  | .debugUnlock w => w.wf
  | .aliasDerivationComplete => true
  | .getVersion ch _ => ch.wf
  | .getCapabilities ch _ => ch.wf
  | .negotiateAlgorithms ch _ => ch.wf
  | .getDigests ch _ => ch.wf
  | .getCertificate ch _ => ch.wf
  | .challenge ch _ => ch.wf
  | .getMeasurements ch _ => ch.wf
  | .keyExchange ch _ => ch.wf
  | .finish ch _ => ch.wf
  | .keyUpdate ch _ => ch.wf
  | .spdmHeartbeat ch _ => ch.wf
  | .endSession ch _ => ch.wf
  | .spdmUnsupportedRequest ch _ _ => ch.wf

end Sys2Proof
end

