-- ==== Sys2Proof/Certificates/Slice0/Obligations.lean ====
section
/-! DEFINITION. The statements about the model. -/

set_option linter.unusedVariables false

open Sys2Proof Sys2Proof.Machine

/-- R177, R181, R188: scalar instructions of a sequencer that can issue write S[SD] alone and retire. -/
def Obligations.ScalarResults : Prop := ∀ (s : State) (n : Nat) (f : CFields),
  (s.vsRuns n (cCode 0x10 f) → exec (.sadd n f) s = .next (s.vsAfter n (fun x => x.setS f.sd (x.getS f.sa + x.getS f.sb)))) ∧
  (s.vsRuns n (cCode 0x11 f) → exec (.ssub n f) s = .next (s.vsAfter n (fun x => x.setS f.sd (x.getS f.sa - x.getS f.sb)))) ∧
  (s.vsRuns n (cCode 0x12 f) → exec (.smul n f) s = .next (s.vsAfter n (fun x => x.setS f.sd (x.getS f.sa * x.getS f.sb)))) ∧
  (s.vsRuns n (cCode 0x13 f) → exec (.sand n f) s = .next (s.vsAfter n (fun x => x.setS f.sd (x.getS f.sa &&& x.getS f.sb)))) ∧
  (s.vsRuns n (cCode 0x14 f) → exec (.sor n f) s = .next (s.vsAfter n (fun x => x.setS f.sd (x.getS f.sa ||| x.getS f.sb)))) ∧
  (s.vsRuns n (cCode 0x15 f) → exec (.sxor n f) s = .next (s.vsAfter n (fun x => x.setS f.sd (x.getS f.sa ^^^ x.getS f.sb)))) ∧
  (s.vsRuns n (cCode 0x16 f) → exec (.sshl n f) s = .next (s.vsAfter n (fun x => x.setS f.sd (x.getS f.sa <<< ((x.getS f.sb).toNat % 64))))) ∧
  (s.vsRuns n (cCode 0x17 f) → exec (.ssra n f) s = .next (s.vsAfter n (fun x => x.setS f.sd ((x.getS f.sa).sshiftRight ((x.getS f.sb).toNat % 64))))) ∧
  (s.vsRuns n (cCode 0x18 f) → exec (.sslt n f) s = .next (s.vsAfter n (fun x => x.setS f.sd (if (x.getS f.sa).toInt < (x.getS f.sb).toInt then 1 else 0)))) ∧
  (s.vsRuns n (cCode 0x19 f) → exec (.saddi n f) s = .next (s.vsAfter n (fun x => x.setS f.sd (x.getS f.sa + BitVec.ofInt 64 (signed 32 f.imm32))))) ∧
  (s.vsRuns n (cCode 0x20 f) → exec (.rdflg n f) s = .next (s.vsAfter n (fun x => x.setS f.sd (BitVec.ofNat 64 x.flagWord)))) ∧
  (s.vsRuns n (cCode 0x21 f) → exec (.rdlnc n f) s = .next (s.vsAfter n (fun x => x.setS f.sd (BitVec.ofNat 64 s.lnc)))) ∧
  (s.vsRuns n (cCode 0x22 f) → exec (.rdcyc n f) s = .next (s.vsAfter n (fun x => x.setS f.sd (BitVec.ofNat 64 ((s.tile n).tenths / 10 % 2 ^ 48)))))

/-- R183, R187, R188: the M-class instructions that access no memory write a scalar or an address register and retire. -/
def Obligations.ImmediateResults : Prop := ∀ (s : State) (n : Nat) (f : MFields),
  (s.vsRuns n (mCode 0x05 f) → exec (.sli n f) s = .next (s.vsAfter n (fun x => x.setS f.rd (BitVec.ofInt 64 (signed 32 f.imm32))))) ∧
  (s.vsRuns n (mCode 0x06 f) → exec (.slih n f) s = .next (s.vsAfter n (fun x => x.setS f.rd (BitVec.ofNat 64 ((x.getS f.rd).toNat % 2 ^ 32 + f.imm32 * 2 ^ 32))))) ∧
  (s.vsRuns n (mCode 0x07 f) → exec (.aset n f) s = .next (s.vsAfter n (fun x =>
    let v := x.getS (f.imm32 % 16)
    let i := f.rd % 8
    if f.rd / 8 % 4 = 0 then x.setP i (v.setWidth 32) else if f.rd / 8 % 4 = 1 then x.setQ i (v.setWidth 16)
    else if f.rd / 8 % 4 = 2 then x.setB i (v.setWidth 32) else x.setN i (v.setWidth 16)))) ∧
  (s.vsRuns n (mCode 0x08 f) → exec (.aget n f) s = .next (s.vsAfter n (fun x =>
    let i := f.rd % 8
    x.setS (f.imm32 % 16) (if f.rd / 8 % 4 = 0 then (x.getP i).setWidth 64 else if f.rd / 8 % 4 = 1 then (x.getQ i).setWidth 64
      else if f.rd / 8 % 4 = 2 then (x.getB i).setWidth 64 else (x.getN i).setWidth 64)))) ∧
  (s.vsRuns n (mCode 0x09 f) → exec (.paddi n f) s = .next (s.vsAfter n (fun x => x.setP f.pk (BitVec.ofNat 32 ((x.getP f.pk).toNat + f.imm32)))))

/-- R180, R181, R188, R200: the V-class instructions of a sequencer that can issue. Lane results are those of the shared lane operations. -/
def Obligations.VectorResults : Prop := ∀ (s : State) (n : Nat) (f : VFields),
  (s.vsRuns n (vCode 0x00 f) → exec (.nop n f) s = .next (s.vsAfter n id)) ∧
  (s.vsRuns n (vCode 0x01 f) → exec (.vadd n f) s = .next (s.vsAfter n (vsAddSub false f))) ∧
  (s.vsRuns n (vCode 0x02 f) → exec (.vsub n f) s = .next (s.vsAfter n (vsAddSub true f))) ∧
  (s.vsRuns n (vCode 0x03 f) → exec (.vmul n f) s = .next (s.vsAfter n (vsMul f))) ∧
  (s.vsRuns n (vCode 0x04 f) → exec (.vrotj n f) s = .next (s.vsAfter n (vsRotj f))) ∧
  (s.vsRuns n (vCode 0x05 f) → exec (.vshr n f) s = .next (s.vsAfter n (fun x => x.setV f.vd (ofParts ((parts16 (x.getV f.va)).map (fun c => shrFloor c f.shift)))))) ∧
  (s.vsRuns n (vCode 0x06 f) → exec (.vshrs n f) s = .next (s.vsAfter n (fun x => x.setV f.vd (ofParts ((parts16 (x.getV f.va)).map (fun c => shrFloor c ((x.getS f.vc).toNat % 16))))))) ∧
  (s.vsRuns n (vCode 0x07 f) → exec (.vshl n f) s = .next (s.vsAfter n (fun x => x.putParts f.vd ((parts16 (x.getV f.va)).map (fun c => sat16 (c * (2 ^ f.shift : Nat))))))) ∧
  (s.vsRuns n (vCode 0x08 f) → exec (.vmax n f) s = .next (s.vsAfter n (vsMaxMin fp32Max max f))) ∧
  (s.vsRuns n (vCode 0x09 f) → exec (.vmin n f) s = .next (s.vsAfter n (vsMaxMin fp32Min min f))) ∧
  (s.vsRuns n (vCode 0x0A f) → exec (.vmag2 n f) s = .next (s.vsAfter n (vsMag2 f))) ∧
  (s.vsRuns n (vCode 0x0B f) → exec (.vsel n f) s = .next (s.vsAfter n (fun x => x.setV f.vd (ofLanes ((List.range 32).map (fun k =>
    elem 32 (if bit (x.getS f.vc).toNat k then x.getV f.va else x.getV f.vb) k)))))) ∧
  (s.vsRuns n (vCode 0x0C f) → exec (.vperm n f) s = .next (s.vsAfter n (vsPerm f))) ∧
  (s.vsRuns n (vCode 0x0D f) → exec (.vbcast n f) s = .next (s.vsAfter n (fun x => x.setV f.vd (ofLanes (List.replicate 32 ((x.getS f.vc).toNat % 2 ^ 32)))))) ∧
  (s.vsRuns n (vCode 0x0E f) → exec (.vbexp n f) s = .next (s.vsAfter n (fun x => x.setS f.vd (BitVec.ofNat 64 (groupSigns f x))))) ∧
  (s.vsRuns n (vCode 0x0F f) → exec (.vbscl n f) s = .next (s.vsAfter n (fun x => x.setS f.vd (BitVec.ofNat 64 (f.imm16 / 256 % 16 - groupSigns f x))))) ∧
  (s.vsRuns n (vCode 0x10 f) → exec (.vcmpgt n f) s = .next (s.vsAfter n (vsCmpgt f))) ∧
  (s.vsRuns n (vCode 0x11 f) → exec (.vtof n f) s = .next (s.vsAfter n (vsTof f))) ∧
  (s.vsRuns n (vCode 0x12 f) → exec (.vtoi n f) s = .next (s.vsAfter n (vsToi f)))

/-- R127, R182, R188, R209: the A-class instructions of a sequencer that can issue, on the accumulators' 40-bit parts. -/
def Obligations.AccumulatorResults : Prop := ∀ (s : State) (n : Nat) (f : AFields),
  (s.vsRuns n (aCode 0x00 f) → exec (.aclr n f) s = .next (s.vsAfter n (fun x => x.setA f.ad 0))) ∧
  (s.vsRuns n (aCode 0x01 f) → exec (.aload n f) s = .next (s.vsAfter n (fun x => x.setA f.ad (ofAcc ((parts16 (x.getV f.va)).map (fun c => c * 2 ^ 15)))))) ∧
  (s.vsRuns n (aCode 0x02 f) → exec (.amul n f) s = .next (s.vsAfter n (fun x => x.setA f.ad (ofAcc (laneProducts f.lmode f.conj (x.getV f.va) (x.getV f.vb)))))) ∧
  (s.vsRuns n (aCode 0x03 f) → exec (.amac n f) s = .next (s.vsAfter n (fun x =>
    x.putAcc f.ad (accSum (accParts (x.getA f.ad)) (laneProducts f.lmode f.conj (x.getV f.va) (x.getV f.vb)))))) ∧
  (s.vsRuns n (aCode 0x04 f) → exec (.amsu n f) s = .next (s.vsAfter n (fun x =>
    x.putAcc f.ad (accSum (accParts (x.getA f.ad)) ((laneProducts f.lmode f.conj (x.getV f.va) (x.getV f.vb)).map (fun p => -p)))))) ∧
  (s.vsRuns n (aCode 0x05 f) → exec (.aadd n f) s = .next (s.vsAfter n (fun x => x.putAcc f.ad (accSum (accParts (x.getA f.ad)) (accParts (x.getA f.as)))))) ∧
  (s.vsRuns n (aCode 0x06 f) → exec (.asum n f) s = .next (s.vsAfter n (fun x => x.putAcc f.ad
    (accFold ((List.range 32).map (fun k => acc40 (x.getA f.as) (2 * k))) :: accFold ((List.range 32).map (fun k => acc40 (x.getA f.as) (2 * k + 1)))
      :: List.replicate 62 (0, false))))) ∧
  (s.vsRuns n (aCode 0x07 f) → exec (.anrw n f) s = .next (s.vsAfter n (fun x =>
    (x.setV f.vd (ofParts (((accParts (x.getA f.as)).map (fun c => narrowQ30 c f.shift)).map (fun p => p.1)))).flag false
      (anySat ((accParts (x.getA f.as)).map (fun c => narrowQ30 c f.shift))))))

/-- R192, R193: branches take effect after two delay slots, a repeat runs its body COUNT times, and HALT ends a rank that has no X
operation left; none of them stands in a delay slot or, but for a repeat, in a repeat. -/
def Obligations.ControlResults : Prop := ∀ (s : State) (n : Nat) (f : CFields), (s.tile n).live.vs.slots = 0 → (s.tile n).live.vs.loops = [] →
  let x := (s.tile n).live.vs
  let rel := relTarget x f.imm32
  let go := fun (target : Nat) => s.setTile n ((s.tile n).branch target)
  (s.vsRuns n (cCode 0x01 f) → exec (.br n f) s = .next (go rel)) ∧
  (s.vsRuns n (cCode 0x02 f) → exec (.beqz n f) s = .next (go (if x.getS f.sa = 0 then rel else x.pc + 3))) ∧
  (s.vsRuns n (cCode 0x03 f) → exec (.bnez n f) s = .next (go (if x.getS f.sa ≠ 0 then rel else x.pc + 3))) ∧
  (s.vsRuns n (cCode 0x04 f) → exec (.bltz n f) s = .next (go (if (x.getS f.sa).toInt < 0 then rel else x.pc + 3))) ∧
  (s.vsRuns n (cCode 0x05 f) → exec (.jal n f) s = .next (s.setTile n
    (({ s.tile n with live := { (s.tile n).live with vs := x.setS f.sd (BitVec.ofNat 64 (x.pc + 3)) } }).branch rel))) ∧
  (s.vsRuns n (cCode 0x06 f) → exec (.jr n f) s = .next (go ((x.getS f.sa).toNat % 65536))) ∧
  (s.vsRuns n (cCode 0x08 f) → f.imm32 % 65536 ≠ 0 → Does (.vsRepeat n f) s (fun t => t = s.setTile n { s.tile n with
    live := { (s.tile n).live with vs := { x with pc := x.pc + 1, loops := [⟨x.pc + 1, f.body + 1, f.imm32 % 65536 - 1, f.yield⟩] } }
    atPoint := false, sincePoint := (s.tile n).sincePoint + 1 })) ∧
  (s.vsRuns n (cCode 0x09 f) → (x.getS f.sa).toNat % 65536 ≠ 0 → Does (.repeats n f) s (fun t => t = s.setTile n { s.tile n with
    live := { (s.tile n).live with vs := { x with pc := x.pc + 1, loops := [⟨x.pc + 1, f.body + 1, (x.getS f.sa).toNat % 65536 - 1, f.yield⟩] } }
    atPoint := false, sincePoint := (s.tile n).sincePoint + 1 })) ∧
  (s.vsRuns n (cCode 0x3F f) → (s.tile n).live.pass = none → (s.tile n).live.mv = none → (s.tile n).live.moves = [] →
    exec (.halt n f) s = .next ((s.setTile n ((s.tile n).pause .halted)).rankEnd n))

/-- R192, R193: a branch runs its two delay slots and then goes on at its target; a loop starts again until its iterations are used up. -/
def Obligations.DelaySlotsAndLoops : Prop := ∀ (t : Tile) (target : Nat), t.live.vs.loops = [] →
  let b := (t.branch target).retire
  b.live.vs.pc = t.live.vs.pc + 2 ∧ b.live.vs.slots = 1 ∧ b.retire.live.vs.pc = target ∧ b.retire.live.vs.slots = 0 ∧
  (∀ (l : Loop) (r : List Loop), l.left ≠ 0 → loopNext (l :: r) (l.start + l.len) = ({ l with left := l.left - 1 } :: r, l.start, true)) ∧
  (∀ (l : Loop) (r : List Loop), l.left = 0 → loopNext (l :: r) (l.start + l.len) = loopNext r (l.start + l.len))

/-- R183, R185: a load whose bytes are accessible and sound reads them, little-endian, into its register and updates its pointer; a store
writes the register's bytes at the same addresses. -/
def Obligations.MemoryAccess : Prop := ∀ (s : State) (n : Nat) (f : MFields),
  let t := s.tile n
  (∀ l, s.vsRuns n (mCode 0x01 f) → checkedAddrs t t.ctx f 128 = .ok l → (∀ a ∈ l, a / 8 ∉ t.poison) →
    exec (.vld n f) s = .next (s.vsAfter n (fun x => accessUpdate (x.setV f.rd (BitVec.ofNat 1024 (natOf (l.map t.byte)))) f))) ∧
  (∀ l, s.vsRuns n (mCode 0x03 f) → checkedAddrs t t.ctx f 8 = .ok l → (∀ a ∈ l, a / 8 ∉ t.poison) →
    exec (.sld n f) s = .next (s.vsAfter n (fun x => accessUpdate (x.setS f.rd (BitVec.ofNat 64 (natOf (l.map t.byte)))) f))) ∧
  (∀ l, s.vsRuns n (mCode 0x02 f) → checkedAddrs t t.ctx f 128 = .ok l →
    Does (.vst n f) s (fun u => ∃ T : Tile, u = s.setTile n T ∧ T.mem = (t.scatter (l.zip (bytesOf 128 (t.live.vs.getV f.rd).toNat))).mem)) ∧
  (∀ l, s.vsRuns n (mCode 0x04 f) → checkedAddrs t t.ctx f 8 = .ok l →
    Does (.sst n f) s (fun u => ∃ T : Tile, u = s.setTile n T ∧ T.mem = (t.scatter (l.zip (bytesOf 8 (t.live.vs.getS f.rd).toNat))).mem))

/-- R185: a store changes no byte of the tile outside the addresses its operand names; the registers but its pointer (and, in the row mode, its row start), every other tile and the
rest of the machine stay. The stored addresses are those of checkedAddrs, which the meaning uses. -/
def Obligations.StoreFrame : Prop := ∀ (s : State) (n : Nat) (f : MFields) (l : List Nat),
  let t := s.tile n
  let keeps := fun (i : Instr) => Does i s (fun u => ∃ T : Tile, u = s.setTile n T ∧ (∀ a, a ∉ l → T.byte a = t.byte a) ∧ T.live.vs.v = t.live.vs.v
    ∧ T.live.vs.a = t.live.vs.a ∧ T.live.vs.s = t.live.vs.s ∧ T.live.vs.invalid = t.live.vs.invalid ∧ T.live.vs.saturated = t.live.vs.saturated
    ∧ T.live.vs.q = t.live.vs.q ∧ T.live.vs.n = t.live.vs.n
    ∧ (∀ j, j % 8 ≠ f.pk % 8 → T.live.vs.getP j = t.live.vs.getP j ∧ T.live.vs.getB j = t.live.vs.getB j) ∧ (f.amode ≠ 4 → T.live.vs.b = t.live.vs.b))
  (s.vsRuns n (mCode 0x02 f) → checkedAddrs t t.ctx f 128 = .ok l → keeps (.vst n f)) ∧
  (s.vsRuns n (mCode 0x04 f) → checkedAddrs t t.ctx f 8 = .ok l → keeps (.sst n f))

/-- R177, R188: a scalar arithmetic instruction changes no register but S[SD], no flag, no byte of memory, no other tile and nothing else of
the machine, beside the advance of the program counter. -/
def Obligations.ScalarFrame : Prop := ∀ (s : State) (n : Nat) (f : CFields),
  let t := s.tile n
  let keeps := fun (i : Instr) => Does i s (fun u => ∃ T : Tile, u = s.setTile n T ∧ T.mem = t.mem ∧ T.live.vs.v = t.live.vs.v ∧ T.live.vs.a = t.live.vs.a
    ∧ T.live.vs.p = t.live.vs.p ∧ T.live.vs.q = t.live.vs.q ∧ T.live.vs.b = t.live.vs.b ∧ T.live.vs.n = t.live.vs.n
    ∧ T.live.vs.invalid = t.live.vs.invalid ∧ T.live.vs.saturated = t.live.vs.saturated
    ∧ (∀ j, j % 16 ≠ f.sd % 16 → T.live.vs.getS j = t.live.vs.getS j))
  (s.vsRuns n (cCode 0x10 f) → keeps (.sadd n f)) ∧ (s.vsRuns n (cCode 0x11 f) → keeps (.ssub n f)) ∧ (s.vsRuns n (cCode 0x12 f) → keeps (.smul n f)) ∧
  (s.vsRuns n (cCode 0x13 f) → keeps (.sand n f)) ∧ (s.vsRuns n (cCode 0x14 f) → keeps (.sor n f)) ∧ (s.vsRuns n (cCode 0x15 f) → keeps (.sxor n f)) ∧
  (s.vsRuns n (cCode 0x16 f) → keeps (.sshl n f)) ∧ (s.vsRuns n (cCode 0x17 f) → keeps (.ssra n f)) ∧ (s.vsRuns n (cCode 0x18 f) → keeps (.sslt n f)) ∧
  (s.vsRuns n (cCode 0x19 f) → keeps (.saddi n f)) ∧ (s.vsRuns n (cCode 0x20 f) → keeps (.rdflg n f)) ∧ (s.vsRuns n (cCode 0x21 f) → keeps (.rdlnc n f)) ∧
  (s.vsRuns n (cCode 0x22 f) → keeps (.rdcyc n f))

/-- R186, R198: a word with a bit set in a field that its opcode does not use is illegal: it faults with 1, and its task ends with that FAULT and the
instruction's index in INFO. One opcode of each class stands for its class. -/
def Obligations.IllegalWords : Prop := ∀ (s : State) (n : Nat), s.vsReady n = true → s.hasTask ((s.tile n).task - 1) = true →
  let ends := fun (i : Instr) => ∃ t, exec i s = .next t ∧ (t.task ((s.tile n).task - 1)).fault = 1 ∧ (t.task ((s.tile n).task - 1)).status = .ended
    ∧ (t.task ((s.tile n).task - 1)).info = (s.tile n).live.vs.pc
  (∀ f, s.fetches n (vCode 0x01 f) = true → legalOpV 0x01 f = false → ends (.vadd n f)) ∧ (∀ f, s.fetches n (aCode 0x03 f) = true → legalOpA 0x03 f = false → ends (.amac n f)) ∧ (∀ f, s.fetches n (mCode 0x02 f) = true → legalOpM 0x02 f = false → ends (.vst n f)) ∧
  (∀ f, s.fetches n (cCode 0x10 f) = true → legalOpC 0x10 f = false → ends (.sadd n f)) ∧ (∀ f, s.fetches n (xCode 0x01 f) = true → legalOpX 0x01 f = false → ends (.xpass n f))

/-- R189, R190: an X instruction whose descriptor is aligned, accessible and sound, and whose unit has room, hands its operation over and retires;
with the unit busy it waits, and is accepted once there is room. XWAIT goes on when every channel of its mask is signalled. -/
def Obligations.UnitIssue : Prop := ∀ (s : State) (n : Nat) (f : XFields),
  let t := s.tile n
  let a := ((t.live.vs.getP f.pk).toNat + f.imm32) % 2 ^ 32
  let ready := fun (kind size : Nat) => a % size = 0 ∧ t.ownsRange t.ctx a size = true
  (∀ t', s.vsRuns n (xCode 0x01 f) → ready 0 64 → t.live.pass = none → t.start 0 a (f.sync % 8) s.time.ticks (fun _ => false) = .ok t' →
    exec (.xpass n f) s = .next (s.setTile n t'.retire)) ∧
  (∀ t', s.vsRuns n (xCode 0x02 f) → ready 1 64 → t.live.mv = none → t.start 1 a (f.sync % 8) s.time.ticks (fun _ => false) = .ok t' →
    exec (.xmv n f) s = .next (s.setTile n t'.retire)) ∧
  (∀ t', s.vsRuns n (xCode 0x03 f) → ready 2 32 → t.live.moves.length < 8 → t.start 2 a (f.sync % 8) s.time.ticks (s.moveOverlaps n t.ctx) = .ok t' →
    exec (.xmove n f) s = .next (s.setTile n t'.retire)) ∧
  (s.vsRuns n (xCode 0x01 f) → ready 0 64 → t.live.pass ≠ none →
    exec (.xpass n f) s = .next (s.setTile n (t.pause (.unit 0 a (f.sync % 8))))) ∧
  (s.vsRuns n (xCode 0x04 f) → t.live.channels &&& (f.chmask % 256) = f.chmask % 256 →
    exec (.xwait n f) s = .next (s.setTile n ({ t with live := t.live.clear (f.chmask % 256), wait := .none }).retire)) ∧
  (s.vsRuns n (xCode 0x04 f) → t.live.channels &&& (f.chmask % 256) ≠ f.chmask % 256 →
    exec (.xwait n f) s = .next (s.setTile n (t.pause (.channels (f.chmask % 256)))))

/-- R139, R143, R157, R189, R190, R197, R198: what ends an X operation. A stalled instruction is accepted; a pass that takes from the stage what its
stream brought, and whose operands have all arrived and are sound, leaves its results and signals its channel; a borrowable task 256 tile cycles past its last preemption point faults with 7. -/
def Obligations.UnitCompletion : Prop := ∀ (s : State) (n : Nat),
  let t := s.tile n
  (∀ kind a sync t', t.wait = .unit kind a sync → t.unitFree kind = true → t.task ≠ 0 → t.switching = 0 → t.sleep = 0 →
    t.start kind a sync s.time.ticks (s.moveOverlaps n t.ctx) = .ok t' → exec (.xIssueAccepted n) s = .next (s.setTile n t'.unpause.retire)) ∧
  (∀ op, let p := passDesc false op.desc
    let u := p.feed t (s.ownWaves t)
    t.live.pass = some op → t.unitRuns = true → p.streamed u = true → p.poisoned u = false →
    exec (.passComplete n) s = .next ((s.setTile n ({ p.finish u with
      live := { (p.finish u).live with pass := none }, lastActive := s.time.ticks + 1 }.signal op.sync)).rankEnd n)) ∧
  (∀ op, let p := passDesc true op.desc
    let u := p.feed t (s.ownWaves t)
    t.live.mv = some op → t.unitRuns = true → p.streamed u = true → p.poisoned u = false →
    exec (.mvPassComplete n) s = .next ((s.setTile n ({ p.finish u with live := { (p.finish u).live with mv := none } }.signal op.sync)).rankEnd n)) ∧
  (∀ cycles, s.bounded t = true → t.atPoint = false → 256 < cycles → t.sincePoint ≤ cycles → 10 * cycles ≤ t.tenths - t.pointAt + tickSpan →
    t.switching = 0 → exec (.preemptBound n cycles) s = .next (s.vsFault n 7))

/-- R130, R132, R133, R164, R166 to R168, R195: the first move of a tile whose ends lie in the tile's own SRAM, its source sound and not yet read to
its end, reads the rest of its source and keeps what its mode makes of it, with SATURATED; that reaches memory with its completion. -/
def Obligations.TileMoves : Prop := ∀ (s : State) (n : Nat) (arrived : List Byte) (op : XOp) (rest : List XOp),
  let t := s.tile n
  let m := moveCmd op.desc
  let k := op.data.length
  let o := m.transform (if m.mode = 1 ∨ m.srcBytes = 0 then [] else op.data ++ t.read (m.src + k) (m.srcBytes - k))
  let moved := (s.updTile n (fun t => t.moveWritten o.1 o.2)).moveFlag n o.2
  t.live.moves = op :: rest → op.written = false → t.unitRuns = true → m.srcVa = false → m.dstVa = false →
  (m.mode = 1 ∨ t.poisoned (m.src + k) (m.srcBytes - k) = false) →
  (m.mode = 0 → exec (.copy n arrived) s = .next moved) ∧
  (m.mode = 1 → exec (.zero n) s = .next moved) ∧
  (m.mode = 2 → exec (.normalise n arrived) s = .next moved) ∧
  (m.mode = 3 → exec (.unpackBfp n arrived) s = .next moved) ∧
  (m.mode = 4 → exec (.packBfp n arrived) s = .next moved)

/-- R164, R166, R189, R191, R385, R398: a move that has been carried out, with no remote line open, writes what it brings to this chip's memory, leaves its
tile's list and signals its channel; one whose destination is the tile's own SRAM writes there. -/
def Obligations.MoveCompletes : Prop := ∀ (s : State) (n : Nat) (op : XOp) (rest : List XOp),
  (s.tile n).live.moves = op :: rest → op.written = true → (s.tile n).unitRuns = true → (op.id = 0 ∨ s.moveOpen op.id = false) →
  (∀ u, s.moveLand n op = (u, .ready) → exec (.moveComplete n) s = .next (u.moveEnds n)) ∧
  ((moveCmd op.desc).dstVa = false → exec (.moveComplete n) s = .next ((s.updTile n (fun t => t.write (moveCmd op.desc).dst op.data)).moveEnds n))

/-- R202, R203, R358, R414, R416, R441 to R443, R448: a valid kernel package that can be read gets the lowest free handle and is measured; a kernel that
nothing uses is freed; a task that no reason refuses is listed with its target and its arguments; an ended task leaves its record and goes. -/
def Obligations.KernelsAndTasks : Prop :=
  (∀ (s : State) (f r : Nat) (d : Desc) (x : Slot64), s.admits f r d x [1, 2] →
    let u := s.takeDesc f r
    (∀ package bs p, isOp 0x06 x = true → u.vaRead d.context (mapBits x 447 384) (mapBits x 511 480) package = .ok (bs, false) →
      checkPackage bs bs.length (u.reg Reg.determinismMode == 1) = .ok p → u.measured d.func < 256 →
      let k : Kernel := { func := d.func, borrowable := p.2.2, entries := p.1, code := p.2.1 }
      exec (.kernelLoad f r package) s = .next ((({ u with kernels := Table.insert u.kernels u.freeHandle k }).measure d.func
        (Config.sha512 (bs.take (128 + 8 * p.2.1.length)))).served d u.freeHandle)) ∧
    (∀ k, isOp 0x07 x = true → Table.find? u.kernels (mapBits x 511 496) = some k → k.func = d.func → k.slot = 0 → u.kernelUsed (mapBits x 511 496) = false →
      exec (.kernelFree f r) s = .next ((u.dropKernel (mapBits x 511 496)).served d)) ∧
    (∀ args bs, let b := taskBodyOf x []
      isOp 0x01 x = true → u.taskReason d b = none → u.vaRead d.context b.argAddr (64 * b.vcount) args = .ok (bs, false) →
      exec (.task f r args) s = .next (u.addTask (u.taskOf d (taskBodyOf x bs))))) ∧
  (∀ (s : State) (n : Nat), let k := s.task n
    k.radio = none → s.hasTask n = true → k.status = .ended → k.inv = 0 →
    (k.fault ≠ 0 ∨ (k.signals = [] ∧ s.fabric.fences.any (fun x => x.task == n + 1) = false)) → exec (.taskComplete n) s = .next (s.completeTask n))

/-- R16, R58, R60, R91 to R93, R414: the launch unit. Waits are evaluated from the target on, clocks are started the wake lead before it, a launch
with its clocks ready starts, a window serves the launches that wait in order, and a radio launch is booked. -/
def Obligations.LaunchUnit : Prop := ∀ (s : State) (n : Nat),
  let k := s.task n
  (s.hasTask n = true → k.status = .waiting → k.rerunDue = false → k.inv = 0 → k.target ≤ s.lnc → exec (.waitBegin n) s = .next (s.settle [n])) ∧
  (s.hasTask n = true → k.status = .registered → k.target ≤ s.lnc + s.wakeLead (s.taskTiles k) →
    exec (.wakeLeadStart n) s = .next ((s.taskTiles k).foldl State.startWake s)) ∧
  (s.hasTask n = true → k.status = .registered → (s.taskTiles k).all s.awake = true → exec (.clocksReady n) s = .next (s.startRanks n)) ∧
  exec .staggerWindow s = .next (s.allLaunches.foldl (fun s (e : RankLaunch) => s.tryRank e.1 e.2.2.1 e.2.2.2) s) ∧
  (s.hasTask n = true → k.status = .waiting → k.radio.isSome = true → k.rerunDue = false →
    Does (.radioLaunchRegister n) s (fun t => (t.task n).status = .registered))

/-- R17, R58, R59, R173 to R176: a tile that holds no task and no live state, with no launch ahead, goes to a deeper sleep state, at T4 without its SRAM;
a wake that has run its time leaves it at T1, from T4 with SRAM that reads zero; a cluster without radio or tempo tiles, asleep and without launches, stops
its PLL. -/
def Obligations.SleepStates : Prop := ∀ (s : State) (n depth cluster : Nat),
  let t := s.tile n
  let deep := { t with sleep := depth, asleepAt := s.time.ticks + ticksOf (sleepTimes depth).1 }
  (t.sleep < depth → depth ≤ 4 → t.task = 0 → t.switching = 0 → t.wakeAt = 0 → n < 512 → t.live = {} → s.nextAny n = none → (depth = 4 → t.pages = []) →
    (s.isRadio n = true → depth ≤ 2) →
    exec (.tileSleepEntry n depth) s = .next (s.setTile n (if depth = 4 then { deep with mem := [], poison := [], code := [] } else deep))) ∧
  (t.wakeAt ≠ 0 → t.wakeAt - 1 ≤ s.time.ticks → exec (.tileWakeComplete n) s = .next (s.setTile n
    (if t.sleep = 4 then { t with sleep := 1, wakeAt := 0, asleepAt := 0, mem := [], poison := [] } else { t with sleep := 1, wakeAt := 0, asleepAt := 0 }))) ∧
  (cluster < 8 → s.pllOn cluster = true → s.clusterHolds cluster 1 63 = false →
    (∀ i, i < 64 → 2 ≤ (s.tile (64 * cluster + i)).sleep ∧ (s.tile (64 * cluster + i)).wakeAt = 0 ∧ s.nextAny (64 * cluster + i) = none) →
    exec (.pllStop cluster) s = .next (s.setPll cluster false))

/-- R72 to R79, R82, R83, R88, R90, R96, R195: preemption. A borrower with a radio launch near is asked to leave, its save begins at a preemption point, a
finished save keeps its live state, an unfinished one is given up before the radio launch; loan windows resize, slices end, and a BE request that has
waited too long is removed. -/
def Obligations.Preemption : Prop := ∀ (s : State) (n : Nat),
  let t := s.tile n
  let k := s.task (t.task - 1)
  (t.borrower ≠ 0 → t.task = t.borrower → t.switching = 0 → s.radioGap n (s.regN Reg.preemptLead + 1) = false →
    exec (.preemptionRequest n) s = .next (s.setTile n { t with preempt := true })) ∧
  (t.borrower ≠ 0 → t.task = t.borrower → t.switching = 2 → s.radioGap n (s.regN Reg.preemptLead + 1) = false →
    exec (.preemptionRequest n) s = .next ((s.setTile n t.freed).noteSuspended (t.task - 1))) ∧
  (t.preempt = true → t.task ≠ 0 → t.switching = 0 → (t.atPoint = true ∨ s.waitsRemote n = true) →
    exec (.preemptionPointTaken n) s = .next ((((s.forgetReads (t.task - 1) t.rank).noteRemote (t.task - 1)).setTile n
      { t.stopMove s.free with switching := 1, switchLeft := saveTenths k, preempt := false }).fresh)) ∧
  (t.switching = 2 → t.switchLeft = 0 → exec (.switchComplete n) s = .next
    (((s.setTask (t.task - 1) { k with saves := Table.erase k.saves t.rank }).setTile n { t with switching := 0 }).resumeRemote (t.task - 1) t.rank)) ∧
  (let kept := if t.borrower = t.task then s.fillSaveArea n k.stateBytes else s
   let u := (kept.tile n).freed
   t.task ≠ 0 → t.switching = 1 → t.switchLeft = 0 → t.next = 0 → exec (.switchComplete n) s = .next (((kept.setTask (t.task - 1)
    { k with saves := Table.insert k.saves t.rank (t.saveLive k.inv), preempts := k.preempts + 1 }).setTile n
      { u with streamB := u.streamB.filter (fun e => e.owner != k.inv), streamMv := u.streamMv.filter (fun e => e.owner != k.inv) }).noteSuspended
        (t.task - 1))) ∧
  (∀ x, t.borrower ≠ 0 → t.task = t.borrower → (t.preempt = true ∨ t.switching = 1) → s.nextRadio n = some x → x ≤ s.lnc + 1 → k.inv = 0 →
    exec (.borrowerSaveOverrun n) s = .next (((s.setTask (t.task - 1)
      { k with saves := [], started := [], halted := [], replies := [], again := [], status := .suspended, preempts := k.preempts + 1 }).setTile n t.freed).dropRuns
        (t.task - 1))) ∧
  (∀ r, let b := t.borrower - 1
    t.borrower ≠ 0 → t.task = 0 → s.hasTask b = true → s.startable (s.task b) = true → (s.openRanks b (s.task b)).find? (fun r => r.2 == n) = some r →
    exec (.borrowerRestore n) s = .next (s.tryRank b r.1 n)) ∧
  (∀ b, let q := s.task b
    s.hasTask b = true → s.isRadio n = true → q.klass = 1 → q.status = .registered → q.vcount = 1 → q.target ≤ s.lnc → q.readyAt ≤ s.lnc →
    (Table.get {} s.kernels q.kernel).borrowable = true → t.borrower = 0 → t.loan ≠ 0 → s.sramNeed q ≤ 65536 * t.loan → t.task = 0 → t.switching = 0 →
    s.lowest = false → s.radioGap n (s.regN Reg.preemptLead + s.regN Reg.minBorrowGap) = true →
    exec (.borrowerPlace b n) s = .next (((s.setTile n { t.lend q.ctx with borrower := b + 1 }).setTask b { q with tiles := [n] }).tryRank b 0 n)) ∧
  (∀ p, s.partOf n = some p → s.isRadio n = true → t.borrower = 0 →
    exec (.loanWindowResize n) s = .next (s.setTile n { t with loan := s.regN (Reg.partLoanPages p) })) ∧
  (let m := s.markBoosts
   (m.tile n).task ≠ 0 → (m.tile n).switching = 0 → (m.task ((m.tile n).task - 1)).klass = 1 → m.partOf n = some 0 →
    m.passed (m.tile n).sliceStart (m.regN Reg.beSlice) = true → m.wanting n = [] →
    exec (.beSliceEnd n) s = .next (m.setTile n { m.tile n with sliceStart := m.time.ticks })) ∧
  (∀ b, let q := s.task b
    let gone := (s.setTask b { q with status := .ended }).returnUnits b
    s.hasTask b = true → q.klass = 1 → q.rerunDue = false → (q.status = .waiting ∨ q.status = .registered) → q.begun = false →
    s.regN (Reg.beMaxWait q.func) ≠ 0 → 50 * q.fetched + 1000 * s.regN (Reg.beMaxWait q.func) ≤ s.nowNs →
    exec (.beRequestExpired b) s = .next
      (((gone.writeRecord q.func (gone.recordRing q.func q.ring) { gone.taskRecord q with outcome := 5 } q.urgent).dropTask b).dropInvocation q.inv))

/-- R134, R139, R144, R158, R205, R207, R217: a matrix node of an invocation that runs, on a virtual tile where it has not run, with a descriptor that is
valid, of its family's shape, within the invocation's pages, its stream bytes there and its operands sound, leaves the results of its pass on that tile; its
flags join the invocation's. The descriptor and the split count are the node's own. -/
def Obligations.MatrixNodes : Prop := ∀ (s : State) (inv node vt p b : Nat), s.areaAt inv vt = some (p, b) → (s.inv inv).ran.contains (node, vt) = false →
  let r := s.node_ inv node
  let sound := fun (family : Nat) (d : PassDesc) (t : Tile) => d.invalid (if d.mv then t.live.mvAcc else t.live.acc) = false ∧ familyShape family d = true ∧
    d.owned t t.ctx = true ∧ d.streamed t = true ∧ d.poisoned t = false
  let leaves := fun (cube : Bool) (x : Tile × Bool × Bool) => (((s.begin_ inv node).setTile p (if cube then { x.1 with lastActive := s.time.ticks + 1 } else x.1)).nodeFlags
    inv x.2.1 x.2.2).ranOn inv node vt
  (∀ bs, passOn r vt = some bs →
    let d := (passDesc false bs).shifted b
    let m := (passDesc true bs).shifted b
    let t := d.feed (s.tile p) (s.nodeWaves inv node)
    let u := m.feed (s.tile p) (s.nodeWaves inv node)
    (s.nodeReady inv node 0x01 = true → sound 0x01 d t → exec (.matmul inv node vt) s = .next (leaves true (d.nodeRun t r.split))) ∧
    (s.nodeReady inv node 0x02 = true → sound 0x02 m u → exec (.matvec inv node vt) s = .next (leaves false (m.nodeRun u 1))) ∧
    (s.nodeReady inv node 0x03 = true → sound 0x03 d t → exec (.conv inv node vt) s = .next (leaves true (d.nodeRun t r.split))) ∧
    (s.nodeReady inv node 0x04 = true → sound 0x04 d t → exec (.cmatmul inv node vt) s = .next (leaves true (d.complexRun t))) ∧
    (s.nodeReady inv node 0x06 = true → sound 0x06 d t → exec (.interp inv node vt) s = .next (leaves true (d.complexRun t)))) ∧
  (∀ stages, r.op = .dft vt stages →
    let ds := stages.map (fun e => ((passDesc false e.1).shifted b, e.2))
    let t := ds.foldl (fun t e => e.1.feed t (s.nodeWaves inv node)) (s.tile p)
    s.nodeReady inv node 0x05 = true → dftShape ds = true →
    (∀ e ∈ ds, e.1.invalid t.live.acc = false ∧ e.1.owned t t.ctx = true ∧ e.1.streamed t = true ∧ e.1.poisoned t = false) →
    exec (.dft inv node) s = .next (leaves true (runStages ds t)))

/-- R205, R210 to R212: an elementwise function of FP32 codes, row by row: each result code is written at its place in the output, and the
flags of the results join the invocation's. The function of a node is the one its ATTR names. -/
def Obligations.RowNodes : Prop := ∀ (s : State) (inv node : Nat) (x y gain beta : Tensor) (row : Nat) (eps : Word32) (px bx py by' : Nat),
  let r := s.node_ inv node
  r.op = .rows x y gain beta row eps → s.areaAt inv x.tile = some (px, bx) → s.areaAt inv y.tile = some (py, by') → inSram (x.addr + bx) (4 * x.count) = true →
  inSram (y.addr + by') (4 * x.count) = true → (s.tile px).poisoned (x.addr + bx) (4 * x.count) = false →
  let results := fun (row : Nat) (f : List Nat → List Res) => (List.range (x.count / row)).flatMap (fun r => f ((s.tile px).codes (x.addr + bx + 4 * r * row) row))
  let leaves := fun (row : Nat) (f : List Nat → List Res) =>
    ((s.begin_ inv node).updTile py (fun t => t.putCodes (y.addr + by') ((results row f).map (fun r => r.code)))).nodeFlags inv
      (anyInvalid (results row f)) (anySaturated (results row f))
  (s.nodeFresh inv node 0x08 = true →
    (r.function = 0 → exec (.exp2 inv node) s = .next (leaves 1 (List.map fnExp2))) ∧ (r.function = 1 → exec (.recip inv node) s = .next (leaves 1 (List.map fnRecip))) ∧
    (r.function = 2 → exec (.rsqrt inv node) s = .next (leaves 1 (List.map fnRsqrt))) ∧ (r.function = 3 → exec (.exp inv node) s = .next (leaves 1 (List.map fnExp))) ∧
    (r.function = 4 → exec (.sigmoid inv node) s = .next (leaves 1 (List.map fnSigmoid))) ∧ (r.function = 5 → exec (.silu inv node) s = .next (leaves 1 (List.map fnSilu))) ∧
    (r.function = 6 → exec (.gelu inv node) s = .next (leaves 1 (List.map fnGelu))) ∧ (r.function = 7 → exec (.tanh inv node) s = .next (leaves 1 (List.map fnTanh)))) ∧
  (s.nodeFresh inv node 0x09 = true → row ≠ 0 →
    (r.function = 0 → exec (.softmax inv node) s = .next (leaves row softmaxRow)) ∧
    (r.function = 1 → exec (.rmsnorm inv node) s = .next (leaves row (fun l => rmsRow l (s.constRow inv gain row) eps.toNat))) ∧
    (r.function = 2 → exec (.layernorm inv node) s = .next (leaves row (fun l => layerRow l (s.constRow inv gain row) (s.constRow inv beta row) eps.toNat))))

/-- R113 to R116, R205, R213: ELEMENTWISE widens both operands, computes in FP32 and narrows into the output format; QUANT leaves one scale byte a
block of 32 of each row, and the codes under it. -/
def Obligations.FormatNodes : Prop := ∀ (s : State) (inv node : Nat),
  let r := s.node_ inv node
  (∀ (count : Nat) (a b out : ETensor) (pa ba pb bb po bo : Nat),
    let rs := (List.range count).map (fun i =>
      let x := elementOp r.function ((s.tile pa).widened a.fmt (a.addr + ba) i) ((s.tile pb).widened b.fmt (b.addr + bb) i)
      x.after (narrowValue out.fmt ((s.tile po).groupExp (out.addr + bo)) x.code))
    let bytes := packValues out.fmt (rs.map (fun r => r.code))
    r.op = .element count a b out → s.areaAt inv a.tile = some (pa, ba) → s.areaAt inv b.tile = some (pb, bb) → s.areaAt inv out.tile = some (po, bo) →
    s.nodeFresh inv node 0x07 = true → inSram (out.addr + bo) bytes.length = true → a.fmt ≤ 8 → b.fmt ≤ 8 → out.fmt ≤ 8 →
    (s.tile pa).poisoned (a.addr + ba) (valueBytes a.fmt count) = false → (s.tile pb).poisoned (b.addr + bb) (valueBytes b.fmt count) = false →
    exec (.elementwise inv node) s = .next
      (((s.begin_ inv node).updTile po (fun t => t.write (out.addr + bo) bytes)).nodeFlags inv (anyInvalid rs) (anySaturated rs))) ∧
  (∀ (x : Tensor) (row fmt outAddr scaleAddr pitch p b : Nat),
    let n := x.count / row
    let rows := (List.range n).map (fun r => blocks row ((s.tile p).codes (x.addr + b + 4 * r * row) row))
    let rs := rows.flatMap (fun l => l.flatMap (fun c => c.map (quantElem fmt (scaleByte fmt c))))
    let bytes := packRow fmt (rs.map (fun r => r.code))
    let scales := fun (t : Tile) (e : Nat × List (List Nat)) => t.write (scaleAddr + b + e.1 * pitch) (e.2.map (fun c => BitVec.ofNat 8 (scaleByte fmt c)))
    r.op = .quant x row fmt outAddr scaleAddr pitch → s.areaAt inv x.tile = some (p, b) → s.nodeFresh inv node 0x0A = true → row ≠ 0 → mxFormat fmt = true →
    inSram (outAddr + b) bytes.length = true → inSram (scaleAddr + b) (n * pitch + ceilDiv row 32) = true → (s.tile p).poisoned (x.addr + b) (4 * x.count) = false →
    exec (.quant inv node) s = .next (((s.begin_ inv node).updTile p (fun t => ((List.range n).zip rows).foldl scales (t.write (outAddr + b) bytes))).nodeFlags inv
      (anyInvalid rs) (anySaturated rs)))

/-- R208, R253 to R255: a reduction of either order starts with zeros, takes the partials of this chip's ranks and then each other rank's partial once; a GATE
node of any policy fills the experts, counts what it drops and reroutes and gives the experts their rows, and sums the tokens' outputs once the experts
have run. -/
def Obligations.ReduceAndGate : Prop := ∀ (s : State) (inv node : Nat),
  let v := s.inv inv
  let r := s.node_ inv node
  (∀ (out : Tensor) (int : Bool) (ranks : Nat) (sources : List (Nat × Nat × Nat)) (p b : Nat), r.op = .reduce out int ranks sources → s.nodeFresh inv node 0x0B = true →
    s.areaAt inv out.tile = some (p, b) → inSram (out.addr + b) (4 * out.count) = true →
    let l := s.localPartials inv out.count sources
    (∀ e ∈ l, (s.tile e.2.1).poisoned e.2.2.1 (4 * out.count) = false) →
    let start := fun (ordered : Bool) =>
      let x := (l.filter (fun e => decide (e.1 < ranks))).foldl (fun (a : Reduction × Bool × Bool) e =>
        ((a.1.arrive e.1 e.2.2.2).1, a.2.1 || (a.1.arrive e.1 e.2.2.2).2.1, a.2.2 || (a.1.arrive e.1 e.2.2.2).2.2))
          ({ ordered := ordered, int := int, ranks := ranks, out := out, acc := List.replicate out.count 0 }, false, false)
      ((s.begin_ inv node).keepReduction inv node x.1).nodeFlags inv x.2.1 x.2.2
    (r.arrival = false → exec (.reduceOrdered inv node) s = .next (start true)) ∧ (r.arrival = true → exec (.reduceArrival inv node) s = .next (start false))) ∧
  (∀ rank data x, Table.find? s.models.reductions (reduceKey inv node) = some x → s.nodeReady inv node 0x0B = true → rank < x.ranks → data.length = x.out.count →
    x.arrived.contains rank = false →
    exec (.reducePartialArrival inv node rank data) s = .next ((s.keepReduction inv node (x.arrive rank data).1).nodeFlags inv (x.arrive rank data).2.1 (x.arrive rank data).2.2)) ∧
  (∀ (g : GateNode) (p b q c : Nat), r.op = .gate g → s.nodeReady inv node 0x0C = true → v.hasBegun node = false → s.areaAt inv g.tile = some (p, b) →
    s.areaAt inv g.rowTile = some (q, c) → gateOk g = true → (s.tile p).poisoned (g.scoreAddr + b) (4 * g.experts * g.tokens) = false →
    (s.tile q).poisoned (g.rowAddr + c) (g.rowBytes * g.tokens) = false →
    let scores := (List.range g.tokens).map (fun n => ((s.tile p).codes (g.scoreAddr + b + 4 * g.experts * n) g.experts).map (BitVec.ofNat 32))
    let routed := fun (arrivals : List (Nat × Nat)) =>
      let f := gateFill g scores arrivals s.free
      let x := gateResult g scores s.free f
      let s1 := ((({ s with free := s.free + g.tokens }).begin_ inv node).updTile p (fun t => t.write (g.outAddr + b) x.1)).nodeFlags inv x.2.2.1 x.2.2.2
      let s2 := (s1.bump (Reg.slotGateDropped v.serving) f.dropped).bump (Reg.slotGateRerouted v.serving) f.rerouted
      let s3 := s2.setInv inv { s2.inv inv with gates := Table.insert (s2.inv inv).gates node x.2.1 }
      ((List.range g.inputs.length).zip g.inputs).foldl (fun (u : State) (e : Nat × GateInput) =>
        u.giveRows inv (s.task v.task) e.2 ((tokensOf x.2.1 g.tokens e.1).flatMap (fun n => (s.tile q).read (g.rowAddr + c + n * g.rowBytes) g.rowBytes))) s3
    let fits := fun (arrivals : List (Nat × Nat)) => inSram (g.outAddr + b) (gateResult g scores s.free (gateFill g scores arrivals s.free)).1.length = true
    (g.policy = 0 → fits [] → exec (.gateDrop inv node) s = .next (routed [])) ∧ (g.policy = 1 → fits [] → exec (.gateReroute inv node) s = .next (routed [])) ∧
    (∀ arrivals, g.policy = 2 → fits arrivals → exec (.gateArrival inv node arrivals) s = .next (routed arrivals))) ∧
  (∀ (g : GateNode) (arrivals : List (Nat × Nat)), r.op = .gate g → s.nodeReady inv node 0x0C = true → v.hasBegun node = true → v.summed.contains node = false →
    g.sumCount ≠ 0 → (∀ n ∈ g.sumAfter, v.done.contains n = true ∨ v.skipped.contains n = true) →
    (g.policy = 0 → exec (.gateDrop inv node) s = .next (s.gateSum inv node g)) ∧ (g.policy = 1 → exec (.gateReroute inv node) s = .next (s.gateSum inv node g)) ∧
    (g.policy = 2 → exec (.gateArrival inv node arrivals) s = .next (s.gateSum inv node g)))

/-- R168, R205, R224, R226, R257, R259, R386: a MOVE node hands its commands to the move unit of each of its tiles, a BRANCH decides its subgraph, an EXIT
ends the graph with a nonzero predicate, an ATOMIC issues its entries, and a node whose work is done is measured and completed. -/
def Obligations.GraphNodes : Prop := ∀ (s : State) (inv node : Nat),
  let v := s.inv inv
  let r := s.node_ inv node
  (∀ vt l cmds p b u, r.op = .moves l → assoc l vt = some cmds → s.areaAt inv vt = some (p, b) → s.nodeReady inv node 0x0D = true → v.ran.contains (node, vt) = false →
    (s.tile p).live.moves.length + cmds.length ≤ 8 → (s.tile p).takeMoves (cmds.map (shiftedMove b)) (s.moveOverlaps p (s.tile p).ctx) = .ok u →
    exec (.moveNode inv node vt) s = .next (((s.begin_ inv node).setTile p u).ranOn inv node vt)) ∧
  (s.nodeFresh inv node 0x0E = true → s.predicatePoisoned inv r = false →
    let next := if s.predicate inv r = 0 then r.falseNext else r.trueNext
    let nodes := (s.slot v.serving).nodes
    let first := (List.range nodes.length).filter (fun i => match nodes[i]? with | some x => x.under == node + 1 && x.entry != next | none => false)
    let skip := skippedBy nodes.length nodes first
    let w := (s.begin_ inv node).inv inv
    exec (.branch inv node) s = .next (((s.begin_ inv node).setInv inv { w with skipped := (w.skipped ++ skip).eraseDups }).discardWaves inv skip)) ∧
  (s.nodeFresh inv node 0x0F = true → s.predicatePoisoned inv r = false →
    let w := (s.begin_ inv node).inv inv
    exec (.exit inv node) s = .next (if s.predicate inv r = 0 then s.begin_ inv node else (s.begin_ inv node).setInv inv { w with exit := node + 1 })) ∧
  (∀ vt addr count p b, r.op = .atomic vt addr count → s.areaAt inv vt = some (p, b) → s.nodeFresh inv node 0x10 = true →
    Table.has s.fabric.atomics (runKey v.task vt) = false → inSram (addr + b) (32 * count) = true →
    let run : AtomicRun := { addr := addr + b, count := count, ctx := (s.task v.task).ctx, task := v.task + 1, node := node }
    let s1 := s.begin_ inv node
    exec (.atomic inv node) s = .next
      ((issueEntries 64 { s1 with fabric := { s1.fabric with atomics := Table.insert s1.fabric.atomics (runKey v.task vt) run } } (runKey v.task vt)).noteRemote v.task)) ∧
  (∀ at0, let s0 : State := match r.op with | .atomic vt _ _ => { s with fabric := { s.fabric with atomics := Table.erase s.fabric.atomics (runKey v.task vt) } } | _ => s
    s.hasInv inv = true → s.invPlaced inv = true → v.hasBegun node = true → v.done.contains node = false → s.nodeBusy inv node = false →
    r.checkpoint = 0 → v.begun.find? (fun e => e.1 == node) = some (node, at0) →
    exec (.nodeComplete inv node) s = .next (((s0.measureNode v.serving node (nsOfTicks (s.time.ticks - at0))).setInv inv
      { v with done := node :: v.done, stateWritten := v.stateWritten || r.writesState }).fallBack inv))

/-- R219, R222, R234 to R239, R243, R358: loading, unloading and invoking a model slot. A container that can be read and that no reason refuses occupies the
slot, and its weights stand in GDDR7 when it completes, READY, or STALE where the partition has another size; an unload empties it; an accepted INVOKE
becomes an invocation. -/
def Obligations.ModelSlots : Prop :=
  (∀ (s : State) (f r : Nat) (d : Desc) (x : Slot64), s.admits f r d x [1, 2] →
    let u := s.takeDesc f r
    (∀ container bs, let slot := mapBits x 511 504
      let part := mapBits x 503 496
      isOp 0x03 x = true → u.vaRead d.context (mapBits x 447 384) (mapBits x 479 448) container = .ok (bs, false) → u.loadReason d slot part bs.length bs = none →
      exec (.modelLoad f r container) s = .next (u.loadSlot d slot part bs)) ∧
    (let slot := mapBits x 511 504
     isOp 0x04 x = true → slot < 256 → u.regN (Reg.slotOwner slot) = d.func → (u.reg (Reg.slotState slot) = 2 ∨ u.reg (Reg.slotState slot) = 3) → u.slotUsed slot = false →
      exec (.modelUnload f r) s = .next (u.unloadSlot slot (some d))) ∧
    (∀ io bs, isOp 0x02 x = true → u.vaRead d.context (mapBits x 447 384) 1 [] = .ok (bs, false) → u.invokeReason d (invokeBodyOf x io) = none →
      exec (.invoke f r io) s = .next (u.admitInv d (invokeBodyOf x io))) ∧
    (let part := mapBits x 511 504
     let handle := mapBits x 503 488
     isOp 0x05 x = true → u.usesPart d part = true → handle ≠ 0 → handle ≤ 1024 →
      ((u.stateHandle part handle).slot = 0 ∨ u.regN (Reg.slotOwner ((u.stateHandle part handle).slot - 1)) = d.func) →
      exec (.stateFree f r) s = .next (((u.freePages (u.stateHandle part handle).pages).setStateHandle part handle {}).served d))) ∧
  (∀ (s : State) (d : Desc) (slot : Nat), (s.slot slot).desc = some d →
    (s.reg (Reg.slotState slot) = 1 →
      let x := s.slot slot
      let s1 := ((s.loadKernels slot d.func x.packages).runWrite (x.pages.length + 1) x.pages 0 x.weights).chargeBytes d.func 6 x.weights.length
      let p := s.regN (Reg.slotPartition slot)
      exec (.modelLoadComplete slot) s = .next ((((s1.setSlot slot { s1.slot slot with desc := none, packages := [], weights := [] }).setReg (Reg.slotState slot)
        (if p = 0 ∨ s.regN (Reg.slotTiles slot) = (s.part p).tiles.length then 2 else 3)).bindFallbacks).served d)) ∧
    (s.reg (Reg.slotState slot) = 4 → exec (.modelUnloadComplete slot) s = .next (((s.clearSlot slot).bindFallbacks).served d)))

/-- R88, R100, R240, R246 to R250, R260: an invocation whose turn has come and whose tiles are awake starts with its inputs read, TEMPO on its partition and BE
where it is placed; its waves are issued in order; when every node is done and its outputs are written it ends, and a faulted one ends. -/
def Obligations.Invocations : Prop := ∀ (s : State) (inv : Nat) (arrived : List (List Byte)),
  let v := s.inv inv
  let k := s.task v.task
  (s.hasInv inv = true → v.running = false → k.klass = 0 → k.status = .waiting → k.rerunDue = false → k.target ≤ s.lnc →
    List.any s.models.invs (fun e => e.2.part == v.part && decide (e.1 < inv)) = false → s.lowest = false → (s.taskTiles k).all (fun p => (s.tile p).idle) = true →
    (s.taskTiles k).all s.awake = true → exec (.invocationStart inv arrived) s = .next (s.startInv inv ((s.taskTiles k).map (fun p => (p, 0))) arrived)) ∧
  (s.hasInv inv = true → v.running = false → k.klass = 1 → k.status = .waiting → k.rerunDue = false → k.target ≤ s.lnc → s.lowest = false →
    List.any s.models.invs (fun e => e.1 != inv && e.2.part == 0 && !e.2.running && s.beBefore (e.2.task, s.task e.2.task) (v.task, k)
      && decide ((s.task e.2.task).target ≤ s.lnc) && (s.task e.2.task).status == .waiting) = false →
    (s.placement inv).length = k.vcount → ((s.placement inv).map (fun e => e.1)).all s.awake = true →
    exec (.beInvocationPlace inv arrived) s = .next (s.startInv inv (s.placement inv) arrived)) ∧
  (∀ index node w, let x := s.slot v.serving
    x.nextWave v = some (index, node, w) → s.hasInv inv = true → v.running = true → s.invPlaced inv = true → v.abandoned = false → k.tiles ≠ [] →
    s.wavesAhead inv x < 2 → s.waveRoom inv x w = true → s.runPoisoned x.pages w.offset w.length = false →
    exec (.waveIssue inv) s = .next ((((s.deliverWave inv index w (s.runRead x.pages w.offset w.length)).setTask v.task k).setInv inv
      { v with waves := v.waves ++ [index] }).chargeBytes k.func 6 w.length)) ∧
  (∀ u, s.hasInv inv = true → s.hasTask v.task = true → k.status = .running → v.running = true → s.invPlaced inv = true → s.invDone v = true →
    s.writeOutputs inv = .done u → exec (.invocationComplete inv) s = .next (u.endInv inv true)) ∧
  (s.hasInv inv = true → s.hasTask v.task = true → k.status = .ended → k.fault ≠ 0 → exec (.invocationComplete inv) s = .next (s.endInv inv false))

/-- R14, R68 to R70, R102, R103, R236: a resize asks the work on the tiles that leave the pool to go; a growth takes its tiles from the pool 2,400 quanta ahead,
zeroised, and they join at the resize LNC, when RESIZE_STATUS reads DONE; a due snapshot is captured into a record, its request goes and SNAP_SEQ
advances. -/
def Obligations.ResizeAndSnapshots : Prop := ∀ (s : State) (p f : Nat),
  (∀ r, (s.part p).resize = some r → r.lnc ≤ s.lnc + 2400 + 20000 * ceilDiv (s.moving p r).length 64 → s.shrinkStop p r = none →
    let pool := (s.part 0).tiles
    let asked := if r.grow then s.moving p r ++ pool.drop (pool.length - (s.moving p r).length) else []
    let u := asked.foldl (fun s t => (s.updTile t (fun u => { u with next := 0 })).askOff t) s
    exec (.resizeEviction p) s = .next (u.setPart p { u.part p with resize := some { r with evicted := true } })) ∧
  (∀ r, (s.part p).resize = some r → r.lnc ≤ s.lnc + 2400 → r.left = false → s.shrinkStop p r = none → r.grow = true →
    let u := (s.moving p r).foldl (fun s t => s.updTile t Tile.zeroised) ((s.moving p r).foldl (fun s t => s.removeTile 0 t) s)
    exec (.resizeTilesLeave p) s = .next (u.setPart p { u.part p with resize := some { r with left := true, evicted := true, chosen := s.moving p r } })) ∧
  (∀ r, (s.part p).resize = some r → r.left = true → r.lnc ≤ s.lnc → r.grow = true →
    let u := s.setPart p { s.part p with tiles := (s.part p).tiles ++ r.chosen }
    exec (.resizeApply p) s = .next ((u.endResize p 2).slotsResized p (u.part p).tiles.length)) ∧
  (∀ l, let g := s.func f
    g.snaps = [l] → l ≤ s.lnc → g.snapQueue.length < 64 → exec (.snapshotCapture f) s = .next (s.setFunc f { g with
      snaps := [], snapSeq := (g.snapSeq + 1) % 2 ^ 32, snapQueue := g.snapQueue ++ [s.snapRecord f l] }))


/-- R274, R297, R301, R302, R303, R309, R311, R312: the life of a radio cell, step by step: the start of a cell, its boundaries, and the switch of its hold
source. A source that is not encoded, or not valid, ends the start. -/
def Obligations.CellLife : Prop := ∀ (s : State) (c : Nat),
  let x := s.cell c
  (s.cellSt c = 1 → x.resized = false → x.startAt ≤ s.nowNs + 25000001 →
    exec (.startResize c) s = .next ((s.radioGrow (s.regN (Reg.cellCluster c))).updCell c (fun x => { x with
      resized := true, soft := [], softOrder := [], spilled := [], kept := [], estimates := [] }))) ∧
  (∀ encoded, s.cellSt c = 1 → x.resized = true → x.encoded = false → x.startAt ≤ s.nowNs + 20000001 →
    let bs := s.blob (Reg.cellHoldSource c)
    exec (.holdSourceCheck c encoded) s = .next (if encoded = true ∧ s.holdValid c bs = true then s.updCell c (fun x => { x with encoded := true, holdSource := bs, holdNext := none })
      else (((s.cellEventNow c 14 1).shrinkAfter c s.nowNs).stopCell c).updCell c (fun x => { x with slots := [] }))) ∧
  (s.cellSt c = 1 → x.encoded = true → x.firstEnd = 0 → x.startAt ≤ s.nowNs + 1 →
    exec (.startFrameReached c) s = .next (((s.updCell c (fun x => { x with firstEnd := x.startAt + 10000000 })).startNormalise c (x.startAt - 1)).cellEvent c 1 (s.slotAt c (x.startAt - 1)) 0)) ∧
  (s.cellSt c = 1 → x.firstEnd ≠ 0 → x.firstEnd ≤ s.nowNs + 1 →
    exec (.firstFrameEnd c) s = .next ((((s.updCell c (fun x => { x with startAt := 0, firstEnd := 0, missed := 0 })).setCellSt c 2).cmdDone c 1).cellEventNow c 2 0)) ∧
  (∀ t, t ≤ s.nowNs →
    (Table.find? x.waiting 2 = some t → 1 ≤ s.cellSt c → s.cellSt c ≤ 3 →
      exec (.stopFrameReached c) s = .next ((((s.cmdDone c 2).cellEvent c 3 (s.slotAt c t) 0).shrinkAfter c t).stopCell c)) ∧
    (Table.find? x.waiting 3 = some t → (s.cellSt c = 2 ∨ s.cellSt c = 3) →
      exec (.holdFrameReached c) s = .next (((s.updCell c (fun x => { x with
        heldBy := 1, missed := 0, waiting := Table.erase (Table.erase x.waiting 3) 4 })).setCellSt c 3).cmdDone c 3)) ∧
    (Table.find? x.waiting 4 = some t → s.cellSt c = 3 →
      exec (.resumeFrameReached c) s = .next ((((s.updCell c (fun x => { x with
        waiting := Table.erase x.waiting 4, heldBy := 0, missed := 0 })).setCellSt c 2).startNormalise c t).cmdDone c 4)) ∧
    (Table.find? x.waiting 5 = some t →
      let u := s.updCell c (fun x => { x with waiting := Table.erase x.waiting 5, missed := 0, soft := [], softOrder := [], spilled := [], kept := []
                                              estimates := [], heldBy := if x.heldBy = 3 then 0 else x.heldBy })
      exec (.resetFrameReached c) s = .next ((((if x.heldBy = 3 ∧ s.cellSt c = 3 then u.setCellSt c 2 else u).startNormalise c t).cmdDone c 5).cellEventNow c 9 0)) ∧
    (∀ b, x.holdNext = some (b, t) → exec (.holdSourceSwitch c) s = .next (s.updCell c (fun x => { x with holdSource := b, holdNext := none }))))

/-- R301, R313, R321, R323, R324: the steps of a cell's move to another chip, each from its time on: preparation, copy, commit point, the double
reception, handover, final copy, acknowledgement and the end of the window. -/
def Obligations.CellMoves : Prop := ∀ (s : State) (c : Nat) (m : MoveRun), (s.cell c).move = some m → s.cellSt c = 4 →
  (m.source = false → m.prepared = false → m.h ≤ s.nowNs + 1000000000 →
    exec (.moveTargetPrepare c) s = .next (((s.radioGrow (s.regN (Reg.cellCluster c))).updCell c (fun x => { x with
      encoded := true, resized := true, soft := [], softOrder := [], spilled := [], kept := [], estimates := [] })).updMove c (fun m => { m with prepared := true }))) ∧
  (∀ bufs ests, m.h ≤ s.nowNs + 1000000000 → s.nowNs < m.h →
    (m.source = true → m.copied = false → s.nowNs + 60000000 ≤ m.h →
      exec (.moveBulkCopy c bufs ests) s = .next (((s.sendConfig c m).sendContext c m ((s.cell c).soft.map (fun e => e.1))).updMove c (fun m => { m with copied := true }))) ∧
    (m.source = false → m.prepared = true →
      exec (.moveBulkCopy c bufs ests) s = .next (((s.takeContext c bufs ests).emit (.message m.peer 22 [m.peerCell])).updMove c (fun m => { m with copied := true })))) ∧
  (∀ peerReady peerLocked, m.committed = false → m.h ≤ s.nowNs + 50000000 →
    exec (.moveCommitPoint c peerReady peerLocked) s = .next (
      if s.fabric.dead.contains m.peer = true then s.abortMove c 3
      else if s.reg Reg.timeState ≠ 2 ∨ peerLocked = false then s.abortMove c 4
      else if m.copied = false ∨ peerReady = false then s.abortMove c 2
      else (s.updMove c (fun m => { m with committed := true })).cellEventNow c 10 m.peer)) ∧
  (m.committed = true → m.dualRx = false → m.h ≤ s.nowNs + 10000000 → s.nowNs < m.h + 10000000 →
    exec (.dualRxOpen c) s = .next (s.updMove c (fun m => { m with dualRx := true }))) ∧
  (m.committed = true → m.handed = false → m.h ≤ s.nowNs →
    let u := s.updMove c (fun m => { m with handed := true })
    exec (.moveHandover c) s = .next (if m.source = true then u.shrinkAfter c m.h else u.startNormalise c m.h)) ∧
  (∀ bufs ests, m.handed = true → (m.finalSent = false ∨ m.late ≠ []) →
    exec (.moveFinalCopy c bufs ests) s = .next ((if m.source = true then s.sendContext c m m.late
      else (s.takeContext c bufs ests).emit (.message m.peer 23 [m.peerCell])).updMove c (fun m => { m with finalSent := true, late := [] }))) ∧
  (m.finalSent = true → m.late = [] → m.done = false → m.h ≤ s.nowNs →
    let u := s.cellEventNow c 11 m.peer
    exec (.moveFinalAck c) s = .next (if m.source = true then ((u.cmdDone c 6).stopCell c).updCell c (fun x => { x with quietUntil := m.h + 10000001 }) else u.updMove c (fun m => { m with done := true }))) ∧
  (m.committed = true → m.h + 10000000 ≤ s.nowNs →
    exec (.dualRxClose c) s = .next (if m.source = true then s.updMove c (fun m => { m with dualRx := false })
      else (((s.updCell c (fun x => { x with move := none, startAt := 0 })).setCellSt c 2).cmdDone c 6)))

/-- R266 to R272, R289 to R294: the coding of an order's PDUs and its results. A code block of a PDU that is served is encoded or decoded once; decoding
combines with the process's soft buffer and writes it back; a batch is written once. -/
def Obligations.CodingAndResults : Prop := ∀ (s : State) (c slot : Nat),
  let w := s.slotWork c slot
  let coded := fun (pdu index : Nat) (bs : List Bool) => s.setSlotWork c slot { w with coded := w.coded ++ [(pdu, index, bs)] }
  (∀ (o : OrderIn) (p : Pdu) (index graph zc h : Nat), w.dl = some o → ∀ pdu, o.pdu 1 pdu = some p → p.coding[index]? = some (graph, zc, h) →
    w.cut = true → w.held = 0 → (∀ e ∈ w.coded, ¬ (e.1 = pdu ∧ e.2.1 = index)) →
    let blocks := (w.staged.filter (fun e => e.1 == pdu)).map (fun e => e.2.2)
    exec (.ldpcEncode c slot pdu index) s = .next (coded pdu index (Config.ldpcEncode graph zc (Config.codeBlock p.coding blocks index)))) ∧
  (∀ (o : OrderIn) (p : Pdu) (bits : List Bool) (pdu index : Nat), w.cut = true → w.held = 0 → (∀ e ∈ w.coded, ¬ (e.1 = pdu ∧ e.2.1 = index)) →
    ((pdu < 1024 ∧ w.dl = some o ∧ o.pdu 0 pdu = some p) ∨ (1024 ≤ pdu ∧ w.dci = some o ∧ o.pdu 0 (pdu - 1024) = some p)) →
    p.dcis[index]? = some bits → exec (.polarEncode c slot pdu index) s = .next (coded pdu index (Config.polarEncode bits.length bits))) ∧
  (∀ (o : OrderIn) (p : Pdu) (pdu info : Nat) (llrs : List Int), w.ul = some o → (w.ulPdu o 1 pdu = some p ∨ w.ulPdu o 3 pdu = some p) → w.uplinkDone = true →
    (∀ e ∈ w.decoded, ¬ (e.1 = pdu ∧ e.2.1 = 4096)) →
    let r := Config.polarDecode info (llrs.map softClamp)
    exec (.polarDecode c slot pdu info llrs) s = .next (s.setSlotWork c slot { w with decoded := w.decoded ++ [(pdu, 4096, 1, r.isSome, r.getD [])] })) ∧
  (∀ (o : OrderIn) (p : Pdu) (b : CodeBlock), b.slot = slot → w.ul = some o → w.ulPdu o 1 b.pdu = some p → w.uplinkDone = true → p.coding[b.index]? = some (b.graph, b.zc, b.h) →
    b.harq = p.harq → b.newData = p.newData → b.maxIter = p.maxIter → 1 ≤ b.maxIter → (∀ e ∈ w.decoded, ¬ (e.1 = b.pdu ∧ e.2.1 = b.index)) →
    let x0 := s.cell c
    let x1 : Cell := if b.newData = true ∧ (∀ e ∈ w.decoded, e.1 ≠ b.pdu) then x0.clearHarq b.harq else x0
    let k := softKey b.harq b.index
    let llrs := holdFillers b.fillers (combine (Table.get [] x1.soft k) b.llrs)
    let rows := Config.ldpcRows b.graph b.zc (codingRows (b.graph, b.zc, b.h))
    let r := decodeIter rows b.maxIter 0 [] (decodeStart (Config.ldpcPunctured b.graph b.zc) rows llrs)
    let bs := hardBits r.2
    let x2 := x1.writeSoft k llrs
    let y : Cell := { x2 with kept := x2.kept.filter (fun i => i != k) ++ (if p.spill = 2 then [k] else []) }
    let x3 : Cell := if p.spill = 1 then { y with spilled := k :: y.spilled } else spillTo y (65536 * s.regN (Reg.cellSoftbufPages c)) y.spillOrder
    exec (.ldpcDecode c b) s = .next (((s.setCell c x3).setSlotWork c slot { w with decoded := w.decoded ++ [(b.pdu, b.index, r.1, Config.cbCrcOk bs, bs)] }).softWritten c k)) ∧
  (∀ (o : OrderIn) (otype : Nat) (entries : List (Nat × Nat × List Byte)), w.order otype = some o →
    (1 ≤ otype → otype ≤ 4 → w.cut = true → o.errors ≠ [] → o.batches.contains 4 = false →
      exec (.resultBatchWrite c slot otype 4 entries) s = .next (s.writeBatch c slot otype 4 o (o.errors.map (errorBytes o)))) ∧
    (∀ btype, otype = 2 → 1 ≤ btype → btype ≤ 3 → w.uplinkDone = true → o.batches.contains btype = false →
      let good := entries.filter (fun e => batchTakes btype e.1 && !(o.errors.map (fun x => x.1)).contains e.2.1 && !w.failed.contains e.2.1)
      w.batchOk o good = true →
      let u := s.writeBatch c slot otype btype o (good.filterMap (s.entryBytes c w o))
      exec (.resultBatchWrite c slot otype btype entries) s = .next (if btype = 3 then u.retain c slot o good else u))) ∧
  (∀ handle t, Table.find? (s.cell c).estimates handle = some t → t ≤ s.nowNs →
    exec (.srsEstimateExpiry c handle) s = .next (s.updCell c (fun x => { x with estimates := Table.erase x.estimates handle })))

/-- R80, R303, R305, R315, R318, R319, R324: the conductors and the radio partition. A running core beats every 10 µs; one that has not for 50 µs is
hung and logged; with both hung chip control restarts the first; a contained error's task runs once more on its standby tile. -/
def Obligations.ConductorsAndParts : Prop := ∀ (s : State) (cluster core : Nat), cluster < 8 → core < 2 →
  let k := 2 * cluster + core
  let r := s.radio
  (r.hung.contains k = false → s.fwRestarting cluster core = false →
    (s.passed (Table.get 0 r.beats k) 10000 = true →
      exec (.conductorHeartbeat cluster core) s = .next { s with radio := { r with beats := Table.put 0 r.beats k s.time.ticks } }) ∧
    (s.passed (Table.get 0 r.beats k) 50000 = true → s.clusterCells cluster = [] →
      exec (.conductorHang cluster core) s = .next ({ s with radio := { r with hung := r.hung.filter (fun x => x != k) ++ [k], checks := Table.put 0 r.checks k 0 } }.logError
        { klass := 1, unit := 8, code := 7, cluster := cluster, detail := core }))) ∧
  (s.fwRestarting cluster core = false → r.hung.contains k = true → Table.has r.checks k = false →
    (r.hung.contains (2 * cluster + (1 - core)) = false ∨ Table.has r.checks (2 * cluster + (1 - core)) = true ∨ r.restarts.contains k = true) →
    s.clusterCells cluster ≠ [] →
    exec (.conductorSelfcheckPass cluster core) s = .next { s with radio := { r with
      checks := Table.put 0 r.checks k (s.lnc + 1), beats := Table.put 0 r.beats k s.time.ticks, restarts := r.restarts.filter (fun x => x != k) } }) ∧
  (∀ a b rest, r.hung.filter (fun x => x / 2 == cluster && !Table.has r.checks x) = a :: b :: rest → r.restarts.contains a = false →
    exec (.conductorRestartByControl cluster) s = .next { s with radio := { r with restarts := r.restarts ++ [a] } }) ∧
  (∀ c t, let back := s.backCore c
    let kc := 2 * s.regN (Reg.cellCluster c) + back
    s.cellSt c ≠ 0 → r.hung.contains kc = true → s.backAt c kc = some t → t ≤ s.nowNs → s.regN (Reg.cellConductor c) ≠ back →
    (∃ y ∈ s.clusterCells (s.regN (Reg.cellCluster c)), ∃ later, s.backAt y kc = some later ∧ s.nowNs < later) →
    exec (.handback c) s = .next ((s.setReg (Reg.cellConductor c) back).cellEventNow c 8 back)) ∧
  (∀ (n : Nat) (x : RadioWork), let q := s.task n
    q.radio = some x → s.hasTask n = true → q.rerunDue = true →
    let u := s.setTask n { q with status := .registered, rerunDue := false, tiles := [(s.part q.part).tiles.getD x.standby 0], radio := some { x with reruns := x.reruns + 1 } }
    exec (.radioRerun n) s = .next (((u.bump (Reg.cellReruns x.cell) 1).cellEvent x.cell 6 x.slot (q.vfirst * 65536 + x.standby)).launchRadio n)) ∧
  (∀ t, Table.get 0 r.shrinkAt cluster = t → t ≠ 0 → t - 1 ≤ s.nowNs → r.cells = [] →
    exec (.radioPartitionShrink cluster) s = .next ({ s with radio := { r with shrinkAt := Table.put 0 r.shrinkAt cluster 0 } }.radioShrink cluster))

/-- R384, R387, R389, R397, R398: a read of a bound context of an active job. LOAD and GET_S answer DATA with the bytes, poisoned ones with status 1,
READ a REPLY with the value; GET_S of a GDDR7 line makes a quad peer that asks a sharer. Without an active job the packet is counted in NO_JOB_DROPS. -/
def Obligations.ReadsAtHome : Prop := ∀ (s : State) (p : Packet) (row : Packet → Instr) (op : Nat),
  (row, op) ∈ [(Instr.load, 0x01), (Instr.read, 0x03), (Instr.getS, 0x28), (Instr.store, 0x02), (Instr.fetchAdd, 0x08), (Instr.swap, 0x09), (Instr.cas, 0x0A),
    (Instr.minS, 0x0B), (Instr.maxS, 0x0C), (Instr.minU, 0x0D), (Instr.maxU, 0x0E), (Instr.faddF32, 0x0F), (Instr.faddF64, 0x10), (Instr.syncSignal, 0x18),
    (Instr.syncWait, 0x19), (Instr.syncGrant, 0x1A), (Instr.syncAbandon, 0x1B)] →
  let q := { p with opcode := op }
  s.hears p = true →
  (s.homeOf p = none → exec (row p) s = .next (s.bump Reg.noJobDrops 1)) ∧
  (∀ j c bs, s.homeOf p = some (j, c) → c ≠ 0 →
    let u := s.chargeBytes (s.regN (Reg.jobOwner j)) 7 (packetBytes q)
    let status := fun (off n : Nat) => if u.localPoisoned (c - 1) off n then 1 else 0
    (op = 0x01 → u.readLocal (c - 1) p.offset (4 * (p.len + 1)) = some bs → exec (row p) s = .next (u.respond q 0x20 (status p.offset (4 * (p.len + 1))) 0 bs)) ∧
    (op = 0x03 → let n := if p.w64 = true then 8 else 4
      u.readLocal (c - 1) p.offset n = some bs → exec (row p) s = .next (u.respond q 0x22 (status p.offset n) (natOf bs) [])) ∧
    (op = 0x28 → let line := p.offset / 256 * 256
      let k := (c - 1) * 34359738368 + p.offset / 256
      u.readLocal (c - 1) line 256 = some bs → (∃ a, u.localPlace (c - 1) p.offset true false = .gddr a) → u.isQuadPeer p.src = true → (Table.get [] u.fabric.sharers k).contains p.src = false →
      let v := { u with fabric := { u.fabric with sharers := Table.put [] u.fabric.sharers k (Table.get [] u.fabric.sharers k ++ [p.src]) } }
      exec (row p) s = .next (v.respond { q with w64 := true } 0x20 (status line 256) 0 bs)))

/-- R135, R230, R358, R385, R387, R389, R398, R402: a STORE or an atomic at its home, new under R402: applied once, recorded with its tag and answered, where no node
holds its line shared. An atomic returns the old value unless NORET; each leaves its own function of the old value and the operands; the determinism mode answers 4. -/
def Obligations.AtomicsAtHome : Prop := ∀ (s : State) (p : Packet) (j c : Nat), s.hears p = true → s.homeOf p = some (j, c) → c ≠ 0 →
  let w := if p.w64 = true then 64 else 32
  let x := p.operand
  let start := fun (op : Nat) => let v := s.chargeBytes (s.regN (Reg.jobOwner j)) 7 (packetBytes { p with opcode := op })
    v.setReplay p ((v.replay p).advance p.tag)
  let new := fun (op : Nat) => let v := s.chargeBytes (s.regN (Reg.jobOwner j)) 7 (packetBytes { p with opcode := op })
    (v.replay p).hw = 0 ∨ newer p.tag ((v.replay p).hw - 1) = true
  let k := (c - 1) * 34359738368 + p.offset / 256
  let free := fun (op : Nat) => (∀ h ∈ s.fabric.held, ¬ (h.src = p.src ∧ h.job = p.job ∧ h.tag = p.tag)) ∧
    Table.get [] (start op).fabric.sharers k = [] ∧ Table.get [] (start op).fabric.dropping k = []
  let applies := fun (row : Packet → Instr) (op w : Nat) (value : Nat → Nat) =>
    let q := { p with opcode := op }
    let u := start op
    (∀ bs u', new op → free op → u.reg Reg.determinismMode ≠ 1 → u.readLocal (c - 1) p.offset (w / 8) = some bs → u.localPoisoned (c - 1) p.offset (w / 8) = false →
      u.writeLocal (c - 1) p.offset (bytesOf (w / 8) (value (natOf bs))) = some u' →
      let result := if p.noret = true then 0 else natOf bs
      exec (row p) s = .next ((u'.record q 0 result).respond q 0x22 0 result [])) ∧
    (new op → free op → u.reg Reg.determinismMode = 1 → atomicForbidden op p.noret = true →
      exec (row p) s = .next (((u.bump Reg.forbiddenRefusals 1).record q 4 0).respond q 0x22 4 0 []))
  applies .fetchAdd 0x08 w (fun old => (old + x) % 2 ^ w) ∧
  applies .swap 0x09 w (fun _ => x % 2 ^ w) ∧
  applies .cas 0x0A w (fun old => if old = p.compare % 2 ^ w then x % 2 ^ w else old) ∧
  applies .minS 0x0B w (fun old => if signed w old ≤ signed w x then old else x % 2 ^ w) ∧
  applies .maxS 0x0C w (fun old => if signed w x ≤ signed w old then old else x % 2 ^ w) ∧
  applies .minU 0x0D w (fun old => min old (x % 2 ^ w)) ∧
  applies .maxU 0x0E w (fun old => max old (x % 2 ^ w)) ∧
  applies .faddF32 0x0F 32 (fun old => (fp32Add old (x % 2 ^ 32)).code) ∧
  applies .faddF64 0x10 64 (fun old => (fp64Add old (x % 2 ^ 64)).code) ∧
  (∀ u', let q := { p with opcode := 0x02 }
    let u := start 0x02
    new 0x02 → free 0x02 →
    u.writeLocal (c - 1) p.offset p.data = some u' → exec (.store p) s = .next ((u'.record q 0 0).respond q 0x21 0 0 []))

/-- R384 to R387, R389, R396, R398, R402 to R404: the other packets, from a node of an active job or of chip control. A response completes its request:
DATA brings a move's bytes, ACK and REPLY their status, a REPLY the value of an ATOMIC entry. INV drops a shared line and is answered; an answered INV lets
the stores go on; a HEARTBEAT is heard. A packet of no active job is counted. -/
def Obligations.ResponsesAndCoherence : Prop := ∀ (s : State) (p : Packet), s.hears p = true →
  let status := p.offset % 256
  let u := fun (op n : Nat) => (s.chargeBytes (s.jobPayer p.job) 7 (packetBytes { p with opcode := op })).finishRequest n
  let known := p.job = controlJob ∨ s.homeOf p ≠ none
  (∀ n r id off, known → s.answered p [0x01, 0x28] = some (n, r) → status = 0 → r.sink = .moveLoad id off →
    exec (.data p) s = .next (((u 0x20 n).keepLine r p.w64 p.data).stage id off (wantedBytes r p.data) false)) ∧
  (known → s.answered p [0x01, 0x28] = none → exec (.data p) s = .next s) ∧
  (∀ n r, known → s.answered p [0x02, 0x1A, 0x1B, 0x1C, 0x1D] = some (n, r) → exec (.ack p) s = .next ((u 0x21 n).badStatus r status)) ∧
  (∀ n r tile a, known → s.answered p [0x03, 0x08, 0x09, 0x0A, 0x0B, 0x0C, 0x0D, 0x0E, 0x0F, 0x10, 0x18, 0x19] = some (n, r) → r.sink = .atomic tile a →
    exec (.reply p) s = .next ((((u 0x22 n).atomicOver tile a status (if status = 0 ∧ r.packet.noret = false then some p.operand else none)).badStatus r status).issueAtomics)) ∧
  (known → exec (.inv p) s = .next ((({ s with fabric := { s.fabric with shared := Table.erase s.fabric.shared (remoteKey p.job p.src p.offset) } }).route
    { blankPacket with opcode := 0x2A, vc := p.vc, src := s.node, dst := p.src, job := p.job, tag := p.tag, offset := p.offset / 256 * 256 }))) ∧
  (∀ j c, s.homeOf p = some (j, c) →
    exec (.invAck p) s = .next (s.lineDropped (c - 1) p.offset p.src).issueAtomics ∧
    (let k := lineKey (c - 1) p.offset
     exec (.evictS p) s = .next { s with fabric := { s.fabric with sharers := Table.put [] s.fabric.sharers k ((s.sharersOf k).filter (fun n => n != p.src)) } })) ∧
  (¬known → ∀ row ∈ [Instr.data, Instr.ack, Instr.inv, Instr.invAck, Instr.evictS], exec (row p) s = .next (s.bump Reg.noJobDrops 1)) ∧
  (let v := { s with fabric := { s.fabric with heard := Table.put 0 s.fabric.heard p.src (s.time.ticks + 1) } }
   let q := v.regN Reg.quadStatus
   let places := s.quadPlaces.filter (fun e => e.2 == p.src)
   (places = [] → exec (.heartbeat p) s = .next v) ∧
   (∀ i rest, places = (i, p.src) :: rest → exec (.heartbeat p) s = .next (v.setReg Reg.quadStatus
     (if bit q i = p.w64 then q else if p.w64 = true then q + 2 ^ i else q - 2 ^ i : Nat))))

/-- R410, R415, R420, R421, R424, R427: sync messages of an active job's peer, new under R402. A signal is counted and signals the home object; a wait is
evaluated there unless its part is frozen; a grant satisfies the proxy's first waiter for its count; an abandonment makes the object ABANDONED. -/
def Obligations.SyncMessages : Prop := ∀ (s : State) (p : Packet) (j c : Nat), s.hears p = true → s.homeOf p = some (j, c) →
  let home := p.operand % 65536
  let proxy := p.operand / 65536 % 65536
  let start := fun (op : Nat) => let v := s.chargeBytes (s.regN (Reg.jobOwner j)) 7 (packetBytes { p with opcode := op })
    v.setReplay p ((v.replay p).advance p.tag)
  let new := fun (op : Nat) => let v := s.chargeBytes (s.regN (Reg.jobOwner j)) 7 (packetBytes { p with opcode := op })
    (v.replay p).hw = 0 ∨ newer p.tag ((v.replay p).hw - 1) = true
  let ends := fun (op reply value : Nat) (u : State) => let q := { p with opcode := op }
    (u.record q 0 value).respond q reply 0 value []
  let known := fun (o : SyncObj) => ({ o with proxies := if o.proxies.contains (j, p.src, proxy) then o.proxies else o.proxies ++ [(j, p.src, proxy)] } : SyncObj)
  (∀ o, new 0x18 → let u := (start 0x18).countReceived j
    u.object home = some o → o.owner + 1 = c → o.abandoned = false →
    exec (.syncSignal p) s = .next (ends 0x18 0x22 0 ((u.setObject home (known o)).signalObject home (known o) (65536 * (p.src + 1) + proxy) p.compare))) ∧
  (∀ o, new 0x19 → let u := start 0x19
    u.object home = some o → o.owner + 1 = c → o.abandoned = false → (u.quietOf (u.partNo o.owner)).frozen = false →
    let w : Waiter := { since := u.lnc, ctx := 65535, seq := 0, task := 0, entry := 0, count := p.compare, node := p.src, job := j, proxy := proxy }
    let v := (u.setObject home (known o)).waitAt home w
    ∀ o', v.object home = some o' → o'.owner + 1 = c → exec (.syncWait p) s = .next (ends 0x19 0x22 (min o'.holders.length 8 * 2 ^ 32 + o'.value % 2 ^ 32) v)) ∧
  (∀ o w, new 0x1A → let u := (start 0x1A).countReceived j
    u.object proxy = some o → o.waiters.find? (fun (w : Waiter) => w.count == p.compare) = some w →
    let g := (u.setObject proxy { o with waiters := o.waiters.erase w }).grant proxy o w
    exec (.syncGrant p) s = .next (ends 0x1A 0x21 0 (g.1.settle g.2))) ∧
  (∀ o, new 0x1B → let u := start 0x1B
    u.object proxy = some o →
    (o.remoteJob = j + 1 ∧ o.homeNode = p.src ∧ o.homeId = home →
      exec (.syncAbandon p) s = .next (ends 0x1B 0x21 0 (u.abandonObject proxy false State.returnUnits))) ∧
    (∀ h, ¬(o.remoteJob = j + 1 ∧ o.homeNode = p.src ∧ o.homeId = home) → u.object home = some h → h.owner + 1 = c →
      Table.has h.holders (65536 * (p.src + 1) + proxy) = true → exec (.syncAbandon p) s = .next (ends 0x1B 0x21 0 (u.abandon home))))

/-- R343, R377 to R382, R395: the links. A flit in order with a good CRC is taken, acknowledged and its packets delivered; any other is answered with a
NAK of the last good one; retraining ends in service or DOWN; a link that goes down is lost; a mode brings a link up; a frame
delivers its packets, its PTP message or its pause by its EtherType. -/
def Obligations.FabricLinks : Prop := ∀ (s : State) (link : Nat),
  let x := s.link link
  (∀ f : Flit, s.linkUp link = true → s.linkZfl link = true → x.retrainAt = 0 →
    (f.crcOk = true → f.seq = x.rxNext →
      let s1 := (s.setLink link { x with
        rxNext := (x.rxNext + 1) % 65536, used := Table.put 0 x.used f.cvc (Table.get 0 x.used f.cvc - f.credits) }).emit (.flit link 0 f.seq)
      exec (.flitReceive link f) s = .next ((f.packets.foldl State.deliver (s1.acknowledge link f.ack f.nak)).returnCredits link f.packets)) ∧
    (f.crcOk = false ∨ f.seq ≠ x.rxNext → exec (.flitReceive link f) s = .next (s.emit (.flit link 1 ((x.rxNext + 65535) % 65536))))) ∧
  (x.retrainAt ≠ 0 →
    exec (.linkRetrainComplete link true) s = .next (pump x.queue.length ((s.setLink link { x.cleared with queue := x.queue }).setLinkUp link 2) link) ∧
    exec (.linkRetrainComplete link false) s = .next ((s.setLink link x.cleared).linkLost link)) ∧
  (x.up ≠ 0 → exec (.linkDown link) s = .next ((s.setLink link x.cleared).linkLost link)) ∧
  (∀ peer, s.reg (Reg.linkMode link) ≠ 0 → x.up ≤ 1 →
    exec (.fabricLinkUp link peer) s = .next (((s.setLink link x.cleared).setLinkUp link 2).setReg (Reg.linkPeer link) (if s.linkZfl link = true then (peer : Int) else 65535))) ∧
  (∀ (e : Nat) (packets : List Packet) (priorities : List Nat) (m : PtpMsg), s.linkUp link = true → 5 ≤ s.reg (Reg.linkMode link) →
    let row := fun (fcsOk : Bool) => exec (.fabricFrameReceive link e packets priorities (some m) fcsOk) s
    (e = s.regN Reg.fabricEthertype → row true = .next (packets.foldl State.deliver s)) ∧
    (e ≠ s.regN Reg.fabricEthertype → e = 0x88F7 → row true = .next (s.ptpHear link m)) ∧
    (e ≠ s.regN Reg.fabricEthertype → e = 0x8808 →
      row true = .next (pump x.queue.length (s.setLink link { x with paused := (List.range 7).filter (fun v => priorities.contains (s.pcpOf v)) }) link)) ∧
    row false = .next s)

/-- R384, R386, R391, R398, R401, R402, R404, R405: time on the fabric. Heartbeats go to every peer; one silent for HB_MISS periods is declared dead; a request
is sent again three times and then lost; an applied entry ages; a fence waits for the context's requests. -/
def Obligations.FabricTimers : Prop := ∀ (s : State),
  (s.node ≠ 0xFFFF → s.passed s.fabric.heartbeatAt (s.regN Reg.hbPeriod) = true → s.relia.ctHung.length < 2 →
    let beat := fun (u : State) (n : Nat) => ({ blankPacket with opcode := 0x30, vc := 6, src := u.node, dst := n, job := controlJob, w64 := u.quadPeerList.contains n } : Packet)
    exec .heartbeatSend s = .next (s.peers.foldl (fun u n => (u.paths n).foldl (fun u l => u.linkSend l (beat u n)) u) { s with fabric := { s.fabric with heartbeatAt := s.time.ticks } })) ∧
  (∀ node, let h := Table.get 0 s.fabric.heard node
    h ≠ 0 → node < 4096 → s.fabric.dead.contains node = false → s.passed (h - 1) (s.regN Reg.hbMiss * s.regN Reg.hbPeriod) = true →
    s.peers.contains node = true →
    let ours := fun (l : List (Nat × Request)) => List.filter (fun (e : Nat × Request) => e.2.packet.dst == node) l
    let u := ((s.setDead (node :: s.fabric.dead)).bump Reg.deadDeclared 1).deviceEvent
    let v := { u with fabric := { u.fabric with
      sharers := Table.mapVals [] u.fabric.sharers (fun _ l => l.filter (fun n => n != node))
      requests := (ours u.fabric.waiting).foldl (fun (t : Table Request) (e : Nat × Request) => Table.insert t e.1 e.2) u.fabric.requests
      waiting := u.fabric.waiting.filter (fun r => r.2.packet.dst != node) } }
    let w := ((List.filter (fun (e : Nat × List Nat) => e.2.contains node) u.fabric.dropping).map (fun e => e.1)).foldl
      (fun x k => x.lineDropped (k / 34359738368) (k % 34359738368 * 256) node) v
    exec (.peerDeclaredDead node) s = .next ((((ours (s.fabric.requests ++ s.fabric.waiting)).map (fun e => e.1)).foldl (fun (x : State) n => x.failRequest n 16) w).movePeerDead node).issueAtomics) ∧
  (∀ id (r : Request), Table.find? s.fabric.requests id = some r →
    (s.fabric.dead.contains r.packet.dst = true → exec (.requestRetry id) s = .next (s.failRequest id 16)) ∧
    (s.fabric.dead.contains r.packet.dst = false → r.retries < 3 → s.passed r.sentAt ((r.retries + 1) * s.regN Reg.reqTimeout) = true →
      let v := { s with fabric := { s.fabric with requests := Table.insert s.fabric.requests id { r with retries := r.retries + 1 } } }
      let u := match (List.range 64).find? (fun j => s.jobState j != 0 && s.regN (Reg.jobId j) == r.packet.job) with | some j => v.bump (Reg.jobRetries j) 1 | none => v
      exec (.requestRetry id) s = .next ((u.chargeBytes (u.jobPayer r.packet.job) 7 (packetBytes { r.packet with retry := true })).route { r.packet with retry := true })) ∧
    (s.passed r.sentAt (4 * s.regN Reg.reqTimeout) = true → exec (.requestLost id) s = .next (s.failRequest id 17))) ∧
  (∀ job node tag, let k := pairKey job node
    let r := Table.get {} s.fabric.replays k
    (∃ a, (tag, a) ∈ r.applied ∧ a.aged = false ∧ s.passed a.at' 1000000 = true) →
    exec (.replayEntryAge job node tag) s = .next { s with fabric := { s.fabric with replays := Table.put {} s.fabric.replays k { r with
      applied := r.applied.map (fun (e : Nat × Applied) => if e.1 = tag then (e.1, { e.2 with aged := true, result := 0 }) else e) } } }) ∧
  (∀ tile a, let t := s.tile tile
    let run := runKey (t.task - 1) t.rank
    t.task ≠ 0 → t.switching = 0 → Table.find? s.fabric.atomics run = some a → a.next < a.count → bits (natOf (t.read (a.addr + 32 * a.next) 32)) 255 250 = 0x3F →
    (∀ f ∈ s.fabric.fences, f.run ≠ run + 1) →
    let u : State := { s with fabric := { s.fabric with fences := s.fabric.fences ++ [{ ctx := a.ctx, covers := s.outstanding a.ctx, run := run + 1 }] } }
    exec (.fence tile) s = .next (u.noteRemote (t.task - 1))) ∧
  (∀ ctx (x : Fence), s.fabric.fences = [x] → x.ctx = ctx → s.fenceDone x = true →
    let u := { s with fabric := { s.fabric with fences := [] } }
    (x.run = 0 → exec (.fenceComplete ctx) s = .next u) ∧
    (∀ a, x.run ≠ 0 → s.holdsRun (x.run - 1) = true → Table.find? s.fabric.atomics (x.run - 1) = some a →
      let v := u.atomicDone (x.run - 1) (a.addr + 32 * a.next) 0 none
      exec (.fenceComplete ctx) s = .next ((issueEntries 64 { v with fabric := { v.fabric with
        atomics := Table.insert v.fabric.atomics (x.run - 1) { a with next := a.next + 1 } } } (x.run - 1)).noteRemote ((x.run - 1) / 512))))

/-- R383, R384, R400, R406, R407: a job. It becomes ACTIVE at its LNC with fresh tags and replay tables; one context of its owner and class is bound to it;
a faulted job that gets no TEARDOWN tears itself down; 10 ms after a teardown its entry is FREE and its context over. -/
def Obligations.Jobs : Prop := ∀ (s : State) (j : Nat),
  let x := s.job j
  let id := s.regN (Reg.jobId j)
  (s.jobState j = 1 → x.applyAt ≠ 0 → x.applyAt - 1 ≤ s.lnc →
    let u := { s with fabric := { s.fabric with
      tags := s.fabric.tags.filter (fun (e : Nat × Nat) => e.1 / 4096 != id)
      replays := s.fabric.replays.filter (fun (e : Nat × Replay) => e.1 / 4096 != id) } }
    exec (.jobActivate j) s = .next (((((u.hearFrom (s.jobNodes j)).forgetQuiet j).setJob j { x with applyAt := 0 }).setReg (Reg.jobState j) 2).setReg (Reg.jobFaultCause j) 0)) ∧
  (∀ f r d b, s.admits f r d b [1, 2] → isOp 0x0B b = true → mapBits b 511 506 = j → s.jobState j = 2 → s.regN (Reg.jobOwner j) = d.func → x.bound = 0 →
    s.jobOf d.context = none →
    let u := s.takeDesc f r
    exec (.jobBind f r) s = .next (
      if s.regN (Reg.jobClass j) = d.klass ∧ s.regN (Reg.jobClass j) = s.ctxClassOf d.context then ((u.setJob j { x with bound := d.context + 1, ring := u.recordRing d.func d.ring }).served d)
      else u.refuse d 3)) ∧
  (s.jobState j = 3 → x.faultAt ≠ 0 → s.passed (x.faultAt - 1) (1000000 * s.regN Reg.teardownTimeout) = true →
    exec (.teardownTimeout j) s = .next (s.tearDown j (s.regN (Reg.jobFaultCause j)) false)) ∧
  (s.jobState j = 4 → x.tearAt ≠ 0 → s.passed (x.tearAt - 1) 10000000 = true →
    (x.bound = 0 → exec (.teardownComplete j) s = .next (((s.forgetQuiet j).setJob j {}).setReg (Reg.jobState j) 0)) ∧
    (x.bound ≠ 0 → x.quiet = false →
      let c := x.bound - 1
      let r : Record := { rtype := 4, ctx := c, doneLnc := s.lnc % 4294967296, body := id * 2 ^ 116 + s.regN (Reg.jobFaultCause j) * 2 ^ 112 }
      let u := (((s.dropContextMaps c).endObjects c x.ring true).writeRecord (s.regN (Reg.jobOwner j)) x.ring r)
      let w := u.forgetQuiet (64 + c)
      let v := { w.setReg (Reg.ctxEnable (c / 16) (c % 16)) 0 with sync := { w.sync with halted := u.sync.halted.filter (fun h => h != c) } }
      exec (.teardownComplete j) s = .next (((v.forgetQuiet j).setJob j {}).setReg (Reg.jobState j) 0)))

/-- R366, R374, R430, R431, R453, R455 to R457, R556, R558, R564: functions and the start of the chip. An FLR disables its function, of PF0 every VF too; 10 ms
later it reads DISABLED, or ENABLED after an FLR; the active bank's set where it is valid, else the other's, starts chip control, and with neither the
boot fails; SERVING follows the GDDR7 training. -/
def Obligations.FunctionsAndStart : Prop := ∀ (s : State) (f : Nat),
  let g := s.func f
  (s.reg (Reg.functionState f) = 2 → g.disablingAt ≠ 0 → s.passed (g.disablingAt - 1) 10000000 = true →
    let on : Bool := g.byFlr && s.functionExists f
    let u := (s.returnResources f).windowOff f g.byFlr
    let v := u.setFunc f { u.func f with disablingAt := 0, byFlr := false, unmasked := if g.byFlr = true then [] else (u.func f).unmasked }
    exec (.functionDisableComplete f) s = .next ((v.setReg (Reg.functionState f) (if on = true then 1 else 0)).setReg (Reg.functionEnable f) (if on = true then 1 else 0))) ∧
  (s.boot.link = true →
    (s.functionExists f = true →
      exec (.flr f) s = .next ((if f = 0 then s.disableVfs else s).disableFunction f true) ∧
      exec (.d3hotEntry f) s = .next ((s.setFunc f { g with d3 := true }).disableFunction f false) ∧
      (∀ code ok, 1 ≤ f →
        let moves := fun (x : Nat) => ((s.setFunc f { g with tdi := x }).emit (.spdm (.doe f) (code - 0x80) (BitVec.ofNat 8 x :: Config.freeBytes s.free 64))).fresh
        (code = 0x83 → g.tdi = 0 → exec (.tdispRequest f code ok) s = .next (moves 1)) ∧
        (code = 0x86 → g.tdi = 1 → ok = true → exec (.tdispRequest f code ok) s = .next (moves 2)) ∧
        (code = 0x87 → exec (.tdispRequest f code ok) s = .next (moves 0)) ∧
        (code < 0x81 → exec (.tdispRequest f code ok) s = .next (s.emit (.spdm (.doe f) 0x7F [BitVec.ofNat 8 g.tdi]))))) ∧
    exec .vfEnableSet s = .next { s with boot := { s.boot with vfEnable := true } } ∧ exec .pcieLinkDown s = .next s.linkGone) ∧
  (s.boot.vfEnable = true → exec .vfEnableClear s = .next s.disableVfs) ∧
  (∀ body : List Byte, s.functionExists f = true → s.boot.link = true → (s.spdmOf (.doe f)).session = 2 → (body.getD 0 0).toNat = 5 →
    let id := (body.getD 3 0).toNat
    let k := (body.getD 5 0).toNat
    let x : IdeStream := Table.get {} s.sec.ide id
    exec (.ideKmRequest (.doe f) body) s = .next (({ s with sec := { s.sec with ide := Table.put {} s.sec.ide id { x with going := x.going.filter (fun j => j != k) } } }).emit
      (.spdm (.doe f) 0 ([6, 0, 0, id, 0, k, (body.getD 6 0).toNat].map (fun n => BitVec.ofNat 8 n))))) ∧
  (∀ a b, s.reg Reg.startupStage = 1 →
    let u : State := if s.sec.banks = [] then { s with sec := { s.sec with banks := [(0, bundleOf a), (1, bundleOf b)] } } else s
    let n := s.sec.bank
    let starts := fun (k : Nat) => ((((({ u with sec := { u.sec with bank := k } } : State).runSet (u.bank k)).setDomain 38 true).setDomain 39 true).setReg Reg.startupStage 2).applyBook
    exec (.startupVerifyDone a b) s = .next (if u.setOk (u.bank n) = true then starts n else if u.setOk (u.bank (1 - n)) = true then starts (1 - n) else u.bootFails)) ∧
  (s.reg Reg.startupStage = 2 → s.reg Reg.trainStatus ≠ 0 →
    let u := ((s.powerClusters.hearQuad).setReg Reg.startupStage 3).setReg Reg.readyLnc s.lnc
    exec .chipControlServing s = .next (if u.reg Reg.resetStatus = 1 then u.setReg Reg.resetStatus 2 else u))

/-- R357, R360, R365, R367, R371 to R375, R542, R543, R566, R570, R594: GDDR7 and firmware. A mapping that no reason refuses is made, an unmapped range is
gone; a zeroised page reads 0 and is free; training ends READY or failed; a firmware switch takes its cores in turn, and a failed self-check cancels it. -/
def Obligations.MemoryAndFirmware : Prop := ∀ (s : State),
  (∀ f r d x, s.admits f r d x [1, 2] → let u := s.takeDesc f r
    let b := mapBodyOf x
    let count := mapBits x 447 416
    let va := mapBits x 383 320
    (isOp 0x09 x = true → u.mapReason d b = none → exec (.map f r) s = .next ((u.mapRange d b).served d)) ∧
    (∀ e, isOp 0x09 x = true → u.mapReason d b = some e → exec (.map f r) s = .next (u.refuse d e)) ∧
    (isOp 0x0A x = true → u.unmapReason d count va = none →
      exec (.unmap f r) s = .next ((u.dropMaps d.context (u.mapsIn d.context (bits va 42 0 / 65536) (bits va 42 0 / 65536 + count))).served d))) ∧
  (∀ page, let f := Table.get 0 s.mem.zeroising page
    f ≠ 0 → exec (.gddr7ZeroiseComplete page) s = .next ((({ s with mem := { s.mem with
      zeroising := Table.erase s.mem.zeroising page, gddr := s.mem.gddr.filter (fun (e : Nat × Byte) => decide (e.1 / pageBytes ≠ page)) } }).countUsed (f - 1)).chargeBytes overheadAccount 6 pageBytes)) ∧
  (∀ density failed, s.reg Reg.trainStatus = 0 → (density = 32 ∨ density = 64 ∨ density = 128) →
    let n := s.mem.devices
    let bad := failed.filter (fun d => decide (d < 16) && (n == 16 || decide (d % 4 < 2)))
    let u := { s with mem := { s.mem with failed := bad } }
    exec (.gddr7TrainingDone density failed) s = .next (
      if bad = [] then ((u.setReg Reg.gddr7Density density).setReg Reg.gddr7DataBytes (usableBytes n density)).setReg Reg.trainStatus 1 else u.setReg Reg.trainStatus 16)) ∧
  (s.reg Reg.trainStatus = 1 → s.passed s.mem.wckAt 100000000 = true → exec .wckTracking s = .next { s with mem := { s.mem with wckAt := s.time.ticks } }) ∧
  (∀ dev, let n := Table.get 0 s.mem.retrainAt dev
    (n ≠ 0 → n - 1 ≤ s.lnc → dev < 16 → exec (.deviceRetrain dev) s = .next { s with mem := { s.mem with
      retrainAt := Table.put 0 s.mem.retrainAt dev 0, retraining := dev :: s.mem.retraining.filter (fun d => d != dev) } }) ∧
    (s.mem.retraining.contains dev = true → exec (.deviceRetrainComplete dev) s = .next
      (({ s with mem := { s.mem with retraining := s.mem.retraining.filter (fun d => d != dev) } }).setReg (Reg.gdevRetrainStatus dev) 2))) ∧
  (∀ n, let x := Table.get 0 s.relia.switches n
    n < 9 → x ≠ 0 → x - 1 ≤ s.lnc → Table.has s.relia.switching n = false →
    exec (.fwSwitch n) s = .next (({ s with relia := { s.relia with
      switches := Table.erase s.relia.switches n, switching := Table.insert s.relia.switching n { checkAt := x - 1 } } }).setReg Reg.fwStatus 2)) ∧
  (∀ n x, Table.find? s.relia.switching n = some x →
    let after := 50 * x.checkAt + (if x.phase = 0 then 1000000 else 20000000)
    (x.phase ≠ 1 → (n = 8 ∨ s.clusterCells n = []) → after ≤ s.nowNs →
      exec (.fwConductorPass n) s = .next (if x.phase = 0 then s.setSwitch n { core := 0, phase := 1 } else if x.core = 0 then s.setSwitch n { core := 1, phase := 1 } else s.switchDone n)) ∧
    (x.phase = 1 → n = 8 → let u := ({ s with relia := { s.relia with switches := [], switching := Table.erase s.relia.switching n } }).setReg Reg.fwStatus 19
      exec (.fwSelfcheckFail n) s = .next { u with relia := { u.relia with ctHung := u.relia.ctHung ++ [x.core], ctCheck := Table.put 0 u.relia.ctCheck x.core 0 } }) ∧
    (x.phase = 1 → n ≠ 8 → let u := ({ s with relia := { s.relia with switches := [], switching := Table.erase s.relia.switching n } }).setReg Reg.fwStatus 19
      exec (.fwSelfcheckFail n) s = .next { u with radio := { u.radio with hung := u.radio.hung ++ [2 * n + x.core], checks := Table.put 0 u.radio.checks (2 * n + x.core) 0 } })) ∧
  (s.sec.advancing ≠ 0 → s.sec.waiting = [] →
    let u := ({ s with sec := { s.sec with advancing := 0, waiting := [] } }).setReg (Reg.rollbackCount (s.sec.advancing - 1)) (min ((s.lowestSvn s.sec.advancing).getD 0) 256 : Nat)
    exec .rollbackAdvanceComplete s = .next (u.setReg Reg.rollbackStatus 2).rederive)

/-- R481 to R488, R570, R597: the management port. HELLO is answered, held, or refused with its reason; PROVE in time with the right tag and
signature opens a session; idle sessions, handshakes and staged segments end; a due subscription sends its note. -/
def Obligations.ManagementPort : Prop := ∀ (s : State),
  (s.mgUp = true →
    (∀ payload, payload.length ≤ 1472 → exec (.icmpEcho s.ownAddress payload) s = .next (s.emit (.mgFrame 0 2 payload))) ∧
    exec (.arpRequest s.ownAddress) s = .next (s.emit (.mgFrame 0 1 ((bytesOf 6 Config.mgMac).reverse ++ (bytesOf 4 s.ownAddress).reverse))) ∧
    (∀ h : HdpFrame, hdpFormed h = true →
      let data := h.body.drop 40
      let key := data.take 32
      (hdpOp h = 0x10 → data.length = 96 →
        (8 ≤ s.dict.sessions.length + s.dict.handshakes.length → exec (.hello h) s = .next (s.helloRefuse h Status.sessionLimit)) ∧
        (s.dict.sessions.length + s.dict.handshakes.length < 8 → s.peerRoleOf key = none →
          exec (.hello h) s = .next ((s.helloRefuse h Status.authFailed).bump Reg.authFailures 1)) ∧
        (∀ r, s.dict.sessions.length + s.dict.handshakes.length < 8 → s.peerRoleOf key = some r →
          let x : Handshake := { peerKey := key, role := r, keyIn := [], keyOut := [], transcript := [], source := h.source, seq := h.seq, startedAt := s.time.ticks
                                 waits := some ((data.drop 32).take 32, data.drop 64) }
          exec (.hello h) s = .next (if s.sec.deriving' = true then s.setHandshake s.freeSession (some x)
            else s.helloRespond s.freeSession x ((data.drop 32).take 32) (data.drop 64)))) ∧
      (∀ x r, hdpOp h = 0x11 → assoc s.dict.handshakes h.session = some x → x.waits = none → hdpTag x.keyIn h.body = h.tag →
        s.passed x.startedAt 1000000000 = false → s.peerRoleOf x.peerKey = some r →
        let y : Session := { peerKey := x.peerKey, role := r, keyIn := x.keyIn, keyOut := x.keyOut, source := h.source, lastFrame := s.time.ticks }
        let refusal := hdpHeader h Status.authFailed 0 0 false none
        exec (.prove h) s = .next (if Config.ed25519Verify x.peerKey (Config.sha512 x.transcript) data = true
          then (((s.setHandshake h.session none).setSession h.session y).countSessions).hdpAnswer h y {}
          else (s.emit (.hdp h.source refusal [] (hdpTag x.keyOut refusal))).handshakeFails h.session)))) ∧
  (s.domain 37 = true → s.bootNum Reg.mgMode 1 ≠ 0 → exec .mgLinkUp s = .next (s.setReg Reg.mgLink 1)) ∧
  exec .mgLinkDown s = .next (s.setReg Reg.mgLink 0) ∧
  (∀ n x, assoc s.dict.handshakes n = some x → x.waits = none → s.passed x.startedAt 1000000000 = true → exec (.proveTimeout n) s = .next (s.handshakeFails n)) ∧
  (∀ h, s.accepts (.hdp h) { op := 0x12 } → exec (.close h) s = .next (s.answers (.hdp h) { op := 0x12 } (s.closeSession h.session, {}))) ∧
  (∀ n x, s.session n = some x → s.passed x.lastFrame (s.regN Reg.sessionIdle * 1000000000) = true → exec (.sessionIdleTimeout n) s = .next (s.closeSession n)) ∧
  (∀ n x, assoc s.dict.stages n = some x → s.passed x.last 10000000000 = true → exec (.segmentTimeout n) s = .next (s.setStage n none)) ∧
  (s.sec.deriving' = true → s.sec.held = [] → s.dict.handshakes = [] →
    exec .aliasDerivationComplete s = .next (({ s with sec := { s.sec with deriving' := false, aliasNow := s.aliasSeed, derivations := s.sec.derivations + 1, held := [] } }).setBlob Reg.aliasKeyId s.aliasId)) ∧
  (∀ acc index sub last interval mode,
    let c : Window := { op := 5, index := index, sub := sub, subLast := last, length := 8, buffer := bytesOf 8 (interval * 2 ^ 32 + mode % 4) }
    s.accepts acc c → exec (.subscribe acc index sub last interval mode) s = .next (s.answers acc c (s.subscribe acc index sub last interval mode))) ∧
  (∀ holder index sub x, (Table.get [] s.dict.subs holder).find? (fun x => x.index == index && x.sub == sub && s.noteDue holder x) = some x → (holder < 1024 ∨ s.mgUp = true) →
    let v := s.noteValue (holderAccess holder) index sub x.last
    exec (.notify holder index sub) s = .next (((s.setSubs holder ((Table.get [] s.dict.subs holder).map (fun y => if y = x then { x with sentAt := s.time.ticks, value := v } else y))).sendNote holder x v).fresh))

/-- R304, R308, R337 to R340, R435 to R438, R442, R445, R451, R452, R458, R459: rings and the release of slots. An enabled ring takes its indices from its header;
each kind of fetch runs when it is due; a posted buffer is kept; a slot's release point sends the computed slot, or what is held. -/
def Obligations.RingsAndRelease : Prop := ∀ (s : State) (f r : Nat),
  let g := s.ring f r
  (s.reg (Reg.ringKind f r) ≠ 0 → s.reg (Reg.ringStatus f r) = 0 → s.reg (Reg.functionState f) = 1 →
    exec (.ringEnable f r none) s = .next (s.setReg (Reg.ringStatus f r) 17) ∧
    (∀ b : Slot64, let h := ringHeaderOf b
      let start : Ring := { cons := h.cons, prod := h.cons, hostCons := h.cons, ack := h.fetchReq, fallback := if s.reg (Reg.ringFetchPeriod f r) = 0 then s.lnc + 1 + 1 else 0 }
      exec (.ringEnable f r (some b)) s = .next (((s.setRing f r start).setReg (Reg.ringStatus f r) 1).emit (.header f r 2 h.fetchReq)))) ∧
  (∀ h slots, s.fetchable f r = true →
    (s.periodicDue f r = true → exec (.ringFetch f r h slots) s = .next (s.fetch f r h slots)) ∧
    ((∃ x ∈ g.extra, x ≤ s.lnc) → exec (.ringExtraFetch f r h slots) s = .next (s.fetch f r h slots)) ∧
    (s.reg (Reg.ringFetchPeriod f r) = 0 → g.fallback ≠ 0 → g.fallback - 1 ≤ s.lnc → exec (.ringFallbackFetch f r h slots) s = .next (s.fetch f r h slots))) ∧
  (∀ d x, let u := s.takeDesc f r
    (s.admits f r d x [1, 2] → isOp 0x00 x = true → exec (.nopDescriptor f r) s = .next (u.served d)) ∧
    (s.admits f r d x [4] → isOp 0x19 x = true → g.buffers.length < 256 →
      exec (.frameRxBuf f r) s = .next (u.setRing f r { u.ring f r with buffers := (u.ring f r).buffers ++ [mapBits x 447 384] }))) ∧
  (∀ cons, s.reg (Reg.ringKind f r) = 3 → s.reg (Reg.functionState f) = 1 → s.ringFull f r = true → (g.consReadAt = 0 ∨ g.consReadAt - 1 + 20 ≤ s.lnc) →
    exec (.completionConsReread f r cons) s = .next (flushHeld (s.setRing f r { g with hostCons := cons, consReadAt := s.lnc + 1 }) f r g.held)) ∧
  (s.reg (Reg.functionState f) = 1 → g.irqPending ≠ 0 → s.passed g.irqFirst (s.regN (Reg.ringModTime f r)) = true → exec (.modTimeExpiry f r) s = .next (s.raiseRing f r)) ∧
  (∀ v, let u := s.setFunc f { s.func f with
      unmasked := if (s.func f).unmasked.contains v = true then (s.func f).unmasked else v :: (s.func f).unmasked, pendingBits := (s.func f).pendingBits.filter (fun x => x != v) }
    exec (.msixVectorUnmask f v) s = .next (if (s.func f).pendingBits.contains v = true then u.emit (.msix f v) else u)) ∧
  (∀ pasid va, exec (.atsInvalidation f pasid va) s = .next (s.emit (.message f 1 [pasid, va]))) ∧
  (∀ c slot, let w := s.slotWork c slot
    (c < 256 → s.serves c slot = true → w.released = 0 → s.releaseNs c slot ≤ s.nowNs → s.nowNs < s.airNs c slot + s.slotLen c →
      exec (.releasePoint c slot) s = .next (if w.ready = true ∧ s.holdCause c slot = 0 then (s.setSlotWork c slot { w with released := 1 }).sendControl c slot
        (if Config.tddDownlink c slot = true then s.dlStreams c else 0) (if Config.tddUplink c slot = true then s.ulStreams c else 0) (s.slotKey c slot []) else s.sendHeld c slot (s.releaseCause c slot))) ∧
    (∀ k, k < 14 → s.symbolNs c slot k + s.regN (Reg.bindTcpAdvDl c) ≤ s.nowNs + s.regN (Reg.cellT1aMax c) → (w.released = 1 ∨ (w.released = 2 ∧ s.holdHas c slot = true)) →
      w.symbols.contains k = false →
      let key := s.slotKey c slot (if w.released = 2 then (s.cell c).holdSource else [])
      exec (.symbolRelease c slot k) s = .next ((List.range (s.dlStreams c)).foldl (fun (s : State) i =>
        s.sendRadio c slot k 2 (512 + i) (frameBytes (Config.sectionBytes key 2 k i)) (s.regN (Reg.bindT1aMinUp c))) (s.setSlotWork c slot { w with symbols := k :: w.symbols }))) ∧
    (∀ k, k < 14 → s.symbolNs c slot k ≤ s.nowNs + s.regN (Reg.bindT1aMinUp c) → let p := s.regN (Reg.bindFhPort c)
      exec (.symbolWindowClose c slot k) s = .next ((s.dropLate p 13 c slot k).dropLate p 14 c slot k)) ∧
    (c < 256 → s.serves c slot = true → s.holdHas c slot = true → w.holdSent = false → w.released = 0 → s.launchDl c slot / 50 ≤ s.lnc →
      let work : RadioPiece := { vtile := 0, nominalNs := s.budgetDl c * 9 / 20, uplink := false, rxBase := 0, rxLength := 0, moves := [], pdus := [] }
      let x := (s.setSlotWork c slot { w with holdSent := true }).addRadioTask c slot work (s.launchDl c slot) (s.budgetDl c) true
      exec (.holdLaunch c slot) s = .next (x.1.launchRadio x.2.1)))

/-- R14, R49, R278, R282, R288, R297, R305, R310, R311, R447: slot orders and the cut-off. An order of each type is admitted to its slot, or refused with its
reason; at the cut-off a slot is served, held for its cause or held for missing orders; the missed limit makes a cell HOLD; a launch starts its ranks. -/
def Obligations.OrdersAndCutoff : Prop := ∀ (s : State),
  (∀ f r d x list row type, (row, type) ∈ [(Instr.dlTti, 1), (Instr.ulTti, 2), (Instr.txData, 3), (Instr.ulDci, 4)] → s.admits f r d x [1, 2] → isOrder type x = true →
    let u := s.takeDesc f r
    let o := orderBodyOf x []
    (∀ e, u.orderReason d o = some e → exec (row f r list) s = .next (u.refuse d e)) ∧
    (∀ bs, u.orderReason d o = none → u.vaRead d.context o.listAddr o.listLength list = .ok (bs, false) → let q := orderBodyOf x bs
      (orderTiled q type = false → exec (row f r list) s = .next (u.refuse d 25)) ∧
      (orderTiled q type = true → u.orderSlot d q = none → exec (row f r list) s = .next (u.refuse d 23)) ∧
      (∀ n, orderTiled q type = true → u.orderSlot d q = some n → exec (row f r list) s = .next (u.admitOrder d q type n)))) ∧
  (∀ c slot payloads, let u := s.pruneSlots c
    let w := u.slotWork c slot
    c < 256 → s.cellSt c = 2 → s.airNs c slot ≤ s.nowNs + s.cutLead c → s.nowNs < s.airNs c slot → w.cut = false → w.released = 0 → s.conducted c slot = true →
    u.cellSt c = 2 → u.serves c slot = true →
    exec (.orderCutoff c slot payloads) s = .next (if u.holdCause c slot ≠ 0 then u.holdSlot c slot (u.holdCause c slot)
      else if u.missing c slot ≠ 0 then u.missSlot c slot (u.missing c slot) else u.serveSlot c slot payloads)) ∧
  (∀ c, let x := s.cell c
    let limit := s.regN (Reg.cellMissedLimit c)
    let last := (List.filter (fun (e : Nat × SlotWork) => e.2.held == 5) x.slots).foldl (fun m (e : Nat × SlotWork) => max m e.1) 0
    s.cellSt c = 2 → limit ≤ x.missed → s.airNs c (last - (x.missed - limit)) + s.slotLen c ≤ s.nowNs →
    exec (.missedLimitReached c) s = .next ((s.updCell c (fun x => { x with heldBy := 2, missed := 0 })).setCellSt c 3)) ∧
  (∀ n, s.hasTask n = true → (s.task n).status = .registered → (s.task n).radio = none → exec (.taskLaunch n) s = .next (s.startRanks n)) ∧
  (∀ n r, s.hasTask n = true → (s.task n).status = .registered → (s.task n).radio = some r → let u := s.startRanks n
    exec (.taskLaunch n) s = .next (if r.uplink = true ∧ (u.task n).startLnc ≠ 0 then (u.harqGaps r.cell r.slot).foldl (fun s h => s.cellEvent r.cell 13 r.slot h) u else u))

/-- R328, R329, R331, R334, R340, R342 to R347, R351, R439, R444, R517: the ports. A frame received has one destination: the ring, PTP, a radio stream, a delay
measurement, or the count of bad frames; a frame to send is queued once it fits, or refused; a free port begins its next frame. -/
def Obligations.EthernetPorts : Prop := ∀ (s : State) (p : Nat),
  let x := s.port p
  (p < 64 → s.reg (Reg.portMode p) ≠ 0 → x.up ≤ 1 → s.power.inputOff = false →
    exec (.portLinkUp p) s = .next (((s.portSync p).setPort p { (s.portSync p).port p with credit := [] }).setPortUp p 2)) ∧
  (s.portUp p = true →
    exec (.portDown p) s = .next (((s.portFlush p).setPortUp p 0).logError { klass := 0, unit := 13, code := 12, cluster := 9, detail := p }) ∧
    (∀ f : RxFrame,
      (f.length < 64 ∨ 9216 < f.length ∨ f.fcsOk = false ∨ f.flowControl = true → exec (.frameReceive p f) s = .next (s.rxBad p)) ∧
      (64 ≤ f.length → f.length ≤ 9216 → f.fcsOk = true → f.flowControl = false →
        (2 ≤ f.tags → exec (.frameReceive p f) s = .next (s.hostFrame p f true)) ∧
        (f.tags < 2 → f.etherType = 0x88F7 → exec (.frameReceive p f) s = .next (s.ptpFrame p f)) ∧
        (f.tags < 2 → f.etherType ≠ 0x88F7 → f.etherType ≠ 0xAEFE → exec (.frameReceive p f) s = .next (s.hostFrame p f false)) ∧
        (f.tags < 2 → f.etherType = 0xAEFE →
          (f.ecpri = none → exec (.frameReceive p f) s = .next (s.rxBad p)) ∧
          (∀ e y, f.ecpri = some e → e.mtype = 0 → s.uplinkStream p (frameVlan f) e.eaxc = some y → exec (.frameReceive p f) s = .next (s.radioFrame p f e y.1 y.2)) ∧
          (∀ e, f.ecpri = some e → e.mtype = 5 → f.dst = s.regN (Reg.portMacAddr p) → exec (.frameReceive p f) s = .next (s.delayFrame p f e))))) ∧
    (x.busyUntil ≤ s.time.ticks →
      let a := (s.portSync p).setPort p { (s.portSync p).port p with sending := 0 }
      let b := [14, 13].foldl (fun (s : State) q => dropHeads ((s.port p).queue q).length s p q) a
      let r := b.egressChoice p
      (∀ q, r.2 = some q → exec (.egressFrameStart p) s = .next ((b.setPort p r.1).beginFrame p q)) ∧
      (r.2 = none → exec (.egressFrameStart p) s = .next (b.setPort p r.1)))) ∧
  (∀ c, let n := s.regN (Reg.bindDelayMeasPeriod c)
    c < 256 → n ≠ 0 → s.cellSt c ≠ 0 → ((s.cell c).measuredAt = 0 ∨ s.passed ((s.cell c).measuredAt - 1) (1000000 * n) = true) →
    exec (.delayMeasRequestTx c) s = .next ((s.setCell c { s.cell c with measuredAt := s.time.ticks + 1 }).enqueue (s.regN (Reg.bindFhPort c)) 12 { kind := 3, length := 64, cell := c, content := [0] })) ∧
  (∀ f r d y content, s.admits f r d y [1, 2] → isOp 0x18 y = true → let b := frameBodyOf y []
    let u := s.takeDesc f r
    let queues := (d.klass = 0 → 8 ≤ b.queue ∧ b.queue ≤ 11) ∧ (d.klass = 1 → b.queue ≤ 7)
    s.hostDepth b.port + b.length + 4 ≤ 1048576 →
    (b.length < 60 ∨ 9212 < b.length → exec (.frameTx f r content) s = .next (u.refuse d 39)) ∧
    (60 ≤ b.length → b.length ≤ 9212 → ¬queues → exec (.frameTx f r content) s = .next (u.refuse d 3)) ∧
    (∀ bs, 60 ≤ b.length → b.length ≤ 9212 → queues → u.vaRead d.context b.bufAddr b.length content = .ok (bs, false) →
      exec (.frameTx f r content) s = .next ((u.enqueue b.port b.queue (hostFrame d b bs)).served d))) ∧
  (∀ f r w, s.ports.done.find? (fun w => w.func == f && w.ring == r && decide (w.tick ≤ s.time.ticks)) = some w → s.reg (Reg.functionState f) = 1 →
    let use := (s.ring f r).inUse.filter (fun i => i != w.slot)
    let u := { s with ports := { s.ports with done := s.ports.done.erase w } }
    exec (.frameTxWriteback f r) s = .next (((u.setRing f r { s.ring f r with inUse := use }).emit (.writeBack f r w.slot (bytesOf 16 (2 ^ 127 + w.status % 128 * 2 ^ 120 + w.time % 2 ^ 80)))).emit
      (.header f r 0 (use.headD (s.ring f r).cons)))) ∧
  (p < 64 → s.lnc % 20 = 0 → x.sampledAt ≠ s.lnc + 1 → s.reg (Reg.portMode p) ≠ 0 → let u := (List.range 16).foldl (fun s q => s.telSample p q) s
    exec (.telemetrySample p) s = .next (u.setPort p { u.port p with sampledAt := s.lnc + 1, clearing := [] }))

/-- R499, R501, R505, R507 to R509, R512, R513, R515: the governor, the burst budget, the lowest state, the cap, the sensors and energy. The lowest state is
entered by the regulators' alert, the limit held at minimum duty, or 105 degrees, and left when every cause is over. -/
def Obligations.PowerLimits : Prop := ∀ (s : State),
  let reduced := fun (rail : Nat) (u : State) => ({ u with power := { u.power with reducedAt := Table.put 0 s.power.reducedAt rail (s.time.ticks + 1) } } : State)
  (∀ rail a1 a50 a100, rail < 20 → let l := railLimits rail
    ((l.2 < a1 ∨ 95 * l.2 < 100 * a50 ∨ l.1 < a100) → (Table.get 0 s.power.reducedAt rail = 0 ∨ s.passed (Table.get 0 s.power.reducedAt rail - 1) 1000 = true) →
      let u := reduced rail (s.noteRail rail a1 a50)
      let acts := ∃ t ∈ s.beTiles rail ++ s.tempoTiles rail, 1 < (s.tile t).duty
      (acts → exec (.governorReduce rail a1 a50 a100) s = .next ((u.bump (Reg.railGovernorActs rail) 1).lowerDuty rail).noteDuty) ∧
      (¬acts → exec (.governorReduce rail a1 a50 a100) s = .next (u.lowerDuty rail).noteDuty)) ∧
    (a1 ≤ l.2 → 100 * a50 ≤ 95 * l.2 → a100 ≤ l.1 → exec (.governorReduce rail a1 a50 a100) s = .next (s.noteRail rail a1 a50)) ∧
    (100 * a50 < 85 * l.2 → (Table.get 0 s.power.raisedAt rail = 0 ∨ s.passed (Table.get 0 s.power.raisedAt rail - 1) 10000 = true) →
      let u := s.setReg (Reg.railMax50us rail) (max (s.regN (Reg.railMax50us rail)) a50)
      exec (.governorRaise rail a50) s = .next (({ u with power := { u.power with raisedAt := Table.put 0 s.power.raisedAt rail (s.time.ticks + 1) } }.raiseDuty rail).noteDuty))) ∧
  (∀ a1 a50 a100, (s.activeLimit < a1 ∨ s.activeLimit < a50) → (Table.get 0 s.power.reducedAt 20 = 0 ∨ s.passed (Table.get 0 s.power.reducedAt 20 - 1) 1000 = true) →
    exec (.governorReduce 20 a1 a50 a100) s = .next ((reduced 20 s).lowerDuty 20).noteDuty) ∧
  (s.power.burstOff = false → 10000 ≤ s.regN Reg.burstUsed → exec .burstDisarm s = .next { s with power := { s.power with burstOff := true } }) ∧
  (s.power.burstOff = true → s.reg Reg.burstUsed = 0 → exec .burstArm s = .next { s with power := { s.power with burstOff := false } }) ∧
  (s.power.vrAlert = false → s.power.off = false → exec .vrAlertNAssert s = .next { s with power := { s.power with vrAlert := true } }.enterLowest) ∧
  (s.power.vrAlert = true → exec .vrAlertNDeassert s = .next { s with power := { s.power with vrAlert := false, vrClearAt := s.time.ticks + 1 } }) ∧
  (s.lowest = false → s.held s.power.overSince 1000000 = true →
    exec .overLimitTimeout s = .next { s with power := { s.power with overLimit := true } }.enterLowest) ∧
  (s.power.hotSince ≠ 0 → s.passed (s.power.hotSince - 1) 1000000 = true → exec .thermalLimitTimeout s = .next { s with power := { s.power with hot := true } }.enterLowest) ∧
  (s.lowest = true → s.power.vrAlert = false → (s.power.vrClearAt = 0 ∨ s.passed (s.power.vrClearAt - 1) 10000000 = true) → s.reg Reg.forceLowest = 0 →
    s.held s.power.calmSince 10000000 = true → s.held s.power.coolSince 10000000 = true → exec .lowestStateExit s = .next s.leaveLowest) ∧
  (let excess : Nat := s.regN Reg.pkgPower - s.regN Reg.powerCap;
    (s.lowest = true → s.reg Reg.capUnmet = 0 → s.held s.power.capOverSince 1000000 = true →
      exec .capUnmetSet s = .next (((s.setReg Reg.capUnmet 1).setReg Reg.capExcess excess).setAlert 0 true)) ∧
    (s.reg Reg.capUnmet = 1 → exec .capExcessUpdate s = .next (s.setReg Reg.capExcess excess)) ∧
    (s.reg Reg.capUnmet = 1 → s.held s.power.capOkSince 10000000 = true → exec .capUnmetClear s = .next (((s.setReg Reg.capUnmet 0).setReg Reg.capExcess 0).setAlert 0 false))) ∧
  (∀ readings, readings.length = 36 → let m := hottest readings
    let since := fun (c : Bool) (old : Nat) => if c = true then (if old = 0 then s.time.ticks + 1 else old) else 0
    let t : Int := 65536 * s.reg Reg.throttleTemp
    exec (.sensorRead readings) s = .next (({ s with power := { s.power with
      coolSince := since (decide (m < t)) s.power.coolSince, hotSince := since (decide (105 * 65536 < m)) s.power.hotSince } }.setReg Reg.tjMax m).setAlert 2 (decide (t < m)))) ∧
  ((s.power.steppedAt = 0 ∨ s.passed (s.power.steppedAt - 1) 1000000 = true) → let p := { s.power with steppedAt := s.time.ticks + 1 }
    let m := s.reg Reg.tjMax
    let t : Int := 65536 * s.reg Reg.throttleTemp
    (t < m → let x : State := { s with power := { p with cut := min 2400 (p.cut + 50), throttling := true } }
      exec .thermalThrottleStep s = .next (if s.power.throttling = true then x else x.bump Reg.thermalThrottles 1).noteDuty) ∧
    (m < t - 196608 → exec .thermalThrottleStep s = .next { s with power := { p with cut := p.cut - 50, throttling := p.throttling && decide (50 < p.cut) } }.noteDuty) ∧
    (t - 196608 ≤ m → m ≤ t → exec .thermalThrottleStep s = .next { s with power := p }.noteDuty)) ∧
  (∀ total shares, let u := (chargeShares s total shares).chargeEnergy 514 total
    let p := u.power
    let samples := (total :: p.samples).take 50
    let avg := samples.sum / samples.length
    let ended := trimRuns (p.intervals + 1 - 100000) p.bursts
    let runs := if u.regN Reg.powerCap < avg then addRun (p.intervals + 1) ended else ended
    let vin := u.regN Reg.vin
    let next := fun (sum count : Nat) =>
      let v := ({ u with power := { p with samples := samples, intervals := p.intervals + 1, bursts := runs, msSum := sum, msCount := count } }.setReg
        Reg.burstUsed (min 100000 (List.map (fun (e : Nat × Nat) => e.2) runs).sum : Nat)).noteAverage avg;
      if vin = 0 then v else v.setReg Reg.iin (avg * 1000000 / vin : Nat)
    (p.msCount ≠ 999 → exec (.energyIntegrate total shares) s = .next (next (p.msSum + total) (p.msCount + 1))) ∧
    (p.msCount = 999 → exec (.energyIntegrate total shares) s = .next ((next 0 0).setReg Reg.pkgPower ((p.msSum + total) / 1000 : Nat))))

/-- R455, R494 to R496, R510, R511, R597: power domains and clocks. Domains come on one at a time, 5 µs apart; off, PCI Express and the management port
lose their links; the keeping clock reads HOLDOVER without its reference; a cluster whose PLL loses lock stops its tiles and contains its tasks. -/
def Obligations.DomainsAndClocks : Prop := ∀ (s : State) (b : Nat),
  (s.mayTurnOn b = true → (b < 8 ∨ s.clusterAsked = false) → (s.power.lastOn = 0 ∨ s.passed (s.power.lastOn - 1) 5000 = true) →
    exec (.domainTurnOn b) s = .next ({ s with power := { s.power with lastOn := s.time.ticks + 1 } }.setDomain b true)) ∧
  (b < 40 → s.domain b = true → s.mayTurnOff b = true → let u := s.setDomain b false
    exec (.domainTurnOff b) s = .next (if b = 36 ∧ s.boot.link = true then u.linkGone else if b = 37 then u.setReg Reg.mgLink 0 else u)) ∧
  (s.reg Reg.keepingLock = 0 → exec .referenceLost s = .next (s.setReg Reg.keepingLock 1)) ∧
  (s.reg Reg.keepingLock ≠ 0 → s.referenceThere = true → exec .referenceReturn s = .next (s.setReg Reg.keepingLock 0)) ∧
  (b < 8 → s.pllOn b = true → (∀ i < 64, (s.tile (64 * b + i)).task = 0) →
    let u := (((List.range 64).map (fun i => 64 * b + i)).filter (fun t => decide ((s.tile t).sleep ≤ 1))).foldl
      (fun s t => s.updTile t (fun x => { x with sleep := 2, asleepAt := s.time.ticks, wakeAt := 0 })) s
    exec (.pllLockLost b) s = .next ({ u with plls := Table.put 0 u.plls b (s.time.ticks + ticksOf 20000) }.setPll b false)) ∧
  (b < 8 → s.pllOn b = false → s.domain b = true → exec (.pllRelock b) s = .next ({ s with plls := Table.put 0 s.plls b s.time.ticks }.setPll b true))

/-- R10, R368 to R370, R517, R519, R522, R524, R528, R529, R531, R534, R537 to R539: errors and recovery. A failed tile is handled, its spare takes its place at
the switch, tasks run again; scrubs correct, retire or poison; clusters recover or fail; chip control beats, hangs, is checked and resumes. -/
def Obligations.ErrorsAndRecovery : Prop := ∀ (s : State),
  (∀ tile x, Table.find? s.relia.promotions tile = some x → x.doneAt ≤ s.time.ticks →
    let u := { s with relia := { s.relia with promotions := Table.erase s.relia.promotions tile } }
    (s.partOf tile = none → exec (.promotionSwitch tile) s = .next (u.countSpares (clusterOf tile))) ∧
    (∀ p, s.partOf tile = some p → p ≠ x.part → let v := u.removeTile p tile
      exec (.promotionSwitch tile) s = .next ((v.slotsResized p (v.part p).tiles.length).countSpares (clusterOf tile))) ∧
    (s.partOf tile = some x.part →
      let swap := fun (l : List Nat) => l.map (fun p => if p = tile then x.spare else p)
      let a := (u.retarget tile x.spare).setTile x.spare { s.tile tile with
        tenths := (s.tile x.spare).tenths, sleep := 1, wakeAt := 0, task := 0, live := {}, wait := .none, code := [], switching := 0, preempt := false }
      let b := (a.setTile tile { tenths := (s.tile tile).tenths }).setPart x.part { a.part x.part with tiles := swap (a.part x.part).tiles }
      let c := { b with radio := { b.radio with work := Table.put [] (Table.put [] b.radio.work tile []) x.spare (Table.get [] b.radio.work tile) } }
      exec (.promotionSwitch tile) s = .next ((((c.moveResidency tile x.spare).setReg (Reg.clusPromotions (clusterOf tile))
        ((c.regN (Reg.clusPromotions (clusterOf tile)) + 1) % 4294967296 : Nat)).logError
        { klass := 0, unit := x.unit, code := 13, ptile := some tile, cluster := clusterOf tile, partition := some x.part }).countSpares (clusterOf tile)))) ∧
  (∀ tile unit, tile < 512 → (unit = 2 ∨ unit = 3) → (s.tile tile).task ≠ 0 → exec (.residueError tile unit) s = .next (s.tileFailed tile unit 3)) ∧
  (∀ tile, tile < 512 → (s.tile tile).task ≠ 0 → s.passed (s.tile tile).sliceStart (1000 * s.regN Reg.tileWatchdog) = true →
    exec (.tileWatchdogExpiry tile) s = .next (s.tileFailed tile 4 4)) ∧
  (∀ n, let k := s.task n
    s.hasTask n = true → k.rerunDue = true → k.radio = none → k.inv = 0 →
    (∀ t ∈ s.taskTiles k, Table.has s.relia.promotions t = false ∧ Table.has s.relia.recovering (clusterOf t) = false) →
    exec (.taskRerun n) s = .next ((s.setTask n { k with status := .registered, rerunDue := false }).startRanks n)) ∧
  (∀ tile word, tile < 512 → word < 8388608 → (s.tile tile).sleep < 3 → let place := scrubPlace false tile word
    let u := { s with mem := { s.mem with scrubs := Table.erase s.mem.scrubs place } }
    (∀ bs, Table.find? s.mem.scrubs place = some bs → bs = s.scrubContent false tile word →
      exec (.patrolScrub false tile word 1) s = .next (u.updTile tile (fun t => t.write (8 * word) bs))) ∧
    (∀ bs, Table.find? s.mem.scrubs place = some bs → bs ≠ s.scrubContent false tile word → exec (.patrolScrub false tile word 1) s = .next u) ∧
    exec (.patrolScrub false tile word 2) s = .next (s.retireTile tile 1) ∧
    exec (.patrolScrub false tile word 3) s = .next (s.updTile tile (fun t => { t with poison := if t.poison.contains word = true then t.poison else t.poison ++ [word] }))) ∧
  (∀ tile g, s.reg Reg.trainStatus = 1 → 256 * g < s.regN Reg.gddr7DataBytes → let dev := deviceOf (channelOf s.mem.devices (256 * g))
    exec (.patrolScrub true tile g 3) s = .next (({ s with mem := { s.mem with poison := if s.mem.poison.contains g = true then s.mem.poison else s.mem.poison ++ [g] } }.bump
      (Reg.gdevUncorrectable dev) 1).retirePage (256 * g / pageBytes))) ∧
  (∀ c granules, c < 8 → Table.has s.relia.recovering c = false → s.serving = true → let u := s.logError { klass := 2, unit := 6, code := 2, cluster := c }
    exec (.partitionError c granules) s = .next ({ u with mem := { u.mem with poison := u.mem.poison ++ granules.filter (fun g => !u.mem.poison.contains g) } }.recoverCluster c)) ∧
  (∀ c, Table.has s.relia.recovering c = true → let left := s.relia.resetting.filter (fun k => k != c)
    let u : State := { s with relia := { s.relia with recovering := Table.erase s.relia.recovering c, resetting := left } }
    exec (.clusterRecoveryComplete c) s = .next ((if s.relia.resetting.contains c = true ∧ left = [] ∧ s.boot.asked = 0 then u.setReg Reg.resetStatus 2 else u).resetCells c)) ∧
  (∀ c, Table.get 0 s.relia.recovering c ≠ 0 → s.passed (Table.get 0 s.relia.recovering c - 1) 50000000 = true → s.reg Reg.fatal = 0 →
    exec (.clusterRecoveryTimeout c) s = .next (s.fatalError 6)) ∧
  (∀ unit, 1 ≤ unit → unit ≤ 17 → s.power.off = false → exec (.fatalError unit) s = .next (s.fatalError unit)) ∧
  (∀ core, core < 2 → s.fwRestarting 8 core = false →
    (s.relia.ctHung.contains core = false → s.domain (38 + core) = true → s.passed (Table.get 0 s.relia.ctBeat core) 10000 = true →
      exec (.ctHeartbeat core) s = .next { s with relia := { s.relia with ctBeat := Table.put 0 s.relia.ctBeat core s.time.ticks } }) ∧
    (s.serving = true → s.relia.ctHung.contains core = false → s.passed (Table.get 0 s.relia.ctBeat core) 50000 = true → s.liveCells = [] →
      exec (.ctHang core) s = .next ({ s with relia := { s.relia with ctHung := s.relia.ctHung.filter (fun x => x != core) ++ [core], ctCheck := Table.put 0 s.relia.ctCheck core 0 } }.logError
        { klass := 1, unit := 16, code := 7, cluster := 8, detail := core })) ∧
    (s.relia.ctHung.contains core = true → Table.has s.relia.ctCheck core = false → s.relia.ctHung.contains (1 - core) = false →
      exec (.ctSelfcheckPass core) s = .next { s with relia := { s.relia with
        ctCheck := Table.put 0 s.relia.ctCheck core (s.lnc + 1), ctRestarts := s.relia.ctRestarts.filter (fun x => x != core), ctBeat := Table.put 0 s.relia.ctBeat core s.time.ticks } })) ∧
  (∀ core, let x := Table.get 0 s.relia.ctCheck core
    s.relia.ctHung.contains core = true → x ≠ 0 → 50 * (x - 1) + 20000000 ≤ s.nowNs →
    exec (.ctHalfResume core) s = .next { s with relia := { s.relia with ctHung := s.relia.ctHung.filter (fun y => y != core), ctCheck := Table.put 0 s.relia.ctCheck core 0 } }) ∧
  (s.relia.ctHung.contains 0 = true → s.relia.ctHung.contains 1 = true → Table.has s.relia.ctCheck 0 = false → Table.has s.relia.ctCheck 1 = false →
    exec .ctDoubleHangRestart s = .next { s with relia := { s.relia with ctRestarts := [0, 1] } }) ∧
  (s.serving = true → (s.relia.healthAt = 0 ∨ s.passed (s.relia.healthAt - 1) 1000000000 = true) →
    let r := { s.relia with healthAt := s.time.ticks + 1, recent := s.relia.recent.filter (fun e => decide (s.time.ticks ≤ e.1 + 86400 * Config.ticksPerSecond)) }
    exec .healthUpdate s = .next (({ s with relia := r }.setReg Reg.healthScore s.healthOf).moveLevel s.healthOf)) ∧
  (s.serving = true → (s.relia.livenessAt = 0 ∨ s.passed (s.relia.livenessAt - 1) 1000000 = true) → s.relia.ctHung.length < 2 →
    exec .livenessTick s = .next ({ s with relia := { s.relia with livenessAt := s.time.ticks + 1 } }.bump Reg.liveness 1)) ∧
  (∀ c, s.relia.copy = some c → (c.written = c.length → let bs := (s.readLocal ((s.job c.job).bound - 1) (bits c.va 42 0) c.length).getD []
      exec (.copyDone true) s = .next (({ s with relia := { s.relia with copy := none } }.setReg Reg.copyStatus 2).setBlob Reg.copyDigest (Config.sha512 bs))) ∧
    exec (.copyDone false) s = .next (s.copyFault c.job)) ∧
  (∀ failed, s.reg Reg.selftestStatus = 1 → let bad := failed.filter (fun t => decide (t < 512))
    let u := bad.foldl (fun s t => (s.tileError t 1 1 11 0).retireTile t 1) s
    exec (.selftestDone failed) s = .next (u.setReg Reg.selftestStatus (if bad = [] then 2 else 3)))

/-- R456, R491, R492, R514, R545, R547 to R549, R554, R557, R564, R585: the input supply, resets and PCI Express. An input fault or a thermal trip turns everything
off; POWER_LOSS keeps what is persistent; a reset is asked for and taken at its instant; PERST_N low takes the link down. -/
def Obligations.ResetsAndSupply : Prop := ∀ (s : State),
  (∀ mv : Nat, s.power.off = false → s.power.inputOff = false →
    ((mv < 38000 ∨ 62000 < mv) → exec (.inputFault mv) s = .next (((({ s with power := { s.power with inputOff := true } }.setReg Reg.vin mv).logError
      { klass := 3, unit := 18, code := 8, cluster := 8, detail := mv }).allOff).setAlert 3 true)) ∧
    (38000 ≤ mv → mv ≤ 62000 → (mv < 40000 ∨ 60000 < mv) → exec (.inputFault mv) s = .next ((s.setReg Reg.vin mv).setAlert 3 true))) ∧
  (∀ mv : Nat, s.power.off = false → 40000 ≤ mv → mv ≤ 60000 → let u := (s.setReg Reg.vin mv).setAlert 3 false
    exec (.inputQualified mv) s = .next (if s.power.inputOff = false then u
      else if s.power.trip = true then { u with power := { u.power with inputOff := false } } else u.chipReset 3)) ∧
  (s.power.off = false → Does .powerLoss s (fun t => t.power.off = true ∧ t.dict.store = s.dict.store ∧ t.relia.plog = s.relia.plog ∧ t.sec.banks = s.sec.banks ∧
    t.tiles = [] ∧ t.tasks = [] ∧ t.mem = {} ∧ t.boot.link = false ∧ t.boot.perst = s.boot.perst ∧ t.pending = s.pending)) ∧
  (∀ mv : Nat, s.power.off = true → 40000 ≤ mv → mv ≤ 60000 → let u := (({ s with power := {} }.bump Reg.bootCount 1).setReg Reg.vin mv).rederive
    exec (.powerOnReset mv) s = .next (if s.power.trip = true then u.emit (.pin 1 true) else u)) ∧
  (s.power.off = false → s.power.trip = false →
    exec .thermalTrip s = .next ((({ s with power := { s.power with trip := true } }.emit (.pin 1 false)).logError { klass := 3, unit := 18, code := 10, cluster := 8 }).allOff)) ∧
  (s.mayReset = true → exec .resetNAssert s = .next (s.askReset 1)) ∧
  (s.boot.asked ≠ 0 → s.boot.instant ≤ s.lnc + 1 → exec .chipResetInstant s = .next (s.chipReset (s.boot.asked - 1))) ∧
  (s.boot.perst = true → exec .perstNDeassert s = .next { s with boot := { s.boot with perst := false, perstAt := s.time.ticks } }) ∧
  (s.boot.perst = false → let u := { s with boot := { s.boot with perst := true } }
    exec .perstNAssert s = .next (if s.boot.link = true then u.linkGone else u)) ∧
  (s.boot.link = false → s.boot.perst = false → s.domain 36 = true → 2 ≤ s.reg Reg.startupStage → s.reg Reg.startupStage ≤ 3 →
    s.passed s.boot.from' (if s.reg Reg.lastReset = 0 then 75000000 else 72000000) = true → exec .pcieLinkUp s = .next { s with boot := { s.boot with link := true } })

/-- R569 to R573: SPDM on a channel that stands, in the order of R571. VERSION, CAPABILITIES and ALGORITHMS move the exchange on, out of order they are
UnexpectedRequest; then digests, the chain, signatures and measurements answer; FINISH opens the session; other codes are UnsupportedRequest. -/
def Obligations.Attestation : Prop := ∀ (s : State) (ch : SpdmChannel), s.channelOpen ch = true →
  let x := s.spdmOf ch
  (∀ body, exec (.getVersion ch body) s = .next ((s.setSpdm ch { x with phase := 1 }).spdmSend ch 0x04 [0, 1, 0, 0x13])) ∧
  (∀ body, exec (.getCapabilities ch body) s = .next (if x.phase = 1 then ((s.setSpdm ch { x with phase := 2 }).spdmSend ch 0x61 (Config.freeBytes s.free 16)).fresh else s.spdmError ch 4)) ∧
  (∀ body, exec (.negotiateAlgorithms ch body) s = .next (if x.phase = 2 then ((s.setSpdm ch { x with phase := 3 }).spdmSend ch 0x63 (Config.freeBytes s.free 48)).fresh else s.spdmError ch 4)) ∧
  (x.phase = 3 →
    (∀ body, exec (.getDigests ch body) s = .next (s.spdmSend ch 0x01 (1 :: Config.sha512 s.certChain))) ∧
    (s.sec.deriving' = false →
      (∀ body, (body.getD 0 0).toNat % 16 = 0 → let offset := natOf ((body.drop 2).take 2)
        let part := (s.certChain.drop offset).take (natOf ((body.drop 4).take 2))
        exec (.getCertificate ch body) s = .next (if s.certChain.length ≤ offset then s.spdmError ch 1
          else s.spdmSend ch 0x02 (0 :: 0 :: (bytesOf 2 part.length ++ bytesOf 2 (s.certChain.length - offset - part.length) ++ part)))) ∧
      (∀ body, let b := Config.sha512 s.certChain ++ Config.freeBytes s.free 32
        exec (.challenge ch body) s = .next (s.spdmSend ch 0x03 (b ++ s.aliasSign (body ++ b))).fresh) ∧
      (∀ body m, s.measurements (s.spdmFunction ch) (body.getD 1 0).toNat = some m → let b := m ++ Config.freeBytes s.free 32
        exec (.getMeasurements ch body) s = .next (s.spdmSend ch 0x60 (if (body.getD 0 0).toNat % 2 = 1 then b ++ s.aliasSign (body ++ b) else m)).fresh) ∧
      (∀ body, let b := Config.freeBytes s.free 128
        exec (.keyExchange ch body) s = .next ((s.setSpdm ch { x with session := 1 }).spdmSend ch 0x64 (b ++ s.aliasSign (body ++ b))).fresh)) ∧
    (s.sec.deriving' = true → ∀ body, exec (.challenge ch body) s = .next { s with sec := { s.sec with held := s.sec.held ++ [(ch, 0x83, body)] } })) ∧
  (x.session = 1 → ∀ body, exec (.finish ch body) s = .next (if Config.spdmFinishOk s.free body = true then ((s.setSpdm ch { x with session := 2 }).spdmSend ch 0x65 []).fresh
    else ((s.setSpdm ch { x with session := 0 }).spdmError ch 6).fresh)) ∧
  (x.session = 2 → ∀ body, exec (.keyUpdate ch body) s = .next (s.spdmSend ch 0x69 (body.take 2)) ∧ exec (.spdmHeartbeat ch body) s = .next (s.spdmSend ch 0x68 []) ∧
    exec (.endSession ch body) s = .next ((s.setSpdm ch { x with session := 0 }).spdmSend ch 0x6C [])) ∧
  (∀ code body, code ∉ [0x84, 0xE1, 0xE3, 0x81, 0x82, 0x83, 0xE0, 0xE4, 0xE5, 0xE9, 0xE8, 0xEC] → exec (.spdmUnsupportedRequest ch code body) s = .next (s.spdmError ch 7))

/-- R85, R410 to R412, R415, R417 to R423: sync objects by descriptor. CREATE and PROXY make an object in its found state; SIGNAL acts at once, or after the
fence of the context; EVENT_RESET unsets an event; DESTROY drops an object nobody uses. Each refuses what its rule names, and another SYNC_OP than these
is SYNC_INVALID. (EVENT_RESET refuses an object of the other class as SIGNAL does: the model's choice, log 155.) -/
def Obligations.SyncObjects : Prop := ∀ (s : State) (f r : Nat) (d : Desc) (x : Slot64), s.admits f r d x [1, 2] → opcodeOf x = 0x08 →
  let u := s.takeDesc f r
  let b := syncBodyOf x
  let op := syncOpOf x
  (op = 0 ∨ 5 < op → (∀ row ∈ [Instr.create f r, Instr.destroy f r, Instr.signal f r, Instr.eventReset f r, Instr.proxy f r none], exec row s = .next (u.refuse d 35))) ∧
  (op = 1 → b.kind ≤ 2 → (b.kind = 1 → 1 ≤ b.value ∧ b.value ≤ 65535) → u.objectOf d.context b.vid = none →
    let o : SyncObj := { owner := d.context, vid := b.vid, kind := b.kind, klass := u.ctxClassOf d.context, hold := b.kind == 0 && b.hold
                         initial := if b.kind = 2 then 0 else b.value, value := if b.kind = 0 then b.value else 0 }
    exec (.create f r) s = .next (if u.objectRoom d.func = true then ((u.setObject u.freeObject o).syncCounts d.func).served d else u.refuse d 31)) ∧
  (u.objectOf d.context b.vid = none →
    (op = 2 → exec (.destroy f r) s = .next (u.refuse d 32)) ∧ (op = 3 → exec (.signal f r) s = .next (u.refuse d 32)) ∧
    (op = 4 → exec (.eventReset f r) s = .next (u.refuse d 32))) ∧
  (∀ i o, u.objectOf d.context b.vid = some (i, o) → let mine := u.otherClass o d.context d.klass = false
    (op = 1 → b.kind ≤ 2 → (b.kind = 1 → 1 ≤ b.value ∧ b.value ≤ 65535) → exec (.create f r) s = .next (u.refuse d 30)) ∧
    (op = 2 →
      (o.waiters ≠ [] ∨ (o.holders ≠ [] ∧ o.abandoned = false) → exec (.destroy f r) s = .next (u.refuse d 34)) ∧
      (o.waiters = [] → (o.holders = [] ∨ o.abandoned = true) →
        let n : Record := { rtype := 3, ctx := d.context, doneLnc := u.lnc % 4294967296, body := o.vid * 2 ^ 116 + o.kind * 2 ^ 114 }
        exec (.destroy f r) s = .next (((if o.abandoned = true ∨ o.found = true ∨ o.remoteJob ≠ 0 then u
          else (u.bump (Reg.sqDirtyCount d.func) 1).writeRecord d.func (u.recordRing d.func d.ring) n).dropObject i d.func).served d))) ∧
    (op = 3 → ¬mine → exec (.signal f r) s = .next (u.refuse d 3)) ∧
    (op = 3 → mine → (o.kind = 0 ↔ b.value ≠ 0) →
      (o.abandoned = true → exec (.signal f r) s = .next (u.refuse d 29)) ∧
      (o.abandoned = false → (b.fence = false ∨ u.outstanding d.context = []) → exec (.signal f r) s = .next ((u.signalObject i o d.context b.value).served d)) ∧
      (o.abandoned = false → b.fence = true → u.outstanding d.context ≠ [] → exec (.signal f r) s = .next (u.addTask
        { func := d.func, ctx := d.context, ring := d.ring, seq := d.seq, klass := d.klass, quiet := d.quiet, urgent := d.urgent, status := .ended
          signals := [{ op := 2, fence := true, vid := b.vid, count := b.value }] }))) ∧
    (op = 4 → mine → o.kind = 2 → o.remoteJob = 0 → o.abandoned = false → o.waiters = [] → o.holders = [] →
      exec (.eventReset f r) s = .next ((u.setObject i { o with value := 0 }).served d))) ∧
  (∀ id kind klass, let j := b.jobEntry
    op = 5 → u.objectOf d.context b.vid = none → u.jobState j = 2 → (u.job j).bound = d.context + 1 → b.remoteRank < u.regN (Reg.jobChips j) →
    (klass = d.klass → klass = u.ctxClassOf d.context → u.objectRoom d.func = true →
      let o : SyncObj := { owner := d.context, vid := b.vid, kind := kind, klass := klass, remoteJob := j + 1, homeNode := u.rankNode j b.remoteRank, homeId := id }
      exec (.proxy f r (some (id, kind, klass))) s = .next (((u.setObject u.freeObject o).syncCounts d.func).served d)) ∧
    exec (.proxy f r none) s = .next (u.refuse d 33))

/-- R425 to R427: stalemates. A part quiet for the window is declared, or its job's part reports to rank 0; rank 0 collects reports and answers, and gives up
after a rejection or a millisecond without every confirmation; a rank answers a query, halts and resumes. -/
def Obligations.Stalemates : Prop := ∀ (s : State) (part : Nat),
  let q := s.quietOf part
  (s.quiescent part = true → q.since ≠ 0 → s.passed (q.since - 1) (1000000 * s.regN Reg.stalemateWindow) = true → q.reported = false → q.declared = false →
    (64 ≤ part → exec (.stalemateWindowExpiry part) s = .next (s.declare part)) ∧
    (part < 64 → let u := s.setQuiet part { q with reported := true }
      exec (.stalemateWindowExpiry part) s = .next (if u.rankOf part = 0 then u.staleReported part 0 q.sent q.received
        else u.staleSend part 0 0x1C [u.rankOf part, q.sent, q.received]))) ∧
  (part < 64 →
    (s.jobState part = 2 →
      exec (.staleQuery part) s = .next ((s.staleQueried part).1.staleSend part 0 0x1D [if (s.staleQueried part).2 = true then 1 else 2, s.rankOf part]) ∧
      (s.rankOf part = 0 → ∀ rank,
        (∀ sent received, exec (.staleReport part rank sent received) s = .next (s.staleReported part rank sent received)) ∧
        (s.passed (q.queriedAt - 1) 1000001 = false → exec (.staleConfirm part rank) s = .next (s.staleConfirmed part rank)) ∧
        (q.queriedAt ≠ 0 → exec (.staleReject part rank) s = .next (s.staleGiveUp part)))) ∧
    (q.queriedAt ≠ 0 → s.passed (q.queriedAt - 1) 1000000 = true → q.declared = false → exec (.staleConfirmTimeout part) s = .next (s.staleGiveUp part)) ∧
    exec (.staleHalt part) s = .next (s.staleHalted part) ∧ exec (.staleResume part) s = .next (s.staleResumed part))

/-- R27, R28, R32, R38, R41, R43, R46, R47, R54, R56, R593: time. A tick advances everything that counts it; a source is lost after its limit; edges are
captured; each source updates by its offset; PTP messages go out by the port's role; time words and pulses go out when due. (That TT_ARM reads 0 after the
last pulse is the model's choice, log 138.) -/
def Obligations.TimeBase : Prop := ∀ (s : State),
  let source := s.regN Reg.timeSource
  (s.power.off = false → exec .keepingClockTick s = .next (s.partsInSight.foldl State.tickQuiet s.tickAll)) ∧
  (let silent := fun (ns : Nat) => s.passed s.time.lastUpdate ns = true;
    (source = 1 → (silent 187500000 ∨ (s.time.ptpMaster = true ∧ ∀ m ∈ s.time.announces, m.source + 1 = s.time.ptpChosen → s.passed m.heardAt 375000000 = true)) →
      exec .sourceLossTimeout s = .next s.ptpChoose.sourceGone) ∧
    (source = 2 ∧ silent 1100000000 ∨ source = 3 ∧ silent 3000000000 ∨ source = 4 ∧ s.time.lastUpdate + 4 * 4096 ≤ s.time.ticks →
      exec .sourceLossTimeout s = .next s.sourceGone)) ∧
  (∀ n rising, n < 4 → exec (.captureEdge n rising) s = .next (s.capture n rising)) ∧
  (exec (.ppsInEdge false) s = .next (s.capture 4 false)) ∧
  (let u := s.capture 4 true;
    let v : State := { u with time := { u.time with ppsTod := none } };
    (s.reg Reg.timeSource ≠ 2 → exec (.ppsInEdge true) s = .next v) ∧
    (s.reg Reg.timeSource = 2 →
      (∀ t, s.time.ppsTod = some t → exec (.ppsInEdge true) s = .next (v.sourceUpdate ((nsOfTime80 t : Int) - s.stampNs))) ∧
      (s.time.ppsTod = none → exec (.ppsInEdge true) s = .next (v.sourceUpdate (secondOffset s.stampStc.ns))))) ∧
  (s.reg Reg.timeSource = 3 → s.reg Reg.mgLink = 1 → ∀ m : PtpMsg,
    exec (.benchSyncRx m) s = .next (s.ptpHear 64 m) ∧
    (m.kind = 0 → m.twoStep = false → exec (.benchSyncRx m) s = .next (s.ptpUpdate m.timeNs s.stampNs))) ∧
  (∀ port kind m u, s.ptpMessage port kind = some (m, u) → port < 64 →
    (if s.reg Reg.timeSource = 1 ∧ s.regN Reg.ptpPort = port then kind = 3 else kind < 3) →
    (s.portUp port = true → exec (.ptpMessageTx port kind) s = .next (u.enqueue port 15 (ptpTx port m))) ∧
    (s.portUp port = false → 5 ≤ s.reg (Reg.linkMode port) → (Table.get {} s.fabric.links port).up = 2 → exec (.ptpMessageTx port kind) s = .next (u.ptpEmit port m))) ∧
  (∀ link, s.zflUp link = true →
    (∀ (peer : Nat) (echo : Option Int), let skew := (s.stampNs : Int) - peer
      let delay := match echo with | some e => (skew + e) / 2 | none => Table.get 0 s.time.linkDelay link
      let u : State := { s with time := { s.time with
        linkDelay := Table.put 0 s.time.linkDelay link delay, wordSkew := Table.insert s.time.wordSkew link skew
        wordReceived := Table.put 0 s.time.wordReceived link s.time.ticks } }
      exec (.timeWord link peer echo) s = .next (if s.reg Reg.timeSource = 4 ∧ s.regN Reg.zflUpstream = link then u.sourceUpdate (peer + delay - s.stampNs) else u)) ∧
    (Table.get 0 s.time.wordSent link + 4096 ≤ s.time.ticks →
      exec (.timeWordTx link) s = .next ({ s with time := { s.time with wordSent := Table.put 0 s.time.wordSent link s.time.ticks } }.emit
        (.timeWord link s.stampNs (Table.find? s.time.wordSkew link))))) ∧
  (∀ n, let p := Table.get 0 s.time.nextPulse n
    let period := s.regN (Reg.ttPeriod n)
    let count := s.regN (Reg.ttCount n)
    let done := s.regN (Reg.ttEmitted n) + 1
    let u := (s.emit (.pulse n (p - 1) (s.regN (Reg.ttWidth n)) (s.reg (Reg.ttPolarity n) == 1))).setReg (Reg.ttEmitted n) ((done % 4294967296 : Nat) : Int)
    s.reg (Reg.ttArm n) = 1 → p ≠ 0 → (p - 1 ≤ s.nowNs ∨ p - 1 ≤ s.stampNs) →
    (period ≠ 0 → (count = 0 ∨ done < count) →
      exec (.ttPulse n) s = .next { u with time := { u.time with nextPulse := Table.put 0 u.time.nextPulse n (p + period) } }) ∧
    (period = 0 ∨ (count ≠ 0 ∧ count ≤ done) →
      exec (.ttPulse n) s = .next ({ u with time := { u.time with nextPulse := Table.put 0 u.time.nextPulse n 0 } }.setReg (Reg.ttArm n) 0)))

/-- R28, R48, R57, R105, R429, R467, R469, R481, R484, R525, R544: reads of the dictionary, by any accessor whose request is accepted. A read answers the
bytes of its object from an offset, and its status where the object refuses it; each read row reads its own object; a due write takes effect,
unless the rule of its object refuses it by now (the model's choice, log entry 140). -/
def Obligations.DictionaryReads : Prop := ∀ (s : State) (a : Accessor),
  let reads := fun (i : Instr) (index sub offset : Nat) =>
    let c : Window := { op := 1, index := index, sub := sub, offset := offset }
    s.accepts a c →
    (∀ u f o, s.reach a index sub = .ok (u, f, o) → o.acc ≠ .wo →
      let whole := (s.takeObject a u sub f o false).2
      let rest := whole.drop offset
      let last := decide (rest.length ≤ roomOf a)
      exec i s = .next (s.answers a c ((s.takeObject a u sub f o last).1, { data := rest.take (roomOf a), total := if o.ty.isBytes = true then whole.length else 0, more := !last }))) ∧
    (∀ u f o, s.reach a index sub = .ok (u, f, o) → o.acc = .wo → exec i s = .next (s.answers a c (s, { status := Status.writeOnly }))) ∧
    (∀ e, s.reach a index sub = .error e → exec i s = .next (s.answers a c (s, { status := e })))
  (∀ index sub offset, reads (.dictRead a index sub offset) index sub offset) ∧
  reads (.stcNowRead a) 0x2000 0 0 ∧
  (∀ n, n < 5 → reads (.tcPopRead a n) (0x2110 + n) 2 0) ∧
  (∀ f, f ≤ 512 → (∀ n, a ≠ .vf n) → reads (.snapRead a f) (0xA000 + f) 0xB 0) ∧
  (∀ f, a = .vf f → reads (.snapRead a f) 0xB300 0xB 0) ∧
  (∀ offset, reads (.stalemateRecordRead a offset) 0x4900 3 offset) ∧
  reads (.logPopRead a) 0x8100 1 0 ∧
  reads (.notifyPopRead a) 0x1020 1 0 ∧
  (∀ index sub last, s.accepts a { op := 3, index := index, sub := sub, subLast := last } → exec (.readBlock a index sub last) s = .next (s.answers a { op := 3, index := index, sub := sub, subLast := last } (s.readBlock a index sub last))) ∧
  (∀ copy ps, copy < 9 → (ps < -2000 ∨ 2000 < ps) → exec (.stcCopyReload copy ps) s = .next
    ({ s with time := { s.time with copies := Table.put 0 s.time.copies copy 0 } }.logError { klass := 0, unit := 11, code := 9, cluster := copy, detail := unsigned 64 ps })) ∧
  (∀ k p, s.dueWrite = some p → p.key = k →
    let rest : State := { s with dict := { s.dict with writes := s.dict.writes.erase p } }
    (rest.staleWrite p = none → exec (.pendingWriteApply k) s = .next (rest.applyWrite p)) ∧
    (∀ t, rest.staleWrite p = some t → exec (.pendingWriteApply k) s = .next t))

/-- R23, R467, R469, R470: writes of one object, by any accessor whose request is accepted. A write that passes the checks and commits is answered OK and
its plan is enacted; one that a check or the commit refuses is answered with that status. Each row below writes its own object. -/
def Obligations.DictionaryWrites : Prop := ∀ (s : State) (w : Wr),
  let writes := fun (i : Instr) (index sub : Nat) (info : WInfo) =>
    let c := wrControl w index sub
    s.accepts w.acc c →
    (∀ p u, s.checkWrite w.acc index sub w.data w.lnc info [] = .ok p → s.commitPlans [p] w.commitOk = (Status.ok, u) →
      exec i s = .next (s.answers w.acc c (u.enact (Accessor.holder w.acc) info p, {}))) ∧
    (∀ p e u, s.checkWrite w.acc index sub w.data w.lnc info [] = .ok p → s.commitPlans [p] w.commitOk = (e, u) → e ≠ Status.ok →
      exec i s = .next (s.answers w.acc c (u, { status := e }))) ∧
    (∀ e u, s.checkWrite w.acc index sub w.data w.lnc info [] = .error (e, u) → exec i s = .next (s.answers w.acc c (u, { status := e })))
  writes (.incrementWrite w) 0x2003 0 {} ∧ writes (.timeSourceWrite w) 0x2002 0 {} ∧ writes (.stepRequest w) 0x2003 4 {} ∧ writes (.ppsTodWrite w) 0x2006 0 {} ∧
  writes (.determinismModeWrite w) 0x4010 0 {} ∧ writes (.laneGroupsWrite w) 0x6040 0 {} ∧ writes (.readmit w) 0x7301 1 {} ∧
  writes (.functionEnableWrite w) 0xB000 1 {} ∧ writes (.mgModeWrite w) 0x1001 0 {} ∧ writes (.mgIpv4Write w) 0x1001 2 {} ∧ writes (.shareOrderWrite w) 0x3001 0 {} ∧
  writes (.radioFloorWrite w) 0x3000 2 {} ∧ writes (.forceLowestWrite w) 0x3000 6 {} ∧ writes (.copyStart w) 0x8200 4 {} ∧ writes (.selftest w) 0x8300 0 {} ∧
  writes (.chipReset w) 0x8500 1 {} ∧ writes (.clusterReset w) 0x8500 2 {} ∧ writes (.partitionReset w) 0x8500 3 {} ∧ writes (.tileReset w) 0x8500 4 {} ∧
  writes (.rollbackAdvance w) 0x9002 0 {} ∧
  (∀ n,
    (n < 8 → writes (.ttArmWrite w n) (0x2100 + n) 4 {}) ∧ (n < 64 → writes (.resizeTilesWrite w n) (0x4100 + n) 4 {}) ∧ (n < 64 → writes (.resizeLncWrite w n) (0x4100 + n) 5 {}) ∧
    (n < 513 → writes (.snapRequest w n) (accountIndex w.acc n) 0xA {}) ∧ (n < 64 → writes (.portModeWrite w n) (0x6000 + n) 0 {}) ∧
    (∀ q, n < 64 → 8 ≤ q → q ≤ 12 → writes (.idleSlopeWrite w n q) (0x6000 + n) q {}) ∧ (n < 1024 → writes (.telemetryClear w n) (0x6400 + n) 0x24 {}) ∧
    (n < 256 → writes (.hostFlowWrite w n) (0x6200 + n) 0 {}) ∧ (n < 64 → writes (.cacheWaysWrite w n) (0x4100 + n) 0xB {}) ∧ (n < 16 → writes (.retrainLncWrite w n) (0x7010 + n) 3 {}) ∧
    (n < 64 → writes (.linkModeWrite w n) (0x7320 + n) 0 {}) ∧ (n < 64 → writes (.jobApplyLncWrite w n) (0x7400 + n) 6 {}) ∧ (n < 64 → writes (.teardown w n) (0x7400 + n) 8 {}) ∧
    (n < 64 → writes (.ncroDrop w n) (0x7400 + n) 0xB {}) ∧ (n < 16 → writes (.ctxEnable w n) (0xB200 + n) 0 {}) ∧
    (∀ sub, n < 16 → sub < 2 → writes (.peerKeyWrite w n sub) (0x9100 + n) sub {}) ∧ (n < 20 → writes (.railClear w n) (0x3100 + n) 3 {}) ∧
    (n < 9 → writes (.fwSwitchLncWrite w n) (0x8410 + n) 0 {})) ∧
  (∀ c e, c < 256 → writes (.holdSourceWrite w c e) (0x5400 + c) 0x14 { encoded := e }) ∧
  writes (.fwImageWrite w) 0x8400 0 {}

/-- R297, R321, R467, R484, R567, R568, R574, R575: commands that are written, by any accessor whose request is accepted. A cell's command writes its number to
CELL_COMMAND, an owner's command of its OP or a debug token its object; REGISTER_WRITE, a DICT_WRITE of one segment and a block write what they carry. A
segment that others follow is kept, and the last one writes the whole. -/
def Obligations.CommandWrites : Prop := ∀ (s : State) (w : Wr),
  let whole := fun (i : Instr) (w : Wr) (index sub : Nat) (info : WInfo) (after : State → State) =>
    let c := wrControl w index sub
    s.accepts w.acc c →
    (∀ p u, s.checkWrite w.acc index sub w.data w.lnc info [] = .ok p → s.commitPlans [p] w.commitOk = (Status.ok, u) →
      exec i s = .next (after (s.answers w.acc c (u.enact (Accessor.holder w.acc) info p, {})))) ∧
    (∀ e u, s.checkWrite w.acc index sub w.data w.lnc info [] = .error (e, u) → exec i s = .next (after (s.answers w.acc c (u, { status := e }))))
  let cell := fun (i : Instr) (c cmd : Nat) (peer : Bool) => c < 256 → whole i { w with data := .num 1 cmd } (0x5400 + c) 0x10 { peerMatches := peer } id
  let owner := fun (i : Instr) (op : Nat) => (ownerOf (dataBytes w.data)).op = op → whole i w 0x9020 0 {} id
  (∀ c peer, cell (.start w c) c 1 false ∧ cell (.stop w c) c 2 false ∧ cell (.hold w c) c 3 false ∧ cell (.resume w c) c 4 false ∧ cell (.reset w c) c 5 false ∧
    cell (.move w c peer) c 6 peer ∧ cell (.abortMove w c) c 7 false) ∧
  owner (.install w) 1 ∧ owner (.remove w) 2 ∧ owner (.setOwnerSign w) 3 ∧ owner (.release w) 4 ∧
  whole (.debugUnlock w) w 0x9030 0 {} id ∧
  (∀ index sub, whole (.registerWrite w index sub) w index sub (s.factsOf w.acc index sub) State.fresh ∧
    ((assoc s.dict.stages (Accessor.holder w.acc) = none ∨ ∃ size v, w.data = .num size v) → whole (.dictWrite w index sub 0 false) w index sub (s.factsOf w.acc index sub) State.fresh) ∧
    (∀ bs st offset more, w.data = .bytes bs → assoc s.dict.stages (Accessor.holder w.acc) = st →
      let c : Window := { wrControl w index sub with flags := (if w.lnc.isSome then 4 else 0) + (if more then 2 else 0), offset := offset }
      s.accepts w.acc c →
      let before := match st with | some x => x.bytes | none => []
      let kept := match st with | some x => x.key = key index sub | none => True
      (kept → offset = before.length → more = true →
        exec (.dictWrite w index sub offset more) s = .next (s.answers w.acc c (s.setStage (Accessor.holder w.acc)
          (some { key := key index sub, bytes := before ++ bs, last := s.time.ticks }), {})).fresh) ∧
      (st ≠ none → kept → offset = before.length → more = false →
        let u := s.setStage (Accessor.holder w.acc) none
        let r := u.writeObject w.acc index sub (.bytes (before ++ bs)) w.lnc w.commitOk (u.factsOf w.acc index sub)
        exec (.dictWrite w index sub offset more) s = .next (s.answers w.acc c (r.2, { status := r.1 })).fresh))) ∧
  (∀ index data, let c : Window := { op := 4, flags := if w.lnc.isSome then 4 else 0, index := index, lnc := w.lnc.getD 0, length := data.length, buffer := data.take 3840 }
    s.accepts w.acc c →
    (∀ items, itemsOf data.length data = some items → exec (.writeBlock w.acc index data w.lnc w.commitOk) s = .next
      (s.answers w.acc c (s.writeBlock w.acc index items w.lnc w.commitOk (s.factsOf w.acc index))).fresh) ∧
    (itemsOf data.length data = none → exec (.writeBlock w.acc index data w.lnc w.commitOk) s = .next (s.answers w.acc c (s, { status := Status.typeMismatch })).fresh))

/-- R132: unpacking a BFP block of a legal width: each mantissa m, packed most significant bit first, becomes the CI16 code m × 2^(16 − w), the exponent
is x − (16 − w), the block represents the values of the wire block, and the reserved bits of the compression byte are ignored. -/
def Obligations.BfpUnpacking : Prop := ∀ (w : Nat) (head : Byte) (body : List Byte), w ∈ [8, 9, 12, 14, 16] → body.length = 3 * w →
  let x := head.toNat % 16
  let wire := body.foldl (fun n b => n * 256 + b.toNat) 0
  let m := fun (i : Nat) => signed w (wire / 2 ^ (24 * w - w * (i + 1)))
  let u := bfpUnpack w (head :: body)
  u.1.length = 24 ∧ u.2 = (x : Int) - (16 - w) ∧
  (∀ i, i < 24 → u.1[i]? = some (m i * 2 ^ (16 - w)) ∧ -32768 ≤ m i * 2 ^ (16 - w) ∧ m i * 2 ^ (16 - w) ≤ 32767 ∧
    ((m i * 2 ^ (16 - w) : Int) : ℚ) * (2 : ℚ) ^ u.2 = (m i : ℚ) * 2 ^ x) ∧
  (∀ other : Byte, other.toNat % 16 = x → bfpUnpack w (other :: body) = u)

/-- R175: a wake that the launch unit starts on a tile whose entry into T2, T3 or T4 is under way begins when the entry completes and takes the full wake
time of the state: until then nothing completes it, and from then on its completion leaves the tile at T1, out of T4 with its SRAM zero. -/
def Obligations.WakeDuringEntry : Prop := ∀ (s : State) (n p depth full : Nat), (depth, full) ∈ [(2, 400), (3, 12000), (4, 20000)] →
  let t := s.tile p
  let wakes := t.asleepAt + ceilDiv (5 * full) 32
  let waking := { t with wakeAt := wakes + 1 }
  t.sleep = depth → t.wakeAt = 0 → s.time.ticks < t.asleepAt → s.pllOn (clusterOf p) = true → Table.get 0 s.plls (clusterOf p) ≤ s.time.ticks →
  s.hasTask n = true → (s.task n).status = .registered → s.taskTiles (s.task n) = [p] → (s.task n).target ≤ s.lnc + s.wakeLead [p] →
  exec (.wakeLeadStart n) s = .next (s.setTile p waking) ∧
  (∀ u : State, u.tile p = waking →
    (u.time.ticks < wakes → exec (.tileWakeComplete p) u = .next u) ∧
    (wakes ≤ u.time.ticks → exec (.tileWakeComplete p) u = .next (u.setTile p { t with
      sleep := 1, wakeAt := 0, asleepAt := 0, mem := if depth = 4 then [] else t.mem, poison := if depth = 4 then [] else t.poison })))

/-- R176: a tile that entered T4 reads zero in every word, valid, when its wake completes; one that entered T3 reads as it did; no kind of patrol scrub acts
on a tile in T3, and after the wake a scrub acts again. -/
def Obligations.SramAcrossSleep : Prop := ∀ (s : State) (n depth : Nat),
  let t := s.tile n
  t.sleep < depth → t.task = 0 → t.switching = 0 → t.wakeAt = 0 → n < 512 → t.live = {} → s.nextAny n = none → s.isRadio n = false → (depth = 4 → t.pages = []) →
  (depth = 3 ∨ depth = 4) →
  ∃ asleep : Tile, exec (.tileSleepEntry n depth) s = .next (s.setTile n asleep) ∧ asleep.sleep = depth ∧
    (∀ (a : State) (word kind : Nat), (a.tile n).sleep = 3 → exec (.patrolScrub false n word kind) a = .next a) ∧
    (∀ (u : State) (at' : Nat), u.tile n = { asleep with wakeAt := at' + 1 } → at' ≤ u.time.ticks →
      ∃ awake : Tile, exec (.tileWakeComplete n) u = .next (u.setTile n awake) ∧ awake.sleep = 1 ∧
        (depth = 4 → (∀ addr, awake.byte addr = 0) ∧ awake.poison = []) ∧
        (depth = 3 → (∀ addr, awake.byte addr = t.byte addr) ∧ awake.poison = t.poison) ∧
        (∀ (b : State) (word : Nat), b.tile n = awake → word < 8388608 → exec (.patrolScrub false n word 2) b = .next (b.retireTile n 1)))

/-- A step takes the command at the front of the queue and is that command's effect on the state with the rest of the queue; on an empty queue the block
idles (the model's choice, log entry 65). -/
def Obligations.StepRunsTheFront : Prop := ∀ (c : Instr) (rest : List Instr) (s : State),
  step { s with pending := c :: rest } = exec c { s with pending := rest } ∧ step { s with pending := [] } = .next { s with pending := [] }

/-- What reset leaves: an empty queue, every number object at the default of its table, GDDR7 and every tile's SRAM reading zero (log entry 3 names what the
spec gives no value for), the tables in canonical form, no PCI Express link, and no virtual function. -/
def Obligations.ResetState : Prop :=
  State.reset.pending = [] ∧ (∀ k, State.reset.reg k = regDefault k) ∧ (∀ n addr, (State.reset.tile n).byte addr = 0) ∧ State.reset.mem.gddr = [] ∧
  State.reset.regsOk ∧ State.reset.gddrOk ∧ State.reset.timeOk ∧ State.reset.linkOk ∧ State.reset.boot.link = false ∧
  State.reset.reg Reg.powerCap = 1600 ∧ State.reset.reg Reg.timeSource = 1 ∧ State.reset.reg Reg.determinismMode = 0 ∧ State.reset.reg Reg.throttleTemp = 102 ∧
  State.reset.reg Reg.increment = 27487790694 ∧ State.reset.reg Reg.hbPeriod = 10000

/-- R455, R545, R585: every step keeps the invariant of the PCI Express link: PERST_N low keeps the link down, and without a link VF Enable is clear. -/
def Obligations.LinkInvariant : Prop := ∀ (s t : State), s.linkOk → step s = .next t → t.linkOk
end

