-- ==== Sys2Proof/Laws/Access.lean ====
section
/-! SUPPORT. What an access does: a request that is accepted is run, and its reply goes to who asked. -/

namespace Sys2Proof.Machine

theorem windowAccess_ok (s : State) (f : Nat) (w : Window) (run : State → State × Reply)
    (hs : s.serving = true) (hl : s.boot.link = true) (hf : s.functionExists f = true) :
    s.windowAccess f w run = s.answers (.vf f) w (run s) := by
  simp only [State.windowAccess, hs, hl, hf]; rfl

theorem access_ok (s : State) (a : Accessor) (w : Window) (early : Bool) (run : State → State × Reply) (h : s.accepts a w) :
    s.access a w early run = s.answers a w (run s) := by
  obtain ⟨hs, h⟩ := h
  cases a with
  | pf0 => exact windowAccess_ok s 0 w run hs h.1 h.2
  | vf n => exact windowAccess_ok s n w run hs h.1 h.2
  | hdp q =>
    obtain ⟨hm, hq, hl, hn, x, hx, ht, ha, h1, h2⟩ := h
    simp only [State.access, State.hdpAccess, State.answers]
    rw [hm, hq, hl, hn, hx]
    simp only [hs, Bool.not_true, Bool.false_eq_true, and_false, if_false, ht, ne_eq, not_true_eq_false, ha, h2, or_false,
      Nat.not_lt.mpr h1, Bool.true_or, if_true]

end Sys2Proof.Machine
end

