-- ==== Sys2Proof/Laws/Nodes.lean ====
section
/-! SUPPORT. What a node of an invocation does where nothing stops it (R205, R217). -/

namespace Sys2Proof.Machine

/-- A pass node leaves what its run leaves, when the node is ready, has not run there and R217 accepts its descriptor. -/
theorem passNode_ok (s : State) (i node family vt p b : Nat) (bs : List Byte) (run : PassDesc → Tile → Tile × Bool × Bool) (d : PassDesc) (t : Tile)
    (hr : s.nodeReady i node family = true) (hn : (s.inv i).ran.contains (node, vt) = false) (ho : passOn (s.node_ i node) vt = some bs)
    (ha : s.areaAt i vt = some (p, b)) (hd : (passDesc (family == 2) bs).shifted b = d) (ht : d.feed (s.tile p) (s.nodeWaves i node) = t)
    (h1 : d.invalid (if d.mv then t.live.mvAcc else t.live.acc) = false) (h2 : familyShape family d = true) (h3 : d.owned t t.ctx = true)
    (h4 : d.streamed t = true) (h5 : d.poisoned t = false) :
    s.passNode i node family vt run = (((s.begin_ i node).setTile p (if d.mv then (run d t).1 else { (run d t).1 with lastActive := s.time.ticks + 1 })).nodeFlags i
      (run d t).2.1 (run d t).2.2).ranOn i node vt := by
  subst hd ht
  simp only [State.passNode, hr, hn, ho, ha, h1, h2, h3, h4, h5, Bool.not_true, Bool.or_self, Bool.false_eq_true, if_false]

/-- A node that maps rows writes the codes of its results. -/
theorem rowNode_ok (s : State) (i node : Nat) (x y : Tensor) (row : Nat) (f : List Nat → List Res) (px bx py b : Nat) (hx : s.areaAt i x.tile = some (px, bx))
    (hy : s.areaAt i y.tile = some (py, b)) (hr : row ≠ 0) (h1 : inSram (x.addr + bx) (4 * x.count) = true) (h2 : inSram (y.addr + b) (4 * x.count) = true)
    (h3 : (s.tile px).poisoned (x.addr + bx) (4 * x.count) = false) :
    let rs := (List.range (x.count / row)).flatMap (fun r => f ((s.tile px).codes (x.addr + bx + 4 * r * row) row))
    s.rowNode i node x y row f = ((s.begin_ i node).updTile py (fun t => t.putCodes (y.addr + b) (rs.map (fun r => r.code)))).nodeFlags i
      (anyInvalid rs) (anySaturated rs) := by
  simp [State.rowNode, hx, hy, h1, h2, h3, hr]

/-- A NONLINEAR node of the function asked for runs as a map of rows of one. -/
theorem nonlinear_ok (s : State) (i node fn : Nat) (f : Nat → Res) (x y g b : Tensor) (row : Nat) (eps : Word32) (ho : (s.node_ i node).op = .rows x y g b row eps)
    (hn : s.nodeFresh i node 0x08 = true) (hf : (s.node_ i node).function = fn) : s.nonlinear i node fn f = s.rowNode i node x y 1 (fun l => l.map f) := by
  simp [State.nonlinear, ho, hn, hf, State.when]

/-- A row function of the kind asked for runs with its gain, bias and eps. -/
theorem normNode_ok (s : State) (i node fn : Nat) (f : List Nat → List Nat → Nat → List Nat → List Res) (x y g b : Tensor) (row : Nat) (eps : Word32)
    (ho : (s.node_ i node).op = .rows x y g b row eps) (hn : s.nodeFresh i node 0x09 = true) (hf : (s.node_ i node).function = fn) :
    s.normNode i node fn f = s.rowNode i node x y row (f (s.constRow i g row) (s.constRow i b row) eps.toNat) := by
  simp [State.normNode, ho, hn, hf, State.when]

end Sys2Proof.Machine
end

