-- ==== Sys2Proof/Laws/State.lean ====
section
/-! SUPPORT. What each named update of State leaves alone: one lemma per field. -/

namespace Sys2Proof.Machine

@[simp] theorem State.when_true (s t : State) : s.when true t = t := rfl
@[simp] theorem State.when_false (s t : State) : s.when false t = s := rfl

@[simp] theorem State.setReg_pending (s : State) (k : Nat) (v : Int) : (s.setReg k v).pending = s.pending := rfl
@[simp] theorem State.setReg_out (s : State) (k : Nat) (v : Int) : (s.setReg k v).out = s.out := rfl
@[simp] theorem State.setReg_free (s : State) (k : Nat) (v : Int) : (s.setReg k v).free = s.free := rfl
@[simp] theorem State.setReg_time (s : State) (k : Nat) (v : Int) : (s.setReg k v).time = s.time := rfl
@[simp] theorem State.setReg_tiles (s : State) (k : Nat) (v : Int) : (s.setReg k v).tiles = s.tiles := rfl
@[simp] theorem State.setReg_tasks (s : State) (k : Nat) (v : Int) : (s.setReg k v).tasks = s.tasks := rfl
@[simp] theorem State.setReg_nextTask (s : State) (k : Nat) (v : Int) : (s.setReg k v).nextTask = s.nextTask := rfl
@[simp] theorem State.setReg_parts (s : State) (k : Nat) (v : Int) : (s.setReg k v).parts = s.parts := rfl
@[simp] theorem State.setReg_booked (s : State) (k : Nat) (v : Int) : (s.setReg k v).booked = s.booked := rfl
@[simp] theorem State.setReg_admitted (s : State) (k : Nat) (v : Int) : (s.setReg k v).admitted = s.admitted := rfl
@[simp] theorem State.setReg_plls (s : State) (k : Nat) (v : Int) : (s.setReg k v).plls = s.plls := rfl
@[simp] theorem State.setReg_mem (s : State) (k : Nat) (v : Int) : (s.setReg k v).mem = s.mem := rfl
@[simp] theorem State.setReg_fabric (s : State) (k : Nat) (v : Int) : (s.setReg k v).fabric = s.fabric := rfl
@[simp] theorem State.setReg_sync (s : State) (k : Nat) (v : Int) : (s.setReg k v).sync = s.sync := rfl
@[simp] theorem State.setReg_rings (s : State) (k : Nat) (v : Int) : (s.setReg k v).rings = s.rings := rfl
@[simp] theorem State.setReg_funcs (s : State) (k : Nat) (v : Int) : (s.setReg k v).funcs = s.funcs := rfl
@[simp] theorem State.setReg_kernels (s : State) (k : Nat) (v : Int) : (s.setReg k v).kernels = s.kernels := rfl
@[simp] theorem State.setReg_models (s : State) (k : Nat) (v : Int) : (s.setReg k v).models = s.models := rfl
@[simp] theorem State.setReg_radio (s : State) (k : Nat) (v : Int) : (s.setReg k v).radio = s.radio := rfl
@[simp] theorem State.setReg_ports (s : State) (k : Nat) (v : Int) : (s.setReg k v).ports = s.ports := rfl
@[simp] theorem State.setReg_power (s : State) (k : Nat) (v : Int) : (s.setReg k v).power = s.power := rfl
@[simp] theorem State.setReg_relia (s : State) (k : Nat) (v : Int) : (s.setReg k v).relia = s.relia := rfl
@[simp] theorem State.setReg_boot (s : State) (k : Nat) (v : Int) : (s.setReg k v).boot = s.boot := rfl
@[simp] theorem State.setReg_sec (s : State) (k : Nat) (v : Int) : (s.setReg k v).sec = s.sec := rfl

@[simp] theorem State.setBlob_pending (s : State) (k : Nat) (v : List Byte) : (s.setBlob k v).pending = s.pending := rfl
@[simp] theorem State.setBlob_out (s : State) (k : Nat) (v : List Byte) : (s.setBlob k v).out = s.out := rfl
@[simp] theorem State.setBlob_free (s : State) (k : Nat) (v : List Byte) : (s.setBlob k v).free = s.free := rfl
@[simp] theorem State.setBlob_time (s : State) (k : Nat) (v : List Byte) : (s.setBlob k v).time = s.time := rfl
@[simp] theorem State.setBlob_tiles (s : State) (k : Nat) (v : List Byte) : (s.setBlob k v).tiles = s.tiles := rfl
@[simp] theorem State.setBlob_tasks (s : State) (k : Nat) (v : List Byte) : (s.setBlob k v).tasks = s.tasks := rfl
@[simp] theorem State.setBlob_nextTask (s : State) (k : Nat) (v : List Byte) : (s.setBlob k v).nextTask = s.nextTask := rfl
@[simp] theorem State.setBlob_parts (s : State) (k : Nat) (v : List Byte) : (s.setBlob k v).parts = s.parts := rfl
@[simp] theorem State.setBlob_booked (s : State) (k : Nat) (v : List Byte) : (s.setBlob k v).booked = s.booked := rfl
@[simp] theorem State.setBlob_admitted (s : State) (k : Nat) (v : List Byte) : (s.setBlob k v).admitted = s.admitted := rfl
@[simp] theorem State.setBlob_plls (s : State) (k : Nat) (v : List Byte) : (s.setBlob k v).plls = s.plls := rfl
@[simp] theorem State.setBlob_mem (s : State) (k : Nat) (v : List Byte) : (s.setBlob k v).mem = s.mem := rfl
@[simp] theorem State.setBlob_fabric (s : State) (k : Nat) (v : List Byte) : (s.setBlob k v).fabric = s.fabric := rfl
@[simp] theorem State.setBlob_sync (s : State) (k : Nat) (v : List Byte) : (s.setBlob k v).sync = s.sync := rfl
@[simp] theorem State.setBlob_rings (s : State) (k : Nat) (v : List Byte) : (s.setBlob k v).rings = s.rings := rfl
@[simp] theorem State.setBlob_funcs (s : State) (k : Nat) (v : List Byte) : (s.setBlob k v).funcs = s.funcs := rfl
@[simp] theorem State.setBlob_kernels (s : State) (k : Nat) (v : List Byte) : (s.setBlob k v).kernels = s.kernels := rfl
@[simp] theorem State.setBlob_models (s : State) (k : Nat) (v : List Byte) : (s.setBlob k v).models = s.models := rfl
@[simp] theorem State.setBlob_radio (s : State) (k : Nat) (v : List Byte) : (s.setBlob k v).radio = s.radio := rfl
@[simp] theorem State.setBlob_ports (s : State) (k : Nat) (v : List Byte) : (s.setBlob k v).ports = s.ports := rfl
@[simp] theorem State.setBlob_power (s : State) (k : Nat) (v : List Byte) : (s.setBlob k v).power = s.power := rfl
@[simp] theorem State.setBlob_relia (s : State) (k : Nat) (v : List Byte) : (s.setBlob k v).relia = s.relia := rfl
@[simp] theorem State.setBlob_boot (s : State) (k : Nat) (v : List Byte) : (s.setBlob k v).boot = s.boot := rfl
@[simp] theorem State.setBlob_sec (s : State) (k : Nat) (v : List Byte) : (s.setBlob k v).sec = s.sec := rfl

@[simp] theorem State.bump_pending (s : State) (k n : Nat) : (s.bump k n).pending = s.pending := rfl
@[simp] theorem State.bump_out (s : State) (k n : Nat) : (s.bump k n).out = s.out := rfl
@[simp] theorem State.bump_free (s : State) (k n : Nat) : (s.bump k n).free = s.free := rfl
@[simp] theorem State.bump_time (s : State) (k n : Nat) : (s.bump k n).time = s.time := rfl
@[simp] theorem State.bump_tiles (s : State) (k n : Nat) : (s.bump k n).tiles = s.tiles := rfl
@[simp] theorem State.bump_tasks (s : State) (k n : Nat) : (s.bump k n).tasks = s.tasks := rfl
@[simp] theorem State.bump_nextTask (s : State) (k n : Nat) : (s.bump k n).nextTask = s.nextTask := rfl
@[simp] theorem State.bump_parts (s : State) (k n : Nat) : (s.bump k n).parts = s.parts := rfl
@[simp] theorem State.bump_booked (s : State) (k n : Nat) : (s.bump k n).booked = s.booked := rfl
@[simp] theorem State.bump_admitted (s : State) (k n : Nat) : (s.bump k n).admitted = s.admitted := rfl
@[simp] theorem State.bump_plls (s : State) (k n : Nat) : (s.bump k n).plls = s.plls := rfl
@[simp] theorem State.bump_mem (s : State) (k n : Nat) : (s.bump k n).mem = s.mem := rfl
@[simp] theorem State.bump_fabric (s : State) (k n : Nat) : (s.bump k n).fabric = s.fabric := rfl
@[simp] theorem State.bump_sync (s : State) (k n : Nat) : (s.bump k n).sync = s.sync := rfl
@[simp] theorem State.bump_rings (s : State) (k n : Nat) : (s.bump k n).rings = s.rings := rfl
@[simp] theorem State.bump_funcs (s : State) (k n : Nat) : (s.bump k n).funcs = s.funcs := rfl
@[simp] theorem State.bump_kernels (s : State) (k n : Nat) : (s.bump k n).kernels = s.kernels := rfl
@[simp] theorem State.bump_models (s : State) (k n : Nat) : (s.bump k n).models = s.models := rfl
@[simp] theorem State.bump_radio (s : State) (k n : Nat) : (s.bump k n).radio = s.radio := rfl
@[simp] theorem State.bump_ports (s : State) (k n : Nat) : (s.bump k n).ports = s.ports := rfl
@[simp] theorem State.bump_power (s : State) (k n : Nat) : (s.bump k n).power = s.power := rfl
@[simp] theorem State.bump_relia (s : State) (k n : Nat) : (s.bump k n).relia = s.relia := rfl
@[simp] theorem State.bump_boot (s : State) (k n : Nat) : (s.bump k n).boot = s.boot := rfl
@[simp] theorem State.bump_sec (s : State) (k n : Nat) : (s.bump k n).sec = s.sec := rfl

@[simp] theorem State.emit_pending (s : State) (e : Emit) : (s.emit e).pending = s.pending := rfl
@[simp] theorem State.emit_free (s : State) (e : Emit) : (s.emit e).free = s.free := rfl
@[simp] theorem State.emit_time (s : State) (e : Emit) : (s.emit e).time = s.time := rfl
@[simp] theorem State.emit_dict (s : State) (e : Emit) : (s.emit e).dict = s.dict := rfl
@[simp] theorem State.emit_tiles (s : State) (e : Emit) : (s.emit e).tiles = s.tiles := rfl
@[simp] theorem State.emit_tasks (s : State) (e : Emit) : (s.emit e).tasks = s.tasks := rfl
@[simp] theorem State.emit_nextTask (s : State) (e : Emit) : (s.emit e).nextTask = s.nextTask := rfl
@[simp] theorem State.emit_parts (s : State) (e : Emit) : (s.emit e).parts = s.parts := rfl
@[simp] theorem State.emit_booked (s : State) (e : Emit) : (s.emit e).booked = s.booked := rfl
@[simp] theorem State.emit_admitted (s : State) (e : Emit) : (s.emit e).admitted = s.admitted := rfl
@[simp] theorem State.emit_plls (s : State) (e : Emit) : (s.emit e).plls = s.plls := rfl
@[simp] theorem State.emit_mem (s : State) (e : Emit) : (s.emit e).mem = s.mem := rfl
@[simp] theorem State.emit_fabric (s : State) (e : Emit) : (s.emit e).fabric = s.fabric := rfl
@[simp] theorem State.emit_sync (s : State) (e : Emit) : (s.emit e).sync = s.sync := rfl
@[simp] theorem State.emit_rings (s : State) (e : Emit) : (s.emit e).rings = s.rings := rfl
@[simp] theorem State.emit_funcs (s : State) (e : Emit) : (s.emit e).funcs = s.funcs := rfl
@[simp] theorem State.emit_kernels (s : State) (e : Emit) : (s.emit e).kernels = s.kernels := rfl
@[simp] theorem State.emit_models (s : State) (e : Emit) : (s.emit e).models = s.models := rfl
@[simp] theorem State.emit_radio (s : State) (e : Emit) : (s.emit e).radio = s.radio := rfl
@[simp] theorem State.emit_ports (s : State) (e : Emit) : (s.emit e).ports = s.ports := rfl
@[simp] theorem State.emit_power (s : State) (e : Emit) : (s.emit e).power = s.power := rfl
@[simp] theorem State.emit_relia (s : State) (e : Emit) : (s.emit e).relia = s.relia := rfl
@[simp] theorem State.emit_boot (s : State) (e : Emit) : (s.emit e).boot = s.boot := rfl
@[simp] theorem State.emit_sec (s : State) (e : Emit) : (s.emit e).sec = s.sec := rfl
@[simp] theorem State.emit_reg (s : State) (e : Emit) (j : Nat) : (s.emit e).reg j = s.reg j := rfl
@[simp] theorem State.emit_blob (s : State) (e : Emit) (j : Nat) : (s.emit e).blob j = s.blob j := rfl

@[simp] theorem State.fresh_pending (s : State) : (s.fresh).pending = s.pending := rfl
@[simp] theorem State.fresh_out (s : State) : (s.fresh).out = s.out := rfl
@[simp] theorem State.fresh_time (s : State) : (s.fresh).time = s.time := rfl
@[simp] theorem State.fresh_dict (s : State) : (s.fresh).dict = s.dict := rfl
@[simp] theorem State.fresh_tiles (s : State) : (s.fresh).tiles = s.tiles := rfl
@[simp] theorem State.fresh_tasks (s : State) : (s.fresh).tasks = s.tasks := rfl
@[simp] theorem State.fresh_nextTask (s : State) : (s.fresh).nextTask = s.nextTask := rfl
@[simp] theorem State.fresh_parts (s : State) : (s.fresh).parts = s.parts := rfl
@[simp] theorem State.fresh_booked (s : State) : (s.fresh).booked = s.booked := rfl
@[simp] theorem State.fresh_admitted (s : State) : (s.fresh).admitted = s.admitted := rfl
@[simp] theorem State.fresh_plls (s : State) : (s.fresh).plls = s.plls := rfl
@[simp] theorem State.fresh_mem (s : State) : (s.fresh).mem = s.mem := rfl
@[simp] theorem State.fresh_fabric (s : State) : (s.fresh).fabric = s.fabric := rfl
@[simp] theorem State.fresh_sync (s : State) : (s.fresh).sync = s.sync := rfl
@[simp] theorem State.fresh_rings (s : State) : (s.fresh).rings = s.rings := rfl
@[simp] theorem State.fresh_funcs (s : State) : (s.fresh).funcs = s.funcs := rfl
@[simp] theorem State.fresh_kernels (s : State) : (s.fresh).kernels = s.kernels := rfl
@[simp] theorem State.fresh_models (s : State) : (s.fresh).models = s.models := rfl
@[simp] theorem State.fresh_radio (s : State) : (s.fresh).radio = s.radio := rfl
@[simp] theorem State.fresh_ports (s : State) : (s.fresh).ports = s.ports := rfl
@[simp] theorem State.fresh_power (s : State) : (s.fresh).power = s.power := rfl
@[simp] theorem State.fresh_relia (s : State) : (s.fresh).relia = s.relia := rfl
@[simp] theorem State.fresh_boot (s : State) : (s.fresh).boot = s.boot := rfl
@[simp] theorem State.fresh_sec (s : State) : (s.fresh).sec = s.sec := rfl
@[simp] theorem State.fresh_reg (s : State) (j : Nat) : (s.fresh).reg j = s.reg j := rfl
@[simp] theorem State.fresh_blob (s : State) (j : Nat) : (s.fresh).blob j = s.blob j := rfl

@[simp] theorem State.setTile_pending (s : State) (n : Nat) (t : Tile) : (s.setTile n t).pending = s.pending := rfl
@[simp] theorem State.setTile_out (s : State) (n : Nat) (t : Tile) : (s.setTile n t).out = s.out := rfl
@[simp] theorem State.setTile_free (s : State) (n : Nat) (t : Tile) : (s.setTile n t).free = s.free := rfl
@[simp] theorem State.setTile_time (s : State) (n : Nat) (t : Tile) : (s.setTile n t).time = s.time := rfl
@[simp] theorem State.setTile_dict (s : State) (n : Nat) (t : Tile) : (s.setTile n t).dict = s.dict := rfl
@[simp] theorem State.setTile_tasks (s : State) (n : Nat) (t : Tile) : (s.setTile n t).tasks = s.tasks := rfl
@[simp] theorem State.setTile_nextTask (s : State) (n : Nat) (t : Tile) : (s.setTile n t).nextTask = s.nextTask := rfl
@[simp] theorem State.setTile_parts (s : State) (n : Nat) (t : Tile) : (s.setTile n t).parts = s.parts := rfl
@[simp] theorem State.setTile_booked (s : State) (n : Nat) (t : Tile) : (s.setTile n t).booked = s.booked := rfl
@[simp] theorem State.setTile_admitted (s : State) (n : Nat) (t : Tile) : (s.setTile n t).admitted = s.admitted := rfl
@[simp] theorem State.setTile_plls (s : State) (n : Nat) (t : Tile) : (s.setTile n t).plls = s.plls := rfl
@[simp] theorem State.setTile_mem (s : State) (n : Nat) (t : Tile) : (s.setTile n t).mem = s.mem := rfl
@[simp] theorem State.setTile_fabric (s : State) (n : Nat) (t : Tile) : (s.setTile n t).fabric = s.fabric := rfl
@[simp] theorem State.setTile_sync (s : State) (n : Nat) (t : Tile) : (s.setTile n t).sync = s.sync := rfl
@[simp] theorem State.setTile_rings (s : State) (n : Nat) (t : Tile) : (s.setTile n t).rings = s.rings := rfl
@[simp] theorem State.setTile_funcs (s : State) (n : Nat) (t : Tile) : (s.setTile n t).funcs = s.funcs := rfl
@[simp] theorem State.setTile_kernels (s : State) (n : Nat) (t : Tile) : (s.setTile n t).kernels = s.kernels := rfl
@[simp] theorem State.setTile_models (s : State) (n : Nat) (t : Tile) : (s.setTile n t).models = s.models := rfl
@[simp] theorem State.setTile_radio (s : State) (n : Nat) (t : Tile) : (s.setTile n t).radio = s.radio := rfl
@[simp] theorem State.setTile_ports (s : State) (n : Nat) (t : Tile) : (s.setTile n t).ports = s.ports := rfl
@[simp] theorem State.setTile_power (s : State) (n : Nat) (t : Tile) : (s.setTile n t).power = s.power := rfl
@[simp] theorem State.setTile_relia (s : State) (n : Nat) (t : Tile) : (s.setTile n t).relia = s.relia := rfl
@[simp] theorem State.setTile_boot (s : State) (n : Nat) (t : Tile) : (s.setTile n t).boot = s.boot := rfl
@[simp] theorem State.setTile_sec (s : State) (n : Nat) (t : Tile) : (s.setTile n t).sec = s.sec := rfl
@[simp] theorem State.setTile_reg (s : State) (n : Nat) (t : Tile) (j : Nat) : (s.setTile n t).reg j = s.reg j := rfl
@[simp] theorem State.setTile_blob (s : State) (n : Nat) (t : Tile) (j : Nat) : (s.setTile n t).blob j = s.blob j := rfl

@[simp] theorem State.updTile_pending (s : State) (n : Nat) (f : Tile → Tile) : (s.updTile n f).pending = s.pending := rfl
@[simp] theorem State.updTile_out (s : State) (n : Nat) (f : Tile → Tile) : (s.updTile n f).out = s.out := rfl
@[simp] theorem State.updTile_free (s : State) (n : Nat) (f : Tile → Tile) : (s.updTile n f).free = s.free := rfl
@[simp] theorem State.updTile_time (s : State) (n : Nat) (f : Tile → Tile) : (s.updTile n f).time = s.time := rfl
@[simp] theorem State.updTile_dict (s : State) (n : Nat) (f : Tile → Tile) : (s.updTile n f).dict = s.dict := rfl
@[simp] theorem State.updTile_tasks (s : State) (n : Nat) (f : Tile → Tile) : (s.updTile n f).tasks = s.tasks := rfl
@[simp] theorem State.updTile_nextTask (s : State) (n : Nat) (f : Tile → Tile) : (s.updTile n f).nextTask = s.nextTask := rfl
@[simp] theorem State.updTile_parts (s : State) (n : Nat) (f : Tile → Tile) : (s.updTile n f).parts = s.parts := rfl
@[simp] theorem State.updTile_booked (s : State) (n : Nat) (f : Tile → Tile) : (s.updTile n f).booked = s.booked := rfl
@[simp] theorem State.updTile_admitted (s : State) (n : Nat) (f : Tile → Tile) : (s.updTile n f).admitted = s.admitted := rfl
@[simp] theorem State.updTile_plls (s : State) (n : Nat) (f : Tile → Tile) : (s.updTile n f).plls = s.plls := rfl
@[simp] theorem State.updTile_mem (s : State) (n : Nat) (f : Tile → Tile) : (s.updTile n f).mem = s.mem := rfl
@[simp] theorem State.updTile_fabric (s : State) (n : Nat) (f : Tile → Tile) : (s.updTile n f).fabric = s.fabric := rfl
@[simp] theorem State.updTile_sync (s : State) (n : Nat) (f : Tile → Tile) : (s.updTile n f).sync = s.sync := rfl
@[simp] theorem State.updTile_rings (s : State) (n : Nat) (f : Tile → Tile) : (s.updTile n f).rings = s.rings := rfl
@[simp] theorem State.updTile_funcs (s : State) (n : Nat) (f : Tile → Tile) : (s.updTile n f).funcs = s.funcs := rfl
@[simp] theorem State.updTile_kernels (s : State) (n : Nat) (f : Tile → Tile) : (s.updTile n f).kernels = s.kernels := rfl
@[simp] theorem State.updTile_models (s : State) (n : Nat) (f : Tile → Tile) : (s.updTile n f).models = s.models := rfl
@[simp] theorem State.updTile_radio (s : State) (n : Nat) (f : Tile → Tile) : (s.updTile n f).radio = s.radio := rfl
@[simp] theorem State.updTile_ports (s : State) (n : Nat) (f : Tile → Tile) : (s.updTile n f).ports = s.ports := rfl
@[simp] theorem State.updTile_power (s : State) (n : Nat) (f : Tile → Tile) : (s.updTile n f).power = s.power := rfl
@[simp] theorem State.updTile_relia (s : State) (n : Nat) (f : Tile → Tile) : (s.updTile n f).relia = s.relia := rfl
@[simp] theorem State.updTile_boot (s : State) (n : Nat) (f : Tile → Tile) : (s.updTile n f).boot = s.boot := rfl
@[simp] theorem State.updTile_sec (s : State) (n : Nat) (f : Tile → Tile) : (s.updTile n f).sec = s.sec := rfl
@[simp] theorem State.updTile_reg (s : State) (n : Nat) (f : Tile → Tile) (j : Nat) : (s.updTile n f).reg j = s.reg j := rfl
@[simp] theorem State.updTile_blob (s : State) (n : Nat) (f : Tile → Tile) (j : Nat) : (s.updTile n f).blob j = s.blob j := rfl

@[simp] theorem State.setPart_pending (s : State) (p : Nat) (q : Part) : (s.setPart p q).pending = s.pending := rfl
@[simp] theorem State.setPart_out (s : State) (p : Nat) (q : Part) : (s.setPart p q).out = s.out := rfl
@[simp] theorem State.setPart_free (s : State) (p : Nat) (q : Part) : (s.setPart p q).free = s.free := rfl
@[simp] theorem State.setPart_time (s : State) (p : Nat) (q : Part) : (s.setPart p q).time = s.time := rfl
@[simp] theorem State.setPart_tiles (s : State) (p : Nat) (q : Part) : (s.setPart p q).tiles = s.tiles := rfl
@[simp] theorem State.setPart_tasks (s : State) (p : Nat) (q : Part) : (s.setPart p q).tasks = s.tasks := rfl
@[simp] theorem State.setPart_nextTask (s : State) (p : Nat) (q : Part) : (s.setPart p q).nextTask = s.nextTask := rfl
@[simp] theorem State.setPart_booked (s : State) (p : Nat) (q : Part) : (s.setPart p q).booked = s.booked := rfl
@[simp] theorem State.setPart_admitted (s : State) (p : Nat) (q : Part) : (s.setPart p q).admitted = s.admitted := rfl
@[simp] theorem State.setPart_plls (s : State) (p : Nat) (q : Part) : (s.setPart p q).plls = s.plls := rfl
@[simp] theorem State.setPart_mem (s : State) (p : Nat) (q : Part) : (s.setPart p q).mem = s.mem := rfl
@[simp] theorem State.setPart_fabric (s : State) (p : Nat) (q : Part) : (s.setPart p q).fabric = s.fabric := rfl
@[simp] theorem State.setPart_sync (s : State) (p : Nat) (q : Part) : (s.setPart p q).sync = s.sync := rfl
@[simp] theorem State.setPart_rings (s : State) (p : Nat) (q : Part) : (s.setPart p q).rings = s.rings := rfl
@[simp] theorem State.setPart_funcs (s : State) (p : Nat) (q : Part) : (s.setPart p q).funcs = s.funcs := rfl
@[simp] theorem State.setPart_kernels (s : State) (p : Nat) (q : Part) : (s.setPart p q).kernels = s.kernels := rfl
@[simp] theorem State.setPart_models (s : State) (p : Nat) (q : Part) : (s.setPart p q).models = s.models := rfl
@[simp] theorem State.setPart_radio (s : State) (p : Nat) (q : Part) : (s.setPart p q).radio = s.radio := rfl
@[simp] theorem State.setPart_ports (s : State) (p : Nat) (q : Part) : (s.setPart p q).ports = s.ports := rfl
@[simp] theorem State.setPart_power (s : State) (p : Nat) (q : Part) : (s.setPart p q).power = s.power := rfl
@[simp] theorem State.setPart_relia (s : State) (p : Nat) (q : Part) : (s.setPart p q).relia = s.relia := rfl
@[simp] theorem State.setPart_boot (s : State) (p : Nat) (q : Part) : (s.setPart p q).boot = s.boot := rfl
@[simp] theorem State.setPart_sec (s : State) (p : Nat) (q : Part) : (s.setPart p q).sec = s.sec := rfl

@[simp] theorem State.setTask_pending (s : State) (n : Nat) (t : Task) : (s.setTask n t).pending = s.pending := rfl
@[simp] theorem State.setTask_out (s : State) (n : Nat) (t : Task) : (s.setTask n t).out = s.out := rfl
@[simp] theorem State.setTask_free (s : State) (n : Nat) (t : Task) : (s.setTask n t).free = s.free := rfl
@[simp] theorem State.setTask_time (s : State) (n : Nat) (t : Task) : (s.setTask n t).time = s.time := rfl
@[simp] theorem State.setTask_dict (s : State) (n : Nat) (t : Task) : (s.setTask n t).dict = s.dict := rfl
@[simp] theorem State.setTask_tiles (s : State) (n : Nat) (t : Task) : (s.setTask n t).tiles = s.tiles := rfl
@[simp] theorem State.setTask_nextTask (s : State) (n : Nat) (t : Task) : (s.setTask n t).nextTask = s.nextTask := rfl
@[simp] theorem State.setTask_parts (s : State) (n : Nat) (t : Task) : (s.setTask n t).parts = s.parts := rfl
@[simp] theorem State.setTask_booked (s : State) (n : Nat) (t : Task) : (s.setTask n t).booked = s.booked := rfl
@[simp] theorem State.setTask_admitted (s : State) (n : Nat) (t : Task) : (s.setTask n t).admitted = s.admitted := rfl
@[simp] theorem State.setTask_plls (s : State) (n : Nat) (t : Task) : (s.setTask n t).plls = s.plls := rfl
@[simp] theorem State.setTask_mem (s : State) (n : Nat) (t : Task) : (s.setTask n t).mem = s.mem := rfl
@[simp] theorem State.setTask_fabric (s : State) (n : Nat) (t : Task) : (s.setTask n t).fabric = s.fabric := rfl
@[simp] theorem State.setTask_sync (s : State) (n : Nat) (t : Task) : (s.setTask n t).sync = s.sync := rfl
@[simp] theorem State.setTask_rings (s : State) (n : Nat) (t : Task) : (s.setTask n t).rings = s.rings := rfl
@[simp] theorem State.setTask_funcs (s : State) (n : Nat) (t : Task) : (s.setTask n t).funcs = s.funcs := rfl
@[simp] theorem State.setTask_kernels (s : State) (n : Nat) (t : Task) : (s.setTask n t).kernels = s.kernels := rfl
@[simp] theorem State.setTask_models (s : State) (n : Nat) (t : Task) : (s.setTask n t).models = s.models := rfl
@[simp] theorem State.setTask_radio (s : State) (n : Nat) (t : Task) : (s.setTask n t).radio = s.radio := rfl
@[simp] theorem State.setTask_ports (s : State) (n : Nat) (t : Task) : (s.setTask n t).ports = s.ports := rfl
@[simp] theorem State.setTask_power (s : State) (n : Nat) (t : Task) : (s.setTask n t).power = s.power := rfl
@[simp] theorem State.setTask_relia (s : State) (n : Nat) (t : Task) : (s.setTask n t).relia = s.relia := rfl
@[simp] theorem State.setTask_boot (s : State) (n : Nat) (t : Task) : (s.setTask n t).boot = s.boot := rfl
@[simp] theorem State.setTask_sec (s : State) (n : Nat) (t : Task) : (s.setTask n t).sec = s.sec := rfl
@[simp] theorem State.setTask_reg (s : State) (n : Nat) (t : Task) (j : Nat) : (s.setTask n t).reg j = s.reg j := rfl
@[simp] theorem State.setTask_blob (s : State) (n : Nat) (t : Task) (j : Nat) : (s.setTask n t).blob j = s.blob j := rfl

@[simp] theorem State.updTask_pending (s : State) (n : Nat) (f : Task → Task) : (s.updTask n f).pending = s.pending := rfl
@[simp] theorem State.updTask_out (s : State) (n : Nat) (f : Task → Task) : (s.updTask n f).out = s.out := rfl
@[simp] theorem State.updTask_free (s : State) (n : Nat) (f : Task → Task) : (s.updTask n f).free = s.free := rfl
@[simp] theorem State.updTask_time (s : State) (n : Nat) (f : Task → Task) : (s.updTask n f).time = s.time := rfl
@[simp] theorem State.updTask_dict (s : State) (n : Nat) (f : Task → Task) : (s.updTask n f).dict = s.dict := rfl
@[simp] theorem State.updTask_tiles (s : State) (n : Nat) (f : Task → Task) : (s.updTask n f).tiles = s.tiles := rfl
@[simp] theorem State.updTask_nextTask (s : State) (n : Nat) (f : Task → Task) : (s.updTask n f).nextTask = s.nextTask := rfl
@[simp] theorem State.updTask_parts (s : State) (n : Nat) (f : Task → Task) : (s.updTask n f).parts = s.parts := rfl
@[simp] theorem State.updTask_booked (s : State) (n : Nat) (f : Task → Task) : (s.updTask n f).booked = s.booked := rfl
@[simp] theorem State.updTask_admitted (s : State) (n : Nat) (f : Task → Task) : (s.updTask n f).admitted = s.admitted := rfl
@[simp] theorem State.updTask_plls (s : State) (n : Nat) (f : Task → Task) : (s.updTask n f).plls = s.plls := rfl
@[simp] theorem State.updTask_mem (s : State) (n : Nat) (f : Task → Task) : (s.updTask n f).mem = s.mem := rfl
@[simp] theorem State.updTask_fabric (s : State) (n : Nat) (f : Task → Task) : (s.updTask n f).fabric = s.fabric := rfl
@[simp] theorem State.updTask_sync (s : State) (n : Nat) (f : Task → Task) : (s.updTask n f).sync = s.sync := rfl
@[simp] theorem State.updTask_rings (s : State) (n : Nat) (f : Task → Task) : (s.updTask n f).rings = s.rings := rfl
@[simp] theorem State.updTask_funcs (s : State) (n : Nat) (f : Task → Task) : (s.updTask n f).funcs = s.funcs := rfl
@[simp] theorem State.updTask_kernels (s : State) (n : Nat) (f : Task → Task) : (s.updTask n f).kernels = s.kernels := rfl
@[simp] theorem State.updTask_models (s : State) (n : Nat) (f : Task → Task) : (s.updTask n f).models = s.models := rfl
@[simp] theorem State.updTask_radio (s : State) (n : Nat) (f : Task → Task) : (s.updTask n f).radio = s.radio := rfl
@[simp] theorem State.updTask_ports (s : State) (n : Nat) (f : Task → Task) : (s.updTask n f).ports = s.ports := rfl
@[simp] theorem State.updTask_power (s : State) (n : Nat) (f : Task → Task) : (s.updTask n f).power = s.power := rfl
@[simp] theorem State.updTask_relia (s : State) (n : Nat) (f : Task → Task) : (s.updTask n f).relia = s.relia := rfl
@[simp] theorem State.updTask_boot (s : State) (n : Nat) (f : Task → Task) : (s.updTask n f).boot = s.boot := rfl
@[simp] theorem State.updTask_sec (s : State) (n : Nat) (f : Task → Task) : (s.updTask n f).sec = s.sec := rfl
@[simp] theorem State.updTask_reg (s : State) (n : Nat) (f : Task → Task) (j : Nat) : (s.updTask n f).reg j = s.reg j := rfl
@[simp] theorem State.updTask_blob (s : State) (n : Nat) (f : Task → Task) (j : Nat) : (s.updTask n f).blob j = s.blob j := rfl

@[simp] theorem State.dropTask_pending (s : State) (n : Nat) : (s.dropTask n).pending = s.pending := rfl
@[simp] theorem State.dropTask_out (s : State) (n : Nat) : (s.dropTask n).out = s.out := rfl
@[simp] theorem State.dropTask_free (s : State) (n : Nat) : (s.dropTask n).free = s.free := rfl
@[simp] theorem State.dropTask_time (s : State) (n : Nat) : (s.dropTask n).time = s.time := rfl
@[simp] theorem State.dropTask_dict (s : State) (n : Nat) : (s.dropTask n).dict = s.dict := rfl
@[simp] theorem State.dropTask_tiles (s : State) (n : Nat) : (s.dropTask n).tiles = s.tiles := rfl
@[simp] theorem State.dropTask_nextTask (s : State) (n : Nat) : (s.dropTask n).nextTask = s.nextTask := rfl
@[simp] theorem State.dropTask_parts (s : State) (n : Nat) : (s.dropTask n).parts = s.parts := rfl
@[simp] theorem State.dropTask_booked (s : State) (n : Nat) : (s.dropTask n).booked = s.booked := rfl
@[simp] theorem State.dropTask_admitted (s : State) (n : Nat) : (s.dropTask n).admitted = s.admitted := rfl
@[simp] theorem State.dropTask_plls (s : State) (n : Nat) : (s.dropTask n).plls = s.plls := rfl
@[simp] theorem State.dropTask_mem (s : State) (n : Nat) : (s.dropTask n).mem = s.mem := rfl
@[simp] theorem State.dropTask_fabric (s : State) (n : Nat) : (s.dropTask n).fabric = s.fabric := rfl
@[simp] theorem State.dropTask_sync (s : State) (n : Nat) : (s.dropTask n).sync = s.sync := rfl
@[simp] theorem State.dropTask_rings (s : State) (n : Nat) : (s.dropTask n).rings = s.rings := rfl
@[simp] theorem State.dropTask_funcs (s : State) (n : Nat) : (s.dropTask n).funcs = s.funcs := rfl
@[simp] theorem State.dropTask_kernels (s : State) (n : Nat) : (s.dropTask n).kernels = s.kernels := rfl
@[simp] theorem State.dropTask_models (s : State) (n : Nat) : (s.dropTask n).models = s.models := rfl
@[simp] theorem State.dropTask_radio (s : State) (n : Nat) : (s.dropTask n).radio = s.radio := rfl
@[simp] theorem State.dropTask_ports (s : State) (n : Nat) : (s.dropTask n).ports = s.ports := rfl
@[simp] theorem State.dropTask_power (s : State) (n : Nat) : (s.dropTask n).power = s.power := rfl
@[simp] theorem State.dropTask_relia (s : State) (n : Nat) : (s.dropTask n).relia = s.relia := rfl
@[simp] theorem State.dropTask_boot (s : State) (n : Nat) : (s.dropTask n).boot = s.boot := rfl
@[simp] theorem State.dropTask_sec (s : State) (n : Nat) : (s.dropTask n).sec = s.sec := rfl
@[simp] theorem State.dropTask_reg (s : State) (n : Nat) (j : Nat) : (s.dropTask n).reg j = s.reg j := rfl
@[simp] theorem State.dropTask_blob (s : State) (n : Nat) (j : Nat) : (s.dropTask n).blob j = s.blob j := rfl

@[simp] theorem State.addTask_pending (s : State) (t : Task) : (s.addTask t).pending = s.pending := rfl
@[simp] theorem State.addTask_out (s : State) (t : Task) : (s.addTask t).out = s.out := rfl
@[simp] theorem State.addTask_free (s : State) (t : Task) : (s.addTask t).free = s.free := rfl
@[simp] theorem State.addTask_time (s : State) (t : Task) : (s.addTask t).time = s.time := rfl
@[simp] theorem State.addTask_dict (s : State) (t : Task) : (s.addTask t).dict = s.dict := rfl
@[simp] theorem State.addTask_tiles (s : State) (t : Task) : (s.addTask t).tiles = s.tiles := rfl
@[simp] theorem State.addTask_parts (s : State) (t : Task) : (s.addTask t).parts = s.parts := rfl
@[simp] theorem State.addTask_booked (s : State) (t : Task) : (s.addTask t).booked = s.booked := rfl
@[simp] theorem State.addTask_admitted (s : State) (t : Task) : (s.addTask t).admitted = s.admitted := rfl
@[simp] theorem State.addTask_plls (s : State) (t : Task) : (s.addTask t).plls = s.plls := rfl
@[simp] theorem State.addTask_mem (s : State) (t : Task) : (s.addTask t).mem = s.mem := rfl
@[simp] theorem State.addTask_fabric (s : State) (t : Task) : (s.addTask t).fabric = s.fabric := rfl
@[simp] theorem State.addTask_sync (s : State) (t : Task) : (s.addTask t).sync = s.sync := rfl
@[simp] theorem State.addTask_rings (s : State) (t : Task) : (s.addTask t).rings = s.rings := rfl
@[simp] theorem State.addTask_funcs (s : State) (t : Task) : (s.addTask t).funcs = s.funcs := rfl
@[simp] theorem State.addTask_kernels (s : State) (t : Task) : (s.addTask t).kernels = s.kernels := rfl
@[simp] theorem State.addTask_models (s : State) (t : Task) : (s.addTask t).models = s.models := rfl
@[simp] theorem State.addTask_radio (s : State) (t : Task) : (s.addTask t).radio = s.radio := rfl
@[simp] theorem State.addTask_ports (s : State) (t : Task) : (s.addTask t).ports = s.ports := rfl
@[simp] theorem State.addTask_power (s : State) (t : Task) : (s.addTask t).power = s.power := rfl
@[simp] theorem State.addTask_relia (s : State) (t : Task) : (s.addTask t).relia = s.relia := rfl
@[simp] theorem State.addTask_boot (s : State) (t : Task) : (s.addTask t).boot = s.boot := rfl
@[simp] theorem State.addTask_sec (s : State) (t : Task) : (s.addTask t).sec = s.sec := rfl
@[simp] theorem State.addTask_reg (s : State) (t : Task) (j : Nat) : (s.addTask t).reg j = s.reg j := rfl
@[simp] theorem State.addTask_blob (s : State) (t : Task) (j : Nat) : (s.addTask t).blob j = s.blob j := rfl

@[simp] theorem State.setRing_pending (s : State) (f r : Nat) (g : Ring) : (s.setRing f r g).pending = s.pending := rfl
@[simp] theorem State.setRing_out (s : State) (f r : Nat) (g : Ring) : (s.setRing f r g).out = s.out := rfl
@[simp] theorem State.setRing_free (s : State) (f r : Nat) (g : Ring) : (s.setRing f r g).free = s.free := rfl
@[simp] theorem State.setRing_time (s : State) (f r : Nat) (g : Ring) : (s.setRing f r g).time = s.time := rfl
@[simp] theorem State.setRing_dict (s : State) (f r : Nat) (g : Ring) : (s.setRing f r g).dict = s.dict := rfl
@[simp] theorem State.setRing_tiles (s : State) (f r : Nat) (g : Ring) : (s.setRing f r g).tiles = s.tiles := rfl
@[simp] theorem State.setRing_tasks (s : State) (f r : Nat) (g : Ring) : (s.setRing f r g).tasks = s.tasks := rfl
@[simp] theorem State.setRing_nextTask (s : State) (f r : Nat) (g : Ring) : (s.setRing f r g).nextTask = s.nextTask := rfl
@[simp] theorem State.setRing_parts (s : State) (f r : Nat) (g : Ring) : (s.setRing f r g).parts = s.parts := rfl
@[simp] theorem State.setRing_booked (s : State) (f r : Nat) (g : Ring) : (s.setRing f r g).booked = s.booked := rfl
@[simp] theorem State.setRing_admitted (s : State) (f r : Nat) (g : Ring) : (s.setRing f r g).admitted = s.admitted := rfl
@[simp] theorem State.setRing_plls (s : State) (f r : Nat) (g : Ring) : (s.setRing f r g).plls = s.plls := rfl
@[simp] theorem State.setRing_mem (s : State) (f r : Nat) (g : Ring) : (s.setRing f r g).mem = s.mem := rfl
@[simp] theorem State.setRing_fabric (s : State) (f r : Nat) (g : Ring) : (s.setRing f r g).fabric = s.fabric := rfl
@[simp] theorem State.setRing_sync (s : State) (f r : Nat) (g : Ring) : (s.setRing f r g).sync = s.sync := rfl
@[simp] theorem State.setRing_funcs (s : State) (f r : Nat) (g : Ring) : (s.setRing f r g).funcs = s.funcs := rfl
@[simp] theorem State.setRing_kernels (s : State) (f r : Nat) (g : Ring) : (s.setRing f r g).kernels = s.kernels := rfl
@[simp] theorem State.setRing_models (s : State) (f r : Nat) (g : Ring) : (s.setRing f r g).models = s.models := rfl
@[simp] theorem State.setRing_radio (s : State) (f r : Nat) (g : Ring) : (s.setRing f r g).radio = s.radio := rfl
@[simp] theorem State.setRing_ports (s : State) (f r : Nat) (g : Ring) : (s.setRing f r g).ports = s.ports := rfl
@[simp] theorem State.setRing_power (s : State) (f r : Nat) (g : Ring) : (s.setRing f r g).power = s.power := rfl
@[simp] theorem State.setRing_relia (s : State) (f r : Nat) (g : Ring) : (s.setRing f r g).relia = s.relia := rfl
@[simp] theorem State.setRing_boot (s : State) (f r : Nat) (g : Ring) : (s.setRing f r g).boot = s.boot := rfl
@[simp] theorem State.setRing_sec (s : State) (f r : Nat) (g : Ring) : (s.setRing f r g).sec = s.sec := rfl
@[simp] theorem State.setRing_reg (s : State) (f r : Nat) (g : Ring) (j : Nat) : (s.setRing f r g).reg j = s.reg j := rfl
@[simp] theorem State.setRing_blob (s : State) (f r : Nat) (g : Ring) (j : Nat) : (s.setRing f r g).blob j = s.blob j := rfl

@[simp] theorem State.setFunc_pending (s : State) (f : Nat) (g : Func) : (s.setFunc f g).pending = s.pending := rfl
@[simp] theorem State.setFunc_out (s : State) (f : Nat) (g : Func) : (s.setFunc f g).out = s.out := rfl
@[simp] theorem State.setFunc_free (s : State) (f : Nat) (g : Func) : (s.setFunc f g).free = s.free := rfl
@[simp] theorem State.setFunc_time (s : State) (f : Nat) (g : Func) : (s.setFunc f g).time = s.time := rfl
@[simp] theorem State.setFunc_dict (s : State) (f : Nat) (g : Func) : (s.setFunc f g).dict = s.dict := rfl
@[simp] theorem State.setFunc_tiles (s : State) (f : Nat) (g : Func) : (s.setFunc f g).tiles = s.tiles := rfl
@[simp] theorem State.setFunc_tasks (s : State) (f : Nat) (g : Func) : (s.setFunc f g).tasks = s.tasks := rfl
@[simp] theorem State.setFunc_nextTask (s : State) (f : Nat) (g : Func) : (s.setFunc f g).nextTask = s.nextTask := rfl
@[simp] theorem State.setFunc_parts (s : State) (f : Nat) (g : Func) : (s.setFunc f g).parts = s.parts := rfl
@[simp] theorem State.setFunc_booked (s : State) (f : Nat) (g : Func) : (s.setFunc f g).booked = s.booked := rfl
@[simp] theorem State.setFunc_admitted (s : State) (f : Nat) (g : Func) : (s.setFunc f g).admitted = s.admitted := rfl
@[simp] theorem State.setFunc_plls (s : State) (f : Nat) (g : Func) : (s.setFunc f g).plls = s.plls := rfl
@[simp] theorem State.setFunc_mem (s : State) (f : Nat) (g : Func) : (s.setFunc f g).mem = s.mem := rfl
@[simp] theorem State.setFunc_fabric (s : State) (f : Nat) (g : Func) : (s.setFunc f g).fabric = s.fabric := rfl
@[simp] theorem State.setFunc_sync (s : State) (f : Nat) (g : Func) : (s.setFunc f g).sync = s.sync := rfl
@[simp] theorem State.setFunc_rings (s : State) (f : Nat) (g : Func) : (s.setFunc f g).rings = s.rings := rfl
@[simp] theorem State.setFunc_kernels (s : State) (f : Nat) (g : Func) : (s.setFunc f g).kernels = s.kernels := rfl
@[simp] theorem State.setFunc_models (s : State) (f : Nat) (g : Func) : (s.setFunc f g).models = s.models := rfl
@[simp] theorem State.setFunc_radio (s : State) (f : Nat) (g : Func) : (s.setFunc f g).radio = s.radio := rfl
@[simp] theorem State.setFunc_ports (s : State) (f : Nat) (g : Func) : (s.setFunc f g).ports = s.ports := rfl
@[simp] theorem State.setFunc_power (s : State) (f : Nat) (g : Func) : (s.setFunc f g).power = s.power := rfl
@[simp] theorem State.setFunc_relia (s : State) (f : Nat) (g : Func) : (s.setFunc f g).relia = s.relia := rfl
@[simp] theorem State.setFunc_boot (s : State) (f : Nat) (g : Func) : (s.setFunc f g).boot = s.boot := rfl
@[simp] theorem State.setFunc_sec (s : State) (f : Nat) (g : Func) : (s.setFunc f g).sec = s.sec := rfl
@[simp] theorem State.setFunc_reg (s : State) (f : Nat) (g : Func) (j : Nat) : (s.setFunc f g).reg j = s.reg j := rfl
@[simp] theorem State.setFunc_blob (s : State) (f : Nat) (g : Func) (j : Nat) : (s.setFunc f g).blob j = s.blob j := rfl

@[simp] theorem State.setSession_pending (s : State) (k : Nat) (x : Session) : (s.setSession k x).pending = s.pending := rfl
@[simp] theorem State.setSession_out (s : State) (k : Nat) (x : Session) : (s.setSession k x).out = s.out := rfl
@[simp] theorem State.setSession_free (s : State) (k : Nat) (x : Session) : (s.setSession k x).free = s.free := rfl
@[simp] theorem State.setSession_time (s : State) (k : Nat) (x : Session) : (s.setSession k x).time = s.time := rfl
@[simp] theorem State.setSession_tiles (s : State) (k : Nat) (x : Session) : (s.setSession k x).tiles = s.tiles := rfl
@[simp] theorem State.setSession_tasks (s : State) (k : Nat) (x : Session) : (s.setSession k x).tasks = s.tasks := rfl
@[simp] theorem State.setSession_nextTask (s : State) (k : Nat) (x : Session) : (s.setSession k x).nextTask = s.nextTask := rfl
@[simp] theorem State.setSession_parts (s : State) (k : Nat) (x : Session) : (s.setSession k x).parts = s.parts := rfl
@[simp] theorem State.setSession_booked (s : State) (k : Nat) (x : Session) : (s.setSession k x).booked = s.booked := rfl
@[simp] theorem State.setSession_admitted (s : State) (k : Nat) (x : Session) : (s.setSession k x).admitted = s.admitted := rfl
@[simp] theorem State.setSession_plls (s : State) (k : Nat) (x : Session) : (s.setSession k x).plls = s.plls := rfl
@[simp] theorem State.setSession_mem (s : State) (k : Nat) (x : Session) : (s.setSession k x).mem = s.mem := rfl
@[simp] theorem State.setSession_fabric (s : State) (k : Nat) (x : Session) : (s.setSession k x).fabric = s.fabric := rfl
@[simp] theorem State.setSession_sync (s : State) (k : Nat) (x : Session) : (s.setSession k x).sync = s.sync := rfl
@[simp] theorem State.setSession_rings (s : State) (k : Nat) (x : Session) : (s.setSession k x).rings = s.rings := rfl
@[simp] theorem State.setSession_funcs (s : State) (k : Nat) (x : Session) : (s.setSession k x).funcs = s.funcs := rfl
@[simp] theorem State.setSession_kernels (s : State) (k : Nat) (x : Session) : (s.setSession k x).kernels = s.kernels := rfl
@[simp] theorem State.setSession_models (s : State) (k : Nat) (x : Session) : (s.setSession k x).models = s.models := rfl
@[simp] theorem State.setSession_radio (s : State) (k : Nat) (x : Session) : (s.setSession k x).radio = s.radio := rfl
@[simp] theorem State.setSession_ports (s : State) (k : Nat) (x : Session) : (s.setSession k x).ports = s.ports := rfl
@[simp] theorem State.setSession_power (s : State) (k : Nat) (x : Session) : (s.setSession k x).power = s.power := rfl
@[simp] theorem State.setSession_relia (s : State) (k : Nat) (x : Session) : (s.setSession k x).relia = s.relia := rfl
@[simp] theorem State.setSession_boot (s : State) (k : Nat) (x : Session) : (s.setSession k x).boot = s.boot := rfl
@[simp] theorem State.setSession_sec (s : State) (k : Nat) (x : Session) : (s.setSession k x).sec = s.sec := rfl

@[simp] theorem State.setStage_pending (s : State) (k : Nat) (x : Option Stage) : (s.setStage k x).pending = s.pending := rfl
@[simp] theorem State.setStage_out (s : State) (k : Nat) (x : Option Stage) : (s.setStage k x).out = s.out := rfl
@[simp] theorem State.setStage_free (s : State) (k : Nat) (x : Option Stage) : (s.setStage k x).free = s.free := rfl
@[simp] theorem State.setStage_time (s : State) (k : Nat) (x : Option Stage) : (s.setStage k x).time = s.time := rfl
@[simp] theorem State.setStage_tiles (s : State) (k : Nat) (x : Option Stage) : (s.setStage k x).tiles = s.tiles := rfl
@[simp] theorem State.setStage_tasks (s : State) (k : Nat) (x : Option Stage) : (s.setStage k x).tasks = s.tasks := rfl
@[simp] theorem State.setStage_nextTask (s : State) (k : Nat) (x : Option Stage) : (s.setStage k x).nextTask = s.nextTask := rfl
@[simp] theorem State.setStage_parts (s : State) (k : Nat) (x : Option Stage) : (s.setStage k x).parts = s.parts := rfl
@[simp] theorem State.setStage_booked (s : State) (k : Nat) (x : Option Stage) : (s.setStage k x).booked = s.booked := rfl
@[simp] theorem State.setStage_admitted (s : State) (k : Nat) (x : Option Stage) : (s.setStage k x).admitted = s.admitted := rfl
@[simp] theorem State.setStage_plls (s : State) (k : Nat) (x : Option Stage) : (s.setStage k x).plls = s.plls := rfl
@[simp] theorem State.setStage_mem (s : State) (k : Nat) (x : Option Stage) : (s.setStage k x).mem = s.mem := rfl
@[simp] theorem State.setStage_fabric (s : State) (k : Nat) (x : Option Stage) : (s.setStage k x).fabric = s.fabric := rfl
@[simp] theorem State.setStage_sync (s : State) (k : Nat) (x : Option Stage) : (s.setStage k x).sync = s.sync := rfl
@[simp] theorem State.setStage_rings (s : State) (k : Nat) (x : Option Stage) : (s.setStage k x).rings = s.rings := rfl
@[simp] theorem State.setStage_funcs (s : State) (k : Nat) (x : Option Stage) : (s.setStage k x).funcs = s.funcs := rfl
@[simp] theorem State.setStage_kernels (s : State) (k : Nat) (x : Option Stage) : (s.setStage k x).kernels = s.kernels := rfl
@[simp] theorem State.setStage_models (s : State) (k : Nat) (x : Option Stage) : (s.setStage k x).models = s.models := rfl
@[simp] theorem State.setStage_radio (s : State) (k : Nat) (x : Option Stage) : (s.setStage k x).radio = s.radio := rfl
@[simp] theorem State.setStage_ports (s : State) (k : Nat) (x : Option Stage) : (s.setStage k x).ports = s.ports := rfl
@[simp] theorem State.setStage_power (s : State) (k : Nat) (x : Option Stage) : (s.setStage k x).power = s.power := rfl
@[simp] theorem State.setStage_relia (s : State) (k : Nat) (x : Option Stage) : (s.setStage k x).relia = s.relia := rfl
@[simp] theorem State.setStage_boot (s : State) (k : Nat) (x : Option Stage) : (s.setStage k x).boot = s.boot := rfl
@[simp] theorem State.setStage_sec (s : State) (k : Nat) (x : Option Stage) : (s.setStage k x).sec = s.sec := rfl

@[simp] theorem State.setHandshake_pending (s : State) (k : Nat) (x : Option Handshake) : (s.setHandshake k x).pending = s.pending := rfl
@[simp] theorem State.setHandshake_out (s : State) (k : Nat) (x : Option Handshake) : (s.setHandshake k x).out = s.out := rfl
@[simp] theorem State.setHandshake_free (s : State) (k : Nat) (x : Option Handshake) : (s.setHandshake k x).free = s.free := rfl
@[simp] theorem State.setHandshake_time (s : State) (k : Nat) (x : Option Handshake) : (s.setHandshake k x).time = s.time := rfl
@[simp] theorem State.setHandshake_tiles (s : State) (k : Nat) (x : Option Handshake) : (s.setHandshake k x).tiles = s.tiles := rfl
@[simp] theorem State.setHandshake_tasks (s : State) (k : Nat) (x : Option Handshake) : (s.setHandshake k x).tasks = s.tasks := rfl
@[simp] theorem State.setHandshake_nextTask (s : State) (k : Nat) (x : Option Handshake) : (s.setHandshake k x).nextTask = s.nextTask := rfl
@[simp] theorem State.setHandshake_parts (s : State) (k : Nat) (x : Option Handshake) : (s.setHandshake k x).parts = s.parts := rfl
@[simp] theorem State.setHandshake_booked (s : State) (k : Nat) (x : Option Handshake) : (s.setHandshake k x).booked = s.booked := rfl
@[simp] theorem State.setHandshake_admitted (s : State) (k : Nat) (x : Option Handshake) : (s.setHandshake k x).admitted = s.admitted := rfl
@[simp] theorem State.setHandshake_plls (s : State) (k : Nat) (x : Option Handshake) : (s.setHandshake k x).plls = s.plls := rfl
@[simp] theorem State.setHandshake_mem (s : State) (k : Nat) (x : Option Handshake) : (s.setHandshake k x).mem = s.mem := rfl
@[simp] theorem State.setHandshake_fabric (s : State) (k : Nat) (x : Option Handshake) : (s.setHandshake k x).fabric = s.fabric := rfl
@[simp] theorem State.setHandshake_sync (s : State) (k : Nat) (x : Option Handshake) : (s.setHandshake k x).sync = s.sync := rfl
@[simp] theorem State.setHandshake_rings (s : State) (k : Nat) (x : Option Handshake) : (s.setHandshake k x).rings = s.rings := rfl
@[simp] theorem State.setHandshake_funcs (s : State) (k : Nat) (x : Option Handshake) : (s.setHandshake k x).funcs = s.funcs := rfl
@[simp] theorem State.setHandshake_kernels (s : State) (k : Nat) (x : Option Handshake) : (s.setHandshake k x).kernels = s.kernels := rfl
@[simp] theorem State.setHandshake_models (s : State) (k : Nat) (x : Option Handshake) : (s.setHandshake k x).models = s.models := rfl
@[simp] theorem State.setHandshake_radio (s : State) (k : Nat) (x : Option Handshake) : (s.setHandshake k x).radio = s.radio := rfl
@[simp] theorem State.setHandshake_ports (s : State) (k : Nat) (x : Option Handshake) : (s.setHandshake k x).ports = s.ports := rfl
@[simp] theorem State.setHandshake_power (s : State) (k : Nat) (x : Option Handshake) : (s.setHandshake k x).power = s.power := rfl
@[simp] theorem State.setHandshake_relia (s : State) (k : Nat) (x : Option Handshake) : (s.setHandshake k x).relia = s.relia := rfl
@[simp] theorem State.setHandshake_boot (s : State) (k : Nat) (x : Option Handshake) : (s.setHandshake k x).boot = s.boot := rfl
@[simp] theorem State.setHandshake_sec (s : State) (k : Nat) (x : Option Handshake) : (s.setHandshake k x).sec = s.sec := rfl

@[simp] theorem State.setSubs_pending (s : State) (k : Nat) (l : List Subscription) : (s.setSubs k l).pending = s.pending := rfl
@[simp] theorem State.setSubs_out (s : State) (k : Nat) (l : List Subscription) : (s.setSubs k l).out = s.out := rfl
@[simp] theorem State.setSubs_free (s : State) (k : Nat) (l : List Subscription) : (s.setSubs k l).free = s.free := rfl
@[simp] theorem State.setSubs_time (s : State) (k : Nat) (l : List Subscription) : (s.setSubs k l).time = s.time := rfl
@[simp] theorem State.setSubs_tiles (s : State) (k : Nat) (l : List Subscription) : (s.setSubs k l).tiles = s.tiles := rfl
@[simp] theorem State.setSubs_tasks (s : State) (k : Nat) (l : List Subscription) : (s.setSubs k l).tasks = s.tasks := rfl
@[simp] theorem State.setSubs_nextTask (s : State) (k : Nat) (l : List Subscription) : (s.setSubs k l).nextTask = s.nextTask := rfl
@[simp] theorem State.setSubs_parts (s : State) (k : Nat) (l : List Subscription) : (s.setSubs k l).parts = s.parts := rfl
@[simp] theorem State.setSubs_booked (s : State) (k : Nat) (l : List Subscription) : (s.setSubs k l).booked = s.booked := rfl
@[simp] theorem State.setSubs_admitted (s : State) (k : Nat) (l : List Subscription) : (s.setSubs k l).admitted = s.admitted := rfl
@[simp] theorem State.setSubs_plls (s : State) (k : Nat) (l : List Subscription) : (s.setSubs k l).plls = s.plls := rfl
@[simp] theorem State.setSubs_mem (s : State) (k : Nat) (l : List Subscription) : (s.setSubs k l).mem = s.mem := rfl
@[simp] theorem State.setSubs_fabric (s : State) (k : Nat) (l : List Subscription) : (s.setSubs k l).fabric = s.fabric := rfl
@[simp] theorem State.setSubs_sync (s : State) (k : Nat) (l : List Subscription) : (s.setSubs k l).sync = s.sync := rfl
@[simp] theorem State.setSubs_rings (s : State) (k : Nat) (l : List Subscription) : (s.setSubs k l).rings = s.rings := rfl
@[simp] theorem State.setSubs_funcs (s : State) (k : Nat) (l : List Subscription) : (s.setSubs k l).funcs = s.funcs := rfl
@[simp] theorem State.setSubs_kernels (s : State) (k : Nat) (l : List Subscription) : (s.setSubs k l).kernels = s.kernels := rfl
@[simp] theorem State.setSubs_models (s : State) (k : Nat) (l : List Subscription) : (s.setSubs k l).models = s.models := rfl
@[simp] theorem State.setSubs_radio (s : State) (k : Nat) (l : List Subscription) : (s.setSubs k l).radio = s.radio := rfl
@[simp] theorem State.setSubs_ports (s : State) (k : Nat) (l : List Subscription) : (s.setSubs k l).ports = s.ports := rfl
@[simp] theorem State.setSubs_power (s : State) (k : Nat) (l : List Subscription) : (s.setSubs k l).power = s.power := rfl
@[simp] theorem State.setSubs_relia (s : State) (k : Nat) (l : List Subscription) : (s.setSubs k l).relia = s.relia := rfl
@[simp] theorem State.setSubs_boot (s : State) (k : Nat) (l : List Subscription) : (s.setSubs k l).boot = s.boot := rfl
@[simp] theorem State.setSubs_sec (s : State) (k : Nat) (l : List Subscription) : (s.setSubs k l).sec = s.sec := rfl

@[simp] theorem State.setCell_pending (s : State) (c : Nat) (x : Cell) : (s.setCell c x).pending = s.pending := rfl
@[simp] theorem State.setCell_out (s : State) (c : Nat) (x : Cell) : (s.setCell c x).out = s.out := rfl
@[simp] theorem State.setCell_free (s : State) (c : Nat) (x : Cell) : (s.setCell c x).free = s.free := rfl
@[simp] theorem State.setCell_time (s : State) (c : Nat) (x : Cell) : (s.setCell c x).time = s.time := rfl
@[simp] theorem State.setCell_dict (s : State) (c : Nat) (x : Cell) : (s.setCell c x).dict = s.dict := rfl
@[simp] theorem State.setCell_tiles (s : State) (c : Nat) (x : Cell) : (s.setCell c x).tiles = s.tiles := rfl
@[simp] theorem State.setCell_tasks (s : State) (c : Nat) (x : Cell) : (s.setCell c x).tasks = s.tasks := rfl
@[simp] theorem State.setCell_nextTask (s : State) (c : Nat) (x : Cell) : (s.setCell c x).nextTask = s.nextTask := rfl
@[simp] theorem State.setCell_parts (s : State) (c : Nat) (x : Cell) : (s.setCell c x).parts = s.parts := rfl
@[simp] theorem State.setCell_booked (s : State) (c : Nat) (x : Cell) : (s.setCell c x).booked = s.booked := rfl
@[simp] theorem State.setCell_admitted (s : State) (c : Nat) (x : Cell) : (s.setCell c x).admitted = s.admitted := rfl
@[simp] theorem State.setCell_plls (s : State) (c : Nat) (x : Cell) : (s.setCell c x).plls = s.plls := rfl
@[simp] theorem State.setCell_mem (s : State) (c : Nat) (x : Cell) : (s.setCell c x).mem = s.mem := rfl
@[simp] theorem State.setCell_fabric (s : State) (c : Nat) (x : Cell) : (s.setCell c x).fabric = s.fabric := rfl
@[simp] theorem State.setCell_sync (s : State) (c : Nat) (x : Cell) : (s.setCell c x).sync = s.sync := rfl
@[simp] theorem State.setCell_rings (s : State) (c : Nat) (x : Cell) : (s.setCell c x).rings = s.rings := rfl
@[simp] theorem State.setCell_funcs (s : State) (c : Nat) (x : Cell) : (s.setCell c x).funcs = s.funcs := rfl
@[simp] theorem State.setCell_kernels (s : State) (c : Nat) (x : Cell) : (s.setCell c x).kernels = s.kernels := rfl
@[simp] theorem State.setCell_models (s : State) (c : Nat) (x : Cell) : (s.setCell c x).models = s.models := rfl
@[simp] theorem State.setCell_ports (s : State) (c : Nat) (x : Cell) : (s.setCell c x).ports = s.ports := rfl
@[simp] theorem State.setCell_power (s : State) (c : Nat) (x : Cell) : (s.setCell c x).power = s.power := rfl
@[simp] theorem State.setCell_relia (s : State) (c : Nat) (x : Cell) : (s.setCell c x).relia = s.relia := rfl
@[simp] theorem State.setCell_boot (s : State) (c : Nat) (x : Cell) : (s.setCell c x).boot = s.boot := rfl
@[simp] theorem State.setCell_sec (s : State) (c : Nat) (x : Cell) : (s.setCell c x).sec = s.sec := rfl
@[simp] theorem State.setCell_reg (s : State) (c : Nat) (x : Cell) (j : Nat) : (s.setCell c x).reg j = s.reg j := rfl
@[simp] theorem State.setCell_blob (s : State) (c : Nat) (x : Cell) (j : Nat) : (s.setCell c x).blob j = s.blob j := rfl

@[simp] theorem State.updCell_pending (s : State) (c : Nat) (f : Cell → Cell) : (s.updCell c f).pending = s.pending := rfl
@[simp] theorem State.updCell_out (s : State) (c : Nat) (f : Cell → Cell) : (s.updCell c f).out = s.out := rfl
@[simp] theorem State.updCell_free (s : State) (c : Nat) (f : Cell → Cell) : (s.updCell c f).free = s.free := rfl
@[simp] theorem State.updCell_time (s : State) (c : Nat) (f : Cell → Cell) : (s.updCell c f).time = s.time := rfl
@[simp] theorem State.updCell_dict (s : State) (c : Nat) (f : Cell → Cell) : (s.updCell c f).dict = s.dict := rfl
@[simp] theorem State.updCell_tiles (s : State) (c : Nat) (f : Cell → Cell) : (s.updCell c f).tiles = s.tiles := rfl
@[simp] theorem State.updCell_tasks (s : State) (c : Nat) (f : Cell → Cell) : (s.updCell c f).tasks = s.tasks := rfl
@[simp] theorem State.updCell_nextTask (s : State) (c : Nat) (f : Cell → Cell) : (s.updCell c f).nextTask = s.nextTask := rfl
@[simp] theorem State.updCell_parts (s : State) (c : Nat) (f : Cell → Cell) : (s.updCell c f).parts = s.parts := rfl
@[simp] theorem State.updCell_booked (s : State) (c : Nat) (f : Cell → Cell) : (s.updCell c f).booked = s.booked := rfl
@[simp] theorem State.updCell_admitted (s : State) (c : Nat) (f : Cell → Cell) : (s.updCell c f).admitted = s.admitted := rfl
@[simp] theorem State.updCell_plls (s : State) (c : Nat) (f : Cell → Cell) : (s.updCell c f).plls = s.plls := rfl
@[simp] theorem State.updCell_mem (s : State) (c : Nat) (f : Cell → Cell) : (s.updCell c f).mem = s.mem := rfl
@[simp] theorem State.updCell_fabric (s : State) (c : Nat) (f : Cell → Cell) : (s.updCell c f).fabric = s.fabric := rfl
@[simp] theorem State.updCell_sync (s : State) (c : Nat) (f : Cell → Cell) : (s.updCell c f).sync = s.sync := rfl
@[simp] theorem State.updCell_rings (s : State) (c : Nat) (f : Cell → Cell) : (s.updCell c f).rings = s.rings := rfl
@[simp] theorem State.updCell_funcs (s : State) (c : Nat) (f : Cell → Cell) : (s.updCell c f).funcs = s.funcs := rfl
@[simp] theorem State.updCell_kernels (s : State) (c : Nat) (f : Cell → Cell) : (s.updCell c f).kernels = s.kernels := rfl
@[simp] theorem State.updCell_models (s : State) (c : Nat) (f : Cell → Cell) : (s.updCell c f).models = s.models := rfl
@[simp] theorem State.updCell_ports (s : State) (c : Nat) (f : Cell → Cell) : (s.updCell c f).ports = s.ports := rfl
@[simp] theorem State.updCell_power (s : State) (c : Nat) (f : Cell → Cell) : (s.updCell c f).power = s.power := rfl
@[simp] theorem State.updCell_relia (s : State) (c : Nat) (f : Cell → Cell) : (s.updCell c f).relia = s.relia := rfl
@[simp] theorem State.updCell_boot (s : State) (c : Nat) (f : Cell → Cell) : (s.updCell c f).boot = s.boot := rfl
@[simp] theorem State.updCell_sec (s : State) (c : Nat) (f : Cell → Cell) : (s.updCell c f).sec = s.sec := rfl
@[simp] theorem State.updCell_reg (s : State) (c : Nat) (f : Cell → Cell) (j : Nat) : (s.updCell c f).reg j = s.reg j := rfl
@[simp] theorem State.updCell_blob (s : State) (c : Nat) (f : Cell → Cell) (j : Nat) : (s.updCell c f).blob j = s.blob j := rfl

@[simp] theorem State.setJob_pending (s : State) (j : Nat) (x : Job) : (s.setJob j x).pending = s.pending := rfl
@[simp] theorem State.setJob_out (s : State) (j : Nat) (x : Job) : (s.setJob j x).out = s.out := rfl
@[simp] theorem State.setJob_free (s : State) (j : Nat) (x : Job) : (s.setJob j x).free = s.free := rfl
@[simp] theorem State.setJob_time (s : State) (j : Nat) (x : Job) : (s.setJob j x).time = s.time := rfl
@[simp] theorem State.setJob_dict (s : State) (j : Nat) (x : Job) : (s.setJob j x).dict = s.dict := rfl
@[simp] theorem State.setJob_tiles (s : State) (j : Nat) (x : Job) : (s.setJob j x).tiles = s.tiles := rfl
@[simp] theorem State.setJob_tasks (s : State) (j : Nat) (x : Job) : (s.setJob j x).tasks = s.tasks := rfl
@[simp] theorem State.setJob_nextTask (s : State) (j : Nat) (x : Job) : (s.setJob j x).nextTask = s.nextTask := rfl
@[simp] theorem State.setJob_parts (s : State) (j : Nat) (x : Job) : (s.setJob j x).parts = s.parts := rfl
@[simp] theorem State.setJob_booked (s : State) (j : Nat) (x : Job) : (s.setJob j x).booked = s.booked := rfl
@[simp] theorem State.setJob_admitted (s : State) (j : Nat) (x : Job) : (s.setJob j x).admitted = s.admitted := rfl
@[simp] theorem State.setJob_plls (s : State) (j : Nat) (x : Job) : (s.setJob j x).plls = s.plls := rfl
@[simp] theorem State.setJob_mem (s : State) (j : Nat) (x : Job) : (s.setJob j x).mem = s.mem := rfl
@[simp] theorem State.setJob_sync (s : State) (j : Nat) (x : Job) : (s.setJob j x).sync = s.sync := rfl
@[simp] theorem State.setJob_rings (s : State) (j : Nat) (x : Job) : (s.setJob j x).rings = s.rings := rfl
@[simp] theorem State.setJob_funcs (s : State) (j : Nat) (x : Job) : (s.setJob j x).funcs = s.funcs := rfl
@[simp] theorem State.setJob_kernels (s : State) (j : Nat) (x : Job) : (s.setJob j x).kernels = s.kernels := rfl
@[simp] theorem State.setJob_models (s : State) (j : Nat) (x : Job) : (s.setJob j x).models = s.models := rfl
@[simp] theorem State.setJob_radio (s : State) (j : Nat) (x : Job) : (s.setJob j x).radio = s.radio := rfl
@[simp] theorem State.setJob_ports (s : State) (j : Nat) (x : Job) : (s.setJob j x).ports = s.ports := rfl
@[simp] theorem State.setJob_power (s : State) (j : Nat) (x : Job) : (s.setJob j x).power = s.power := rfl
@[simp] theorem State.setJob_relia (s : State) (j : Nat) (x : Job) : (s.setJob j x).relia = s.relia := rfl
@[simp] theorem State.setJob_boot (s : State) (j : Nat) (x : Job) : (s.setJob j x).boot = s.boot := rfl
@[simp] theorem State.setJob_sec (s : State) (j : Nat) (x : Job) : (s.setJob j x).sec = s.sec := rfl
@[simp] theorem State.setJob_reg (s : State) (j : Nat) (x : Job) (j : Nat) : (s.setJob j x).reg j = s.reg j := rfl
@[simp] theorem State.setJob_blob (s : State) (j : Nat) (x : Job) (j : Nat) : (s.setJob j x).blob j = s.blob j := rfl

@[simp] theorem State.setLink_pending (s : State) (l : Nat) (x : Link) : (s.setLink l x).pending = s.pending := rfl
@[simp] theorem State.setLink_out (s : State) (l : Nat) (x : Link) : (s.setLink l x).out = s.out := rfl
@[simp] theorem State.setLink_free (s : State) (l : Nat) (x : Link) : (s.setLink l x).free = s.free := rfl
@[simp] theorem State.setLink_time (s : State) (l : Nat) (x : Link) : (s.setLink l x).time = s.time := rfl
@[simp] theorem State.setLink_dict (s : State) (l : Nat) (x : Link) : (s.setLink l x).dict = s.dict := rfl
@[simp] theorem State.setLink_tiles (s : State) (l : Nat) (x : Link) : (s.setLink l x).tiles = s.tiles := rfl
@[simp] theorem State.setLink_tasks (s : State) (l : Nat) (x : Link) : (s.setLink l x).tasks = s.tasks := rfl
@[simp] theorem State.setLink_nextTask (s : State) (l : Nat) (x : Link) : (s.setLink l x).nextTask = s.nextTask := rfl
@[simp] theorem State.setLink_parts (s : State) (l : Nat) (x : Link) : (s.setLink l x).parts = s.parts := rfl
@[simp] theorem State.setLink_booked (s : State) (l : Nat) (x : Link) : (s.setLink l x).booked = s.booked := rfl
@[simp] theorem State.setLink_admitted (s : State) (l : Nat) (x : Link) : (s.setLink l x).admitted = s.admitted := rfl
@[simp] theorem State.setLink_plls (s : State) (l : Nat) (x : Link) : (s.setLink l x).plls = s.plls := rfl
@[simp] theorem State.setLink_mem (s : State) (l : Nat) (x : Link) : (s.setLink l x).mem = s.mem := rfl
@[simp] theorem State.setLink_sync (s : State) (l : Nat) (x : Link) : (s.setLink l x).sync = s.sync := rfl
@[simp] theorem State.setLink_rings (s : State) (l : Nat) (x : Link) : (s.setLink l x).rings = s.rings := rfl
@[simp] theorem State.setLink_funcs (s : State) (l : Nat) (x : Link) : (s.setLink l x).funcs = s.funcs := rfl
@[simp] theorem State.setLink_kernels (s : State) (l : Nat) (x : Link) : (s.setLink l x).kernels = s.kernels := rfl
@[simp] theorem State.setLink_models (s : State) (l : Nat) (x : Link) : (s.setLink l x).models = s.models := rfl
@[simp] theorem State.setLink_radio (s : State) (l : Nat) (x : Link) : (s.setLink l x).radio = s.radio := rfl
@[simp] theorem State.setLink_ports (s : State) (l : Nat) (x : Link) : (s.setLink l x).ports = s.ports := rfl
@[simp] theorem State.setLink_power (s : State) (l : Nat) (x : Link) : (s.setLink l x).power = s.power := rfl
@[simp] theorem State.setLink_relia (s : State) (l : Nat) (x : Link) : (s.setLink l x).relia = s.relia := rfl
@[simp] theorem State.setLink_boot (s : State) (l : Nat) (x : Link) : (s.setLink l x).boot = s.boot := rfl
@[simp] theorem State.setLink_sec (s : State) (l : Nat) (x : Link) : (s.setLink l x).sec = s.sec := rfl
@[simp] theorem State.setLink_reg (s : State) (l : Nat) (x : Link) (j : Nat) : (s.setLink l x).reg j = s.reg j := rfl
@[simp] theorem State.setLink_blob (s : State) (l : Nat) (x : Link) (j : Nat) : (s.setLink l x).blob j = s.blob j := rfl

@[simp] theorem State.setSlot_pending (s : State) (m : Nat) (x : Slot) : (s.setSlot m x).pending = s.pending := rfl
@[simp] theorem State.setSlot_out (s : State) (m : Nat) (x : Slot) : (s.setSlot m x).out = s.out := rfl
@[simp] theorem State.setSlot_free (s : State) (m : Nat) (x : Slot) : (s.setSlot m x).free = s.free := rfl
@[simp] theorem State.setSlot_time (s : State) (m : Nat) (x : Slot) : (s.setSlot m x).time = s.time := rfl
@[simp] theorem State.setSlot_dict (s : State) (m : Nat) (x : Slot) : (s.setSlot m x).dict = s.dict := rfl
@[simp] theorem State.setSlot_tiles (s : State) (m : Nat) (x : Slot) : (s.setSlot m x).tiles = s.tiles := rfl
@[simp] theorem State.setSlot_tasks (s : State) (m : Nat) (x : Slot) : (s.setSlot m x).tasks = s.tasks := rfl
@[simp] theorem State.setSlot_nextTask (s : State) (m : Nat) (x : Slot) : (s.setSlot m x).nextTask = s.nextTask := rfl
@[simp] theorem State.setSlot_parts (s : State) (m : Nat) (x : Slot) : (s.setSlot m x).parts = s.parts := rfl
@[simp] theorem State.setSlot_booked (s : State) (m : Nat) (x : Slot) : (s.setSlot m x).booked = s.booked := rfl
@[simp] theorem State.setSlot_admitted (s : State) (m : Nat) (x : Slot) : (s.setSlot m x).admitted = s.admitted := rfl
@[simp] theorem State.setSlot_plls (s : State) (m : Nat) (x : Slot) : (s.setSlot m x).plls = s.plls := rfl
@[simp] theorem State.setSlot_mem (s : State) (m : Nat) (x : Slot) : (s.setSlot m x).mem = s.mem := rfl
@[simp] theorem State.setSlot_fabric (s : State) (m : Nat) (x : Slot) : (s.setSlot m x).fabric = s.fabric := rfl
@[simp] theorem State.setSlot_sync (s : State) (m : Nat) (x : Slot) : (s.setSlot m x).sync = s.sync := rfl
@[simp] theorem State.setSlot_rings (s : State) (m : Nat) (x : Slot) : (s.setSlot m x).rings = s.rings := rfl
@[simp] theorem State.setSlot_funcs (s : State) (m : Nat) (x : Slot) : (s.setSlot m x).funcs = s.funcs := rfl
@[simp] theorem State.setSlot_kernels (s : State) (m : Nat) (x : Slot) : (s.setSlot m x).kernels = s.kernels := rfl
@[simp] theorem State.setSlot_radio (s : State) (m : Nat) (x : Slot) : (s.setSlot m x).radio = s.radio := rfl
@[simp] theorem State.setSlot_ports (s : State) (m : Nat) (x : Slot) : (s.setSlot m x).ports = s.ports := rfl
@[simp] theorem State.setSlot_power (s : State) (m : Nat) (x : Slot) : (s.setSlot m x).power = s.power := rfl
@[simp] theorem State.setSlot_relia (s : State) (m : Nat) (x : Slot) : (s.setSlot m x).relia = s.relia := rfl
@[simp] theorem State.setSlot_boot (s : State) (m : Nat) (x : Slot) : (s.setSlot m x).boot = s.boot := rfl
@[simp] theorem State.setSlot_sec (s : State) (m : Nat) (x : Slot) : (s.setSlot m x).sec = s.sec := rfl
@[simp] theorem State.setSlot_reg (s : State) (m : Nat) (x : Slot) (j : Nat) : (s.setSlot m x).reg j = s.reg j := rfl
@[simp] theorem State.setSlot_blob (s : State) (m : Nat) (x : Slot) (j : Nat) : (s.setSlot m x).blob j = s.blob j := rfl

@[simp] theorem State.setInv_pending (s : State) (i : Nat) (x : Invocation) : (s.setInv i x).pending = s.pending := rfl
@[simp] theorem State.setInv_out (s : State) (i : Nat) (x : Invocation) : (s.setInv i x).out = s.out := rfl
@[simp] theorem State.setInv_free (s : State) (i : Nat) (x : Invocation) : (s.setInv i x).free = s.free := rfl
@[simp] theorem State.setInv_time (s : State) (i : Nat) (x : Invocation) : (s.setInv i x).time = s.time := rfl
@[simp] theorem State.setInv_dict (s : State) (i : Nat) (x : Invocation) : (s.setInv i x).dict = s.dict := rfl
@[simp] theorem State.setInv_tiles (s : State) (i : Nat) (x : Invocation) : (s.setInv i x).tiles = s.tiles := rfl
@[simp] theorem State.setInv_tasks (s : State) (i : Nat) (x : Invocation) : (s.setInv i x).tasks = s.tasks := rfl
@[simp] theorem State.setInv_nextTask (s : State) (i : Nat) (x : Invocation) : (s.setInv i x).nextTask = s.nextTask := rfl
@[simp] theorem State.setInv_parts (s : State) (i : Nat) (x : Invocation) : (s.setInv i x).parts = s.parts := rfl
@[simp] theorem State.setInv_booked (s : State) (i : Nat) (x : Invocation) : (s.setInv i x).booked = s.booked := rfl
@[simp] theorem State.setInv_admitted (s : State) (i : Nat) (x : Invocation) : (s.setInv i x).admitted = s.admitted := rfl
@[simp] theorem State.setInv_plls (s : State) (i : Nat) (x : Invocation) : (s.setInv i x).plls = s.plls := rfl
@[simp] theorem State.setInv_mem (s : State) (i : Nat) (x : Invocation) : (s.setInv i x).mem = s.mem := rfl
@[simp] theorem State.setInv_fabric (s : State) (i : Nat) (x : Invocation) : (s.setInv i x).fabric = s.fabric := rfl
@[simp] theorem State.setInv_sync (s : State) (i : Nat) (x : Invocation) : (s.setInv i x).sync = s.sync := rfl
@[simp] theorem State.setInv_rings (s : State) (i : Nat) (x : Invocation) : (s.setInv i x).rings = s.rings := rfl
@[simp] theorem State.setInv_funcs (s : State) (i : Nat) (x : Invocation) : (s.setInv i x).funcs = s.funcs := rfl
@[simp] theorem State.setInv_kernels (s : State) (i : Nat) (x : Invocation) : (s.setInv i x).kernels = s.kernels := rfl
@[simp] theorem State.setInv_radio (s : State) (i : Nat) (x : Invocation) : (s.setInv i x).radio = s.radio := rfl
@[simp] theorem State.setInv_ports (s : State) (i : Nat) (x : Invocation) : (s.setInv i x).ports = s.ports := rfl
@[simp] theorem State.setInv_power (s : State) (i : Nat) (x : Invocation) : (s.setInv i x).power = s.power := rfl
@[simp] theorem State.setInv_relia (s : State) (i : Nat) (x : Invocation) : (s.setInv i x).relia = s.relia := rfl
@[simp] theorem State.setInv_boot (s : State) (i : Nat) (x : Invocation) : (s.setInv i x).boot = s.boot := rfl
@[simp] theorem State.setInv_sec (s : State) (i : Nat) (x : Invocation) : (s.setInv i x).sec = s.sec := rfl
@[simp] theorem State.setInv_reg (s : State) (i : Nat) (x : Invocation) (j : Nat) : (s.setInv i x).reg j = s.reg j := rfl
@[simp] theorem State.setInv_blob (s : State) (i : Nat) (x : Invocation) (j : Nat) : (s.setInv i x).blob j = s.blob j := rfl

@[simp] theorem State.putHandle_pending (s : State) (key : Nat) (x : Handle) : (s.putHandle key x).pending = s.pending := rfl
@[simp] theorem State.putHandle_out (s : State) (key : Nat) (x : Handle) : (s.putHandle key x).out = s.out := rfl
@[simp] theorem State.putHandle_free (s : State) (key : Nat) (x : Handle) : (s.putHandle key x).free = s.free := rfl
@[simp] theorem State.putHandle_time (s : State) (key : Nat) (x : Handle) : (s.putHandle key x).time = s.time := rfl
@[simp] theorem State.putHandle_dict (s : State) (key : Nat) (x : Handle) : (s.putHandle key x).dict = s.dict := rfl
@[simp] theorem State.putHandle_tiles (s : State) (key : Nat) (x : Handle) : (s.putHandle key x).tiles = s.tiles := rfl
@[simp] theorem State.putHandle_tasks (s : State) (key : Nat) (x : Handle) : (s.putHandle key x).tasks = s.tasks := rfl
@[simp] theorem State.putHandle_nextTask (s : State) (key : Nat) (x : Handle) : (s.putHandle key x).nextTask = s.nextTask := rfl
@[simp] theorem State.putHandle_parts (s : State) (key : Nat) (x : Handle) : (s.putHandle key x).parts = s.parts := rfl
@[simp] theorem State.putHandle_booked (s : State) (key : Nat) (x : Handle) : (s.putHandle key x).booked = s.booked := rfl
@[simp] theorem State.putHandle_admitted (s : State) (key : Nat) (x : Handle) : (s.putHandle key x).admitted = s.admitted := rfl
@[simp] theorem State.putHandle_plls (s : State) (key : Nat) (x : Handle) : (s.putHandle key x).plls = s.plls := rfl
@[simp] theorem State.putHandle_mem (s : State) (key : Nat) (x : Handle) : (s.putHandle key x).mem = s.mem := rfl
@[simp] theorem State.putHandle_fabric (s : State) (key : Nat) (x : Handle) : (s.putHandle key x).fabric = s.fabric := rfl
@[simp] theorem State.putHandle_sync (s : State) (key : Nat) (x : Handle) : (s.putHandle key x).sync = s.sync := rfl
@[simp] theorem State.putHandle_rings (s : State) (key : Nat) (x : Handle) : (s.putHandle key x).rings = s.rings := rfl
@[simp] theorem State.putHandle_funcs (s : State) (key : Nat) (x : Handle) : (s.putHandle key x).funcs = s.funcs := rfl
@[simp] theorem State.putHandle_kernels (s : State) (key : Nat) (x : Handle) : (s.putHandle key x).kernels = s.kernels := rfl
@[simp] theorem State.putHandle_radio (s : State) (key : Nat) (x : Handle) : (s.putHandle key x).radio = s.radio := rfl
@[simp] theorem State.putHandle_ports (s : State) (key : Nat) (x : Handle) : (s.putHandle key x).ports = s.ports := rfl
@[simp] theorem State.putHandle_power (s : State) (key : Nat) (x : Handle) : (s.putHandle key x).power = s.power := rfl
@[simp] theorem State.putHandle_relia (s : State) (key : Nat) (x : Handle) : (s.putHandle key x).relia = s.relia := rfl
@[simp] theorem State.putHandle_boot (s : State) (key : Nat) (x : Handle) : (s.putHandle key x).boot = s.boot := rfl
@[simp] theorem State.putHandle_sec (s : State) (key : Nat) (x : Handle) : (s.putHandle key x).sec = s.sec := rfl
@[simp] theorem State.putHandle_reg (s : State) (key : Nat) (x : Handle) (j : Nat) : (s.putHandle key x).reg j = s.reg j := rfl
@[simp] theorem State.putHandle_blob (s : State) (key : Nat) (x : Handle) (j : Nat) : (s.putHandle key x).blob j = s.blob j := rfl

@[simp] theorem State.setPort_pending (s : State) (p : Nat) (x : Port) : (s.setPort p x).pending = s.pending := rfl
@[simp] theorem State.setPort_out (s : State) (p : Nat) (x : Port) : (s.setPort p x).out = s.out := rfl
@[simp] theorem State.setPort_free (s : State) (p : Nat) (x : Port) : (s.setPort p x).free = s.free := rfl
@[simp] theorem State.setPort_time (s : State) (p : Nat) (x : Port) : (s.setPort p x).time = s.time := rfl
@[simp] theorem State.setPort_dict (s : State) (p : Nat) (x : Port) : (s.setPort p x).dict = s.dict := rfl
@[simp] theorem State.setPort_tiles (s : State) (p : Nat) (x : Port) : (s.setPort p x).tiles = s.tiles := rfl
@[simp] theorem State.setPort_tasks (s : State) (p : Nat) (x : Port) : (s.setPort p x).tasks = s.tasks := rfl
@[simp] theorem State.setPort_nextTask (s : State) (p : Nat) (x : Port) : (s.setPort p x).nextTask = s.nextTask := rfl
@[simp] theorem State.setPort_parts (s : State) (p : Nat) (x : Port) : (s.setPort p x).parts = s.parts := rfl
@[simp] theorem State.setPort_booked (s : State) (p : Nat) (x : Port) : (s.setPort p x).booked = s.booked := rfl
@[simp] theorem State.setPort_admitted (s : State) (p : Nat) (x : Port) : (s.setPort p x).admitted = s.admitted := rfl
@[simp] theorem State.setPort_plls (s : State) (p : Nat) (x : Port) : (s.setPort p x).plls = s.plls := rfl
@[simp] theorem State.setPort_mem (s : State) (p : Nat) (x : Port) : (s.setPort p x).mem = s.mem := rfl
@[simp] theorem State.setPort_fabric (s : State) (p : Nat) (x : Port) : (s.setPort p x).fabric = s.fabric := rfl
@[simp] theorem State.setPort_sync (s : State) (p : Nat) (x : Port) : (s.setPort p x).sync = s.sync := rfl
@[simp] theorem State.setPort_rings (s : State) (p : Nat) (x : Port) : (s.setPort p x).rings = s.rings := rfl
@[simp] theorem State.setPort_funcs (s : State) (p : Nat) (x : Port) : (s.setPort p x).funcs = s.funcs := rfl
@[simp] theorem State.setPort_kernels (s : State) (p : Nat) (x : Port) : (s.setPort p x).kernels = s.kernels := rfl
@[simp] theorem State.setPort_models (s : State) (p : Nat) (x : Port) : (s.setPort p x).models = s.models := rfl
@[simp] theorem State.setPort_radio (s : State) (p : Nat) (x : Port) : (s.setPort p x).radio = s.radio := rfl
@[simp] theorem State.setPort_power (s : State) (p : Nat) (x : Port) : (s.setPort p x).power = s.power := rfl
@[simp] theorem State.setPort_relia (s : State) (p : Nat) (x : Port) : (s.setPort p x).relia = s.relia := rfl
@[simp] theorem State.setPort_boot (s : State) (p : Nat) (x : Port) : (s.setPort p x).boot = s.boot := rfl
@[simp] theorem State.setPort_sec (s : State) (p : Nat) (x : Port) : (s.setPort p x).sec = s.sec := rfl
@[simp] theorem State.setPort_reg (s : State) (p : Nat) (x : Port) (j : Nat) : (s.setPort p x).reg j = s.reg j := rfl
@[simp] theorem State.setPort_blob (s : State) (p : Nat) (x : Port) (j : Nat) : (s.setPort p x).blob j = s.blob j := rfl

@[simp] theorem State.setSpdm_pending (s : State) (c : SpdmChannel) (x : SpdmState) : (s.setSpdm c x).pending = s.pending := rfl
@[simp] theorem State.setSpdm_out (s : State) (c : SpdmChannel) (x : SpdmState) : (s.setSpdm c x).out = s.out := rfl
@[simp] theorem State.setSpdm_free (s : State) (c : SpdmChannel) (x : SpdmState) : (s.setSpdm c x).free = s.free := rfl
@[simp] theorem State.setSpdm_time (s : State) (c : SpdmChannel) (x : SpdmState) : (s.setSpdm c x).time = s.time := rfl
@[simp] theorem State.setSpdm_dict (s : State) (c : SpdmChannel) (x : SpdmState) : (s.setSpdm c x).dict = s.dict := rfl
@[simp] theorem State.setSpdm_tiles (s : State) (c : SpdmChannel) (x : SpdmState) : (s.setSpdm c x).tiles = s.tiles := rfl
@[simp] theorem State.setSpdm_tasks (s : State) (c : SpdmChannel) (x : SpdmState) : (s.setSpdm c x).tasks = s.tasks := rfl
@[simp] theorem State.setSpdm_nextTask (s : State) (c : SpdmChannel) (x : SpdmState) : (s.setSpdm c x).nextTask = s.nextTask := rfl
@[simp] theorem State.setSpdm_parts (s : State) (c : SpdmChannel) (x : SpdmState) : (s.setSpdm c x).parts = s.parts := rfl
@[simp] theorem State.setSpdm_booked (s : State) (c : SpdmChannel) (x : SpdmState) : (s.setSpdm c x).booked = s.booked := rfl
@[simp] theorem State.setSpdm_admitted (s : State) (c : SpdmChannel) (x : SpdmState) : (s.setSpdm c x).admitted = s.admitted := rfl
@[simp] theorem State.setSpdm_plls (s : State) (c : SpdmChannel) (x : SpdmState) : (s.setSpdm c x).plls = s.plls := rfl
@[simp] theorem State.setSpdm_mem (s : State) (c : SpdmChannel) (x : SpdmState) : (s.setSpdm c x).mem = s.mem := rfl
@[simp] theorem State.setSpdm_fabric (s : State) (c : SpdmChannel) (x : SpdmState) : (s.setSpdm c x).fabric = s.fabric := rfl
@[simp] theorem State.setSpdm_sync (s : State) (c : SpdmChannel) (x : SpdmState) : (s.setSpdm c x).sync = s.sync := rfl
@[simp] theorem State.setSpdm_rings (s : State) (c : SpdmChannel) (x : SpdmState) : (s.setSpdm c x).rings = s.rings := rfl
@[simp] theorem State.setSpdm_funcs (s : State) (c : SpdmChannel) (x : SpdmState) : (s.setSpdm c x).funcs = s.funcs := rfl
@[simp] theorem State.setSpdm_kernels (s : State) (c : SpdmChannel) (x : SpdmState) : (s.setSpdm c x).kernels = s.kernels := rfl
@[simp] theorem State.setSpdm_models (s : State) (c : SpdmChannel) (x : SpdmState) : (s.setSpdm c x).models = s.models := rfl
@[simp] theorem State.setSpdm_radio (s : State) (c : SpdmChannel) (x : SpdmState) : (s.setSpdm c x).radio = s.radio := rfl
@[simp] theorem State.setSpdm_ports (s : State) (c : SpdmChannel) (x : SpdmState) : (s.setSpdm c x).ports = s.ports := rfl
@[simp] theorem State.setSpdm_power (s : State) (c : SpdmChannel) (x : SpdmState) : (s.setSpdm c x).power = s.power := rfl
@[simp] theorem State.setSpdm_relia (s : State) (c : SpdmChannel) (x : SpdmState) : (s.setSpdm c x).relia = s.relia := rfl
@[simp] theorem State.setSpdm_boot (s : State) (c : SpdmChannel) (x : SpdmState) : (s.setSpdm c x).boot = s.boot := rfl
@[simp] theorem State.setSpdm_reg (s : State) (c : SpdmChannel) (x : SpdmState) (j : Nat) : (s.setSpdm c x).reg j = s.reg j := rfl
@[simp] theorem State.setSpdm_blob (s : State) (c : SpdmChannel) (x : SpdmState) (j : Nat) : (s.setSpdm c x).blob j = s.blob j := rfl

@[simp] theorem State.setQuiet_pending (s : State) (p : Nat) (q : Quiet) : (s.setQuiet p q).pending = s.pending := rfl
@[simp] theorem State.setQuiet_out (s : State) (p : Nat) (q : Quiet) : (s.setQuiet p q).out = s.out := rfl
@[simp] theorem State.setQuiet_free (s : State) (p : Nat) (q : Quiet) : (s.setQuiet p q).free = s.free := rfl
@[simp] theorem State.setQuiet_time (s : State) (p : Nat) (q : Quiet) : (s.setQuiet p q).time = s.time := rfl
@[simp] theorem State.setQuiet_dict (s : State) (p : Nat) (q : Quiet) : (s.setQuiet p q).dict = s.dict := rfl
@[simp] theorem State.setQuiet_tiles (s : State) (p : Nat) (q : Quiet) : (s.setQuiet p q).tiles = s.tiles := rfl
@[simp] theorem State.setQuiet_tasks (s : State) (p : Nat) (q : Quiet) : (s.setQuiet p q).tasks = s.tasks := rfl
@[simp] theorem State.setQuiet_nextTask (s : State) (p : Nat) (q : Quiet) : (s.setQuiet p q).nextTask = s.nextTask := rfl
@[simp] theorem State.setQuiet_parts (s : State) (p : Nat) (q : Quiet) : (s.setQuiet p q).parts = s.parts := rfl
@[simp] theorem State.setQuiet_booked (s : State) (p : Nat) (q : Quiet) : (s.setQuiet p q).booked = s.booked := rfl
@[simp] theorem State.setQuiet_admitted (s : State) (p : Nat) (q : Quiet) : (s.setQuiet p q).admitted = s.admitted := rfl
@[simp] theorem State.setQuiet_plls (s : State) (p : Nat) (q : Quiet) : (s.setQuiet p q).plls = s.plls := rfl
@[simp] theorem State.setQuiet_mem (s : State) (p : Nat) (q : Quiet) : (s.setQuiet p q).mem = s.mem := rfl
@[simp] theorem State.setQuiet_fabric (s : State) (p : Nat) (q : Quiet) : (s.setQuiet p q).fabric = s.fabric := rfl
@[simp] theorem State.setQuiet_rings (s : State) (p : Nat) (q : Quiet) : (s.setQuiet p q).rings = s.rings := rfl
@[simp] theorem State.setQuiet_funcs (s : State) (p : Nat) (q : Quiet) : (s.setQuiet p q).funcs = s.funcs := rfl
@[simp] theorem State.setQuiet_kernels (s : State) (p : Nat) (q : Quiet) : (s.setQuiet p q).kernels = s.kernels := rfl
@[simp] theorem State.setQuiet_models (s : State) (p : Nat) (q : Quiet) : (s.setQuiet p q).models = s.models := rfl
@[simp] theorem State.setQuiet_radio (s : State) (p : Nat) (q : Quiet) : (s.setQuiet p q).radio = s.radio := rfl
@[simp] theorem State.setQuiet_ports (s : State) (p : Nat) (q : Quiet) : (s.setQuiet p q).ports = s.ports := rfl
@[simp] theorem State.setQuiet_power (s : State) (p : Nat) (q : Quiet) : (s.setQuiet p q).power = s.power := rfl
@[simp] theorem State.setQuiet_relia (s : State) (p : Nat) (q : Quiet) : (s.setQuiet p q).relia = s.relia := rfl
@[simp] theorem State.setQuiet_boot (s : State) (p : Nat) (q : Quiet) : (s.setQuiet p q).boot = s.boot := rfl
@[simp] theorem State.setQuiet_sec (s : State) (p : Nat) (q : Quiet) : (s.setQuiet p q).sec = s.sec := rfl
@[simp] theorem State.setQuiet_reg (s : State) (p : Nat) (q : Quiet) (j : Nat) : (s.setQuiet p q).reg j = s.reg j := rfl
@[simp] theorem State.setQuiet_blob (s : State) (p : Nat) (q : Quiet) (j : Nat) : (s.setQuiet p q).blob j = s.blob j := rfl

@[simp] theorem State.setSwitch_pending (s : State) (n : Nat) (x : FwSwitch) : (s.setSwitch n x).pending = s.pending := rfl
@[simp] theorem State.setSwitch_out (s : State) (n : Nat) (x : FwSwitch) : (s.setSwitch n x).out = s.out := rfl
@[simp] theorem State.setSwitch_free (s : State) (n : Nat) (x : FwSwitch) : (s.setSwitch n x).free = s.free := rfl
@[simp] theorem State.setSwitch_time (s : State) (n : Nat) (x : FwSwitch) : (s.setSwitch n x).time = s.time := rfl
@[simp] theorem State.setSwitch_dict (s : State) (n : Nat) (x : FwSwitch) : (s.setSwitch n x).dict = s.dict := rfl
@[simp] theorem State.setSwitch_tiles (s : State) (n : Nat) (x : FwSwitch) : (s.setSwitch n x).tiles = s.tiles := rfl
@[simp] theorem State.setSwitch_tasks (s : State) (n : Nat) (x : FwSwitch) : (s.setSwitch n x).tasks = s.tasks := rfl
@[simp] theorem State.setSwitch_nextTask (s : State) (n : Nat) (x : FwSwitch) : (s.setSwitch n x).nextTask = s.nextTask := rfl
@[simp] theorem State.setSwitch_parts (s : State) (n : Nat) (x : FwSwitch) : (s.setSwitch n x).parts = s.parts := rfl
@[simp] theorem State.setSwitch_booked (s : State) (n : Nat) (x : FwSwitch) : (s.setSwitch n x).booked = s.booked := rfl
@[simp] theorem State.setSwitch_admitted (s : State) (n : Nat) (x : FwSwitch) : (s.setSwitch n x).admitted = s.admitted := rfl
@[simp] theorem State.setSwitch_plls (s : State) (n : Nat) (x : FwSwitch) : (s.setSwitch n x).plls = s.plls := rfl
@[simp] theorem State.setSwitch_mem (s : State) (n : Nat) (x : FwSwitch) : (s.setSwitch n x).mem = s.mem := rfl
@[simp] theorem State.setSwitch_fabric (s : State) (n : Nat) (x : FwSwitch) : (s.setSwitch n x).fabric = s.fabric := rfl
@[simp] theorem State.setSwitch_sync (s : State) (n : Nat) (x : FwSwitch) : (s.setSwitch n x).sync = s.sync := rfl
@[simp] theorem State.setSwitch_rings (s : State) (n : Nat) (x : FwSwitch) : (s.setSwitch n x).rings = s.rings := rfl
@[simp] theorem State.setSwitch_funcs (s : State) (n : Nat) (x : FwSwitch) : (s.setSwitch n x).funcs = s.funcs := rfl
@[simp] theorem State.setSwitch_kernels (s : State) (n : Nat) (x : FwSwitch) : (s.setSwitch n x).kernels = s.kernels := rfl
@[simp] theorem State.setSwitch_models (s : State) (n : Nat) (x : FwSwitch) : (s.setSwitch n x).models = s.models := rfl
@[simp] theorem State.setSwitch_radio (s : State) (n : Nat) (x : FwSwitch) : (s.setSwitch n x).radio = s.radio := rfl
@[simp] theorem State.setSwitch_ports (s : State) (n : Nat) (x : FwSwitch) : (s.setSwitch n x).ports = s.ports := rfl
@[simp] theorem State.setSwitch_power (s : State) (n : Nat) (x : FwSwitch) : (s.setSwitch n x).power = s.power := rfl
@[simp] theorem State.setSwitch_boot (s : State) (n : Nat) (x : FwSwitch) : (s.setSwitch n x).boot = s.boot := rfl
@[simp] theorem State.setSwitch_sec (s : State) (n : Nat) (x : FwSwitch) : (s.setSwitch n x).sec = s.sec := rfl
@[simp] theorem State.setSwitch_reg (s : State) (n : Nat) (x : FwSwitch) (j : Nat) : (s.setSwitch n x).reg j = s.reg j := rfl
@[simp] theorem State.setSwitch_blob (s : State) (n : Nat) (x : FwSwitch) (j : Nat) : (s.setSwitch n x).blob j = s.blob j := rfl

@[simp] theorem State.setLog_pending (s : State) (l : List LogEntry) : (s.setLog l).pending = s.pending := rfl
@[simp] theorem State.setLog_out (s : State) (l : List LogEntry) : (s.setLog l).out = s.out := rfl
@[simp] theorem State.setLog_free (s : State) (l : List LogEntry) : (s.setLog l).free = s.free := rfl
@[simp] theorem State.setLog_time (s : State) (l : List LogEntry) : (s.setLog l).time = s.time := rfl
@[simp] theorem State.setLog_tiles (s : State) (l : List LogEntry) : (s.setLog l).tiles = s.tiles := rfl
@[simp] theorem State.setLog_tasks (s : State) (l : List LogEntry) : (s.setLog l).tasks = s.tasks := rfl
@[simp] theorem State.setLog_nextTask (s : State) (l : List LogEntry) : (s.setLog l).nextTask = s.nextTask := rfl
@[simp] theorem State.setLog_parts (s : State) (l : List LogEntry) : (s.setLog l).parts = s.parts := rfl
@[simp] theorem State.setLog_booked (s : State) (l : List LogEntry) : (s.setLog l).booked = s.booked := rfl
@[simp] theorem State.setLog_admitted (s : State) (l : List LogEntry) : (s.setLog l).admitted = s.admitted := rfl
@[simp] theorem State.setLog_plls (s : State) (l : List LogEntry) : (s.setLog l).plls = s.plls := rfl
@[simp] theorem State.setLog_mem (s : State) (l : List LogEntry) : (s.setLog l).mem = s.mem := rfl
@[simp] theorem State.setLog_fabric (s : State) (l : List LogEntry) : (s.setLog l).fabric = s.fabric := rfl
@[simp] theorem State.setLog_sync (s : State) (l : List LogEntry) : (s.setLog l).sync = s.sync := rfl
@[simp] theorem State.setLog_rings (s : State) (l : List LogEntry) : (s.setLog l).rings = s.rings := rfl
@[simp] theorem State.setLog_funcs (s : State) (l : List LogEntry) : (s.setLog l).funcs = s.funcs := rfl
@[simp] theorem State.setLog_kernels (s : State) (l : List LogEntry) : (s.setLog l).kernels = s.kernels := rfl
@[simp] theorem State.setLog_models (s : State) (l : List LogEntry) : (s.setLog l).models = s.models := rfl
@[simp] theorem State.setLog_radio (s : State) (l : List LogEntry) : (s.setLog l).radio = s.radio := rfl
@[simp] theorem State.setLog_ports (s : State) (l : List LogEntry) : (s.setLog l).ports = s.ports := rfl
@[simp] theorem State.setLog_power (s : State) (l : List LogEntry) : (s.setLog l).power = s.power := rfl
@[simp] theorem State.setLog_boot (s : State) (l : List LogEntry) : (s.setLog l).boot = s.boot := rfl
@[simp] theorem State.setLog_sec (s : State) (l : List LogEntry) : (s.setLog l).sec = s.sec := rfl

@[simp] theorem State.setObject_pending (s : State) (i : Nat) (o : SyncObj) : (s.setObject i o).pending = s.pending := rfl
@[simp] theorem State.setObject_out (s : State) (i : Nat) (o : SyncObj) : (s.setObject i o).out = s.out := rfl
@[simp] theorem State.setObject_free (s : State) (i : Nat) (o : SyncObj) : (s.setObject i o).free = s.free := rfl
@[simp] theorem State.setObject_time (s : State) (i : Nat) (o : SyncObj) : (s.setObject i o).time = s.time := rfl
@[simp] theorem State.setObject_dict (s : State) (i : Nat) (o : SyncObj) : (s.setObject i o).dict = s.dict := rfl
@[simp] theorem State.setObject_tiles (s : State) (i : Nat) (o : SyncObj) : (s.setObject i o).tiles = s.tiles := rfl
@[simp] theorem State.setObject_tasks (s : State) (i : Nat) (o : SyncObj) : (s.setObject i o).tasks = s.tasks := rfl
@[simp] theorem State.setObject_nextTask (s : State) (i : Nat) (o : SyncObj) : (s.setObject i o).nextTask = s.nextTask := rfl
@[simp] theorem State.setObject_parts (s : State) (i : Nat) (o : SyncObj) : (s.setObject i o).parts = s.parts := rfl
@[simp] theorem State.setObject_booked (s : State) (i : Nat) (o : SyncObj) : (s.setObject i o).booked = s.booked := rfl
@[simp] theorem State.setObject_admitted (s : State) (i : Nat) (o : SyncObj) : (s.setObject i o).admitted = s.admitted := rfl
@[simp] theorem State.setObject_plls (s : State) (i : Nat) (o : SyncObj) : (s.setObject i o).plls = s.plls := rfl
@[simp] theorem State.setObject_mem (s : State) (i : Nat) (o : SyncObj) : (s.setObject i o).mem = s.mem := rfl
@[simp] theorem State.setObject_fabric (s : State) (i : Nat) (o : SyncObj) : (s.setObject i o).fabric = s.fabric := rfl
@[simp] theorem State.setObject_rings (s : State) (i : Nat) (o : SyncObj) : (s.setObject i o).rings = s.rings := rfl
@[simp] theorem State.setObject_funcs (s : State) (i : Nat) (o : SyncObj) : (s.setObject i o).funcs = s.funcs := rfl
@[simp] theorem State.setObject_kernels (s : State) (i : Nat) (o : SyncObj) : (s.setObject i o).kernels = s.kernels := rfl
@[simp] theorem State.setObject_models (s : State) (i : Nat) (o : SyncObj) : (s.setObject i o).models = s.models := rfl
@[simp] theorem State.setObject_radio (s : State) (i : Nat) (o : SyncObj) : (s.setObject i o).radio = s.radio := rfl
@[simp] theorem State.setObject_ports (s : State) (i : Nat) (o : SyncObj) : (s.setObject i o).ports = s.ports := rfl
@[simp] theorem State.setObject_power (s : State) (i : Nat) (o : SyncObj) : (s.setObject i o).power = s.power := rfl
@[simp] theorem State.setObject_relia (s : State) (i : Nat) (o : SyncObj) : (s.setObject i o).relia = s.relia := rfl
@[simp] theorem State.setObject_boot (s : State) (i : Nat) (o : SyncObj) : (s.setObject i o).boot = s.boot := rfl
@[simp] theorem State.setObject_sec (s : State) (i : Nat) (o : SyncObj) : (s.setObject i o).sec = s.sec := rfl
@[simp] theorem State.setObject_reg (s : State) (i : Nat) (o : SyncObj) (j : Nat) : (s.setObject i o).reg j = s.reg j := rfl
@[simp] theorem State.setObject_blob (s : State) (i : Nat) (o : SyncObj) (j : Nat) : (s.setObject i o).blob j = s.blob j := rfl

@[simp] theorem State.setReg_dict_blobs (s : State) (k : Nat) (v : Int) : (s.setReg k v).dict.blobs = s.dict.blobs := rfl
@[simp] theorem State.setReg_dict_store (s : State) (k : Nat) (v : Int) : (s.setReg k v).dict.store = s.dict.store := rfl
@[simp] theorem State.setReg_dict_entries (s : State) (k : Nat) (v : Int) : (s.setReg k v).dict.entries = s.dict.entries := rfl
@[simp] theorem State.setReg_dict_writes (s : State) (k : Nat) (v : Int) : (s.setReg k v).dict.writes = s.dict.writes := rfl
@[simp] theorem State.setReg_dict_stages (s : State) (k : Nat) (v : Int) : (s.setReg k v).dict.stages = s.dict.stages := rfl
@[simp] theorem State.setReg_dict_subs (s : State) (k : Nat) (v : Int) : (s.setReg k v).dict.subs = s.dict.subs := rfl
@[simp] theorem State.setReg_dict_notes (s : State) (k : Nat) (v : Int) : (s.setReg k v).dict.notes = s.dict.notes := rfl
@[simp] theorem State.setReg_dict_noteSeq (s : State) (k : Nat) (v : Int) : (s.setReg k v).dict.noteSeq = s.dict.noteSeq := rfl
@[simp] theorem State.setReg_dict_sessions (s : State) (k : Nat) (v : Int) : (s.setReg k v).dict.sessions = s.dict.sessions := rfl
@[simp] theorem State.setReg_dict_handshakes (s : State) (k : Nat) (v : Int) : (s.setReg k v).dict.handshakes = s.dict.handshakes := rfl
@[simp] theorem State.setReg_dict_vendorOpen (s : State) (k : Nat) (v : Int) : (s.setReg k v).dict.vendorOpen = s.dict.vendorOpen := rfl
@[simp] theorem State.setReg_dict_windows (s : State) (k : Nat) (v : Int) : (s.setReg k v).dict.windows = s.dict.windows := rfl

@[simp] theorem State.setBlob_dict_regs (s : State) (k : Nat) (v : List Byte) : (s.setBlob k v).dict.regs = s.dict.regs := rfl
@[simp] theorem State.setBlob_dict_store (s : State) (k : Nat) (v : List Byte) : (s.setBlob k v).dict.store = s.dict.store := rfl
@[simp] theorem State.setBlob_dict_entries (s : State) (k : Nat) (v : List Byte) : (s.setBlob k v).dict.entries = s.dict.entries := rfl
@[simp] theorem State.setBlob_dict_writes (s : State) (k : Nat) (v : List Byte) : (s.setBlob k v).dict.writes = s.dict.writes := rfl
@[simp] theorem State.setBlob_dict_stages (s : State) (k : Nat) (v : List Byte) : (s.setBlob k v).dict.stages = s.dict.stages := rfl
@[simp] theorem State.setBlob_dict_subs (s : State) (k : Nat) (v : List Byte) : (s.setBlob k v).dict.subs = s.dict.subs := rfl
@[simp] theorem State.setBlob_dict_notes (s : State) (k : Nat) (v : List Byte) : (s.setBlob k v).dict.notes = s.dict.notes := rfl
@[simp] theorem State.setBlob_dict_noteSeq (s : State) (k : Nat) (v : List Byte) : (s.setBlob k v).dict.noteSeq = s.dict.noteSeq := rfl
@[simp] theorem State.setBlob_dict_sessions (s : State) (k : Nat) (v : List Byte) : (s.setBlob k v).dict.sessions = s.dict.sessions := rfl
@[simp] theorem State.setBlob_dict_handshakes (s : State) (k : Nat) (v : List Byte) : (s.setBlob k v).dict.handshakes = s.dict.handshakes := rfl
@[simp] theorem State.setBlob_dict_vendorOpen (s : State) (k : Nat) (v : List Byte) : (s.setBlob k v).dict.vendorOpen = s.dict.vendorOpen := rfl
@[simp] theorem State.setBlob_dict_windows (s : State) (k : Nat) (v : List Byte) : (s.setBlob k v).dict.windows = s.dict.windows := rfl

@[simp] theorem State.bump_dict_blobs (s : State) (k n : Nat) : (s.bump k n).dict.blobs = s.dict.blobs := rfl
@[simp] theorem State.bump_dict_store (s : State) (k n : Nat) : (s.bump k n).dict.store = s.dict.store := rfl
@[simp] theorem State.bump_dict_entries (s : State) (k n : Nat) : (s.bump k n).dict.entries = s.dict.entries := rfl
@[simp] theorem State.bump_dict_writes (s : State) (k n : Nat) : (s.bump k n).dict.writes = s.dict.writes := rfl
@[simp] theorem State.bump_dict_stages (s : State) (k n : Nat) : (s.bump k n).dict.stages = s.dict.stages := rfl
@[simp] theorem State.bump_dict_subs (s : State) (k n : Nat) : (s.bump k n).dict.subs = s.dict.subs := rfl
@[simp] theorem State.bump_dict_notes (s : State) (k n : Nat) : (s.bump k n).dict.notes = s.dict.notes := rfl
@[simp] theorem State.bump_dict_noteSeq (s : State) (k n : Nat) : (s.bump k n).dict.noteSeq = s.dict.noteSeq := rfl
@[simp] theorem State.bump_dict_sessions (s : State) (k n : Nat) : (s.bump k n).dict.sessions = s.dict.sessions := rfl
@[simp] theorem State.bump_dict_handshakes (s : State) (k n : Nat) : (s.bump k n).dict.handshakes = s.dict.handshakes := rfl
@[simp] theorem State.bump_dict_vendorOpen (s : State) (k n : Nat) : (s.bump k n).dict.vendorOpen = s.dict.vendorOpen := rfl
@[simp] theorem State.bump_dict_windows (s : State) (k n : Nat) : (s.bump k n).dict.windows = s.dict.windows := rfl

@[simp] theorem State.setSession_dict_regs (s : State) (k : Nat) (x : Session) : (s.setSession k x).dict.regs = s.dict.regs := rfl
@[simp] theorem State.setSession_dict_blobs (s : State) (k : Nat) (x : Session) : (s.setSession k x).dict.blobs = s.dict.blobs := rfl
@[simp] theorem State.setSession_dict_store (s : State) (k : Nat) (x : Session) : (s.setSession k x).dict.store = s.dict.store := rfl
@[simp] theorem State.setSession_dict_entries (s : State) (k : Nat) (x : Session) : (s.setSession k x).dict.entries = s.dict.entries := rfl
@[simp] theorem State.setSession_dict_writes (s : State) (k : Nat) (x : Session) : (s.setSession k x).dict.writes = s.dict.writes := rfl
@[simp] theorem State.setSession_dict_stages (s : State) (k : Nat) (x : Session) : (s.setSession k x).dict.stages = s.dict.stages := rfl
@[simp] theorem State.setSession_dict_subs (s : State) (k : Nat) (x : Session) : (s.setSession k x).dict.subs = s.dict.subs := rfl
@[simp] theorem State.setSession_dict_notes (s : State) (k : Nat) (x : Session) : (s.setSession k x).dict.notes = s.dict.notes := rfl
@[simp] theorem State.setSession_dict_noteSeq (s : State) (k : Nat) (x : Session) : (s.setSession k x).dict.noteSeq = s.dict.noteSeq := rfl
@[simp] theorem State.setSession_dict_handshakes (s : State) (k : Nat) (x : Session) : (s.setSession k x).dict.handshakes = s.dict.handshakes := rfl
@[simp] theorem State.setSession_dict_vendorOpen (s : State) (k : Nat) (x : Session) : (s.setSession k x).dict.vendorOpen = s.dict.vendorOpen := rfl
@[simp] theorem State.setSession_dict_windows (s : State) (k : Nat) (x : Session) : (s.setSession k x).dict.windows = s.dict.windows := rfl

@[simp] theorem State.setSubs_dict_regs (s : State) (k : Nat) (l : List Subscription) : (s.setSubs k l).dict.regs = s.dict.regs := rfl
@[simp] theorem State.setSubs_dict_blobs (s : State) (k : Nat) (l : List Subscription) : (s.setSubs k l).dict.blobs = s.dict.blobs := rfl
@[simp] theorem State.setSubs_dict_store (s : State) (k : Nat) (l : List Subscription) : (s.setSubs k l).dict.store = s.dict.store := rfl
@[simp] theorem State.setSubs_dict_entries (s : State) (k : Nat) (l : List Subscription) : (s.setSubs k l).dict.entries = s.dict.entries := rfl
@[simp] theorem State.setSubs_dict_writes (s : State) (k : Nat) (l : List Subscription) : (s.setSubs k l).dict.writes = s.dict.writes := rfl
@[simp] theorem State.setSubs_dict_stages (s : State) (k : Nat) (l : List Subscription) : (s.setSubs k l).dict.stages = s.dict.stages := rfl
@[simp] theorem State.setSubs_dict_notes (s : State) (k : Nat) (l : List Subscription) : (s.setSubs k l).dict.notes = s.dict.notes := rfl
@[simp] theorem State.setSubs_dict_noteSeq (s : State) (k : Nat) (l : List Subscription) : (s.setSubs k l).dict.noteSeq = s.dict.noteSeq := rfl
@[simp] theorem State.setSubs_dict_sessions (s : State) (k : Nat) (l : List Subscription) : (s.setSubs k l).dict.sessions = s.dict.sessions := rfl
@[simp] theorem State.setSubs_dict_handshakes (s : State) (k : Nat) (l : List Subscription) : (s.setSubs k l).dict.handshakes = s.dict.handshakes := rfl
@[simp] theorem State.setSubs_dict_vendorOpen (s : State) (k : Nat) (l : List Subscription) : (s.setSubs k l).dict.vendorOpen = s.dict.vendorOpen := rfl
@[simp] theorem State.setSubs_dict_windows (s : State) (k : Nat) (l : List Subscription) : (s.setSubs k l).dict.windows = s.dict.windows := rfl

end Sys2Proof.Machine
end

