-- ==== Sys2Proof/Laws/Table.lean ====
section
/-! SUPPORT. The laws of the sparse table: what is read after a write, and that every write keeps the canonical form. -/

namespace Sys2Proof.Table

variable {α : Type}

theorem get_insert_self (d : α) (t : Table α) (k : Nat) (v : α) : get d (insert t k v) k = v := by
  induction t with
  | nil => simp [insert, get]
  | cons p r ih =>
    obtain ⟨i, w⟩ := p
    by_cases h : i = k
    · simp [insert, get, h]
    · by_cases h' : k < i
      · simp [insert, get, h, h']
      · simp [insert, get, h, h', ih]

theorem get_insert_ne (d : α) (t : Table α) (k j : Nat) (v : α) (hk : j ≠ k) : get d (insert t k v) j = get d t j := by
  induction t with
  | nil => simp [insert, get, Ne.symm hk]
  | cons p r ih =>
    obtain ⟨i, w⟩ := p
    by_cases h : i = k
    · subst h
      simp [insert, get, Ne.symm hk]
    · by_cases h' : k < i
      · simp [insert, get, h, h', Ne.symm hk]
      · by_cases hj : i = j
        · subst hj
          simp [insert, get, h, h']
        · simp [insert, get, h, h', hj, ih]

theorem get_erase_ne (d : α) (t : Table α) (k j : Nat) (hk : j ≠ k) : get d (erase t k) j = get d t j := by
  induction t with
  | nil => rfl
  | cons p r ih =>
    obtain ⟨i, w⟩ := p
    by_cases h : i = k
    · subst h
      simp [erase, get, Ne.symm hk]
    · by_cases hj : i = j
      · simp [erase, get, hk, hj]
      · simp [erase, get, h, hj, ih]

theorem rising_weaken (t : Table α) {a b : Nat} (h : a ≤ b) (hr : rising (some b) t = true) : rising (some a) t = true := by
  cases t with
  | nil => rfl
  | cons p r =>
    obtain ⟨i, w⟩ := p
    simp only [rising, Bool.and_eq_true, decide_eq_true_eq] at hr ⊢
    exact ⟨by omega, hr.2⟩

theorem rising_none (t : Table α) {a : Nat} (hr : rising (some a) t = true) : rising none t = true := by
  cases t with
  | nil => rfl
  | cons p r =>
    obtain ⟨i, w⟩ := p
    simp only [rising, Bool.and_eq_true] at hr ⊢
    exact ⟨trivial, hr.2⟩

theorem get_below (d : α) (t : Table α) (k : Nat) (hr : rising (some k) t = true) : get d t k = d := by
  induction t with
  | nil => rfl
  | cons p r ih =>
    obtain ⟨i, w⟩ := p
    simp only [rising, Bool.and_eq_true, decide_eq_true_eq] at hr
    have hne : i ≠ k := by omega
    simp only [get, hne, if_false]
    exact ih (rising_weaken r (by omega) hr.2)

theorem get_erase_self (d : α) (t : Table α) (k : Nat) (hr : rising none t = true) : get d (erase t k) k = d := by
  induction t with
  | nil => rfl
  | cons p r ih =>
    obtain ⟨i, w⟩ := p
    simp only [rising, Bool.and_eq_true] at hr
    by_cases h : i = k
    · subst h
      simpa [erase] using get_below d r i hr.2
    · simpa [erase, get, h] using ih (rising_none r hr.2)

theorem rising_erase (t : Table α) (k : Nat) {lo : Option Nat} (hr : rising lo t = true) : rising lo (erase t k) = true := by
  induction t generalizing lo with
  | nil => exact hr
  | cons p r ih =>
    obtain ⟨i, w⟩ := p
    simp only [rising, Bool.and_eq_true] at hr
    by_cases h : i = k
    · subst h
      cases lo with
      | none => simpa [erase] using rising_none r hr.2
      | some l =>
        have hl : l < i := by simpa using hr.1
        simpa [erase] using rising_weaken r (by omega) hr.2
    · simp only [erase, h, if_false, rising, Bool.and_eq_true]
      exact ⟨hr.1, ih hr.2⟩

theorem rising_insert (t : Table α) (k : Nat) (v : α) {lo : Option Nat} (hk : ∀ l, lo = some l → l < k) (hr : rising lo t = true) :
    rising lo (insert t k v) = true := by
  have low : ∀ l', lo = some l' → decide (l' < k) = true := fun l' hl => by simpa using hk l' hl
  induction t generalizing lo with
  | nil => cases lo <;> simp_all [insert, rising]
  | cons p r ih =>
    obtain ⟨i, w⟩ := p
    simp only [rising, Bool.and_eq_true] at hr
    by_cases h : i = k
    · subst h
      simp only [insert, if_true, rising, Bool.and_eq_true]
      exact hr
    · by_cases h' : k < i
      · simp only [insert, h, if_false, h', if_true, rising, Bool.and_eq_true, decide_eq_true_eq]
        exact ⟨by cases lo <;> simp_all, trivial, hr.2⟩
      · simp only [insert, h, if_false, h', rising, Bool.and_eq_true]
        have hik : i < k := by omega
        exact ⟨hr.1, ih (fun l hl => by cases hl; exact hik) hr.2 (fun l hl => by cases hl; simpa using hik)⟩

theorem mem_insert (t : Table α) (k : Nat) (v : α) (p : Nat × α) (h : p ∈ insert t k v) : p = (k, v) ∨ p ∈ t := by
  induction t with
  | nil => simpa [insert] using h
  | cons q r ih =>
    obtain ⟨i, w⟩ := q
    by_cases hi : i = k
    · simp only [insert, hi, if_true, List.mem_cons] at h
      rcases h with h | h
      · exact .inl h
      · exact .inr (.tail _ h)
    · by_cases hk : k < i
      · simpa [insert, hi, hk] using h
      · simp only [insert, hi, hk, if_false, List.mem_cons] at h
        rcases h with h | h
        · exact .inr (by simp [h])
        · rcases ih h with h | h
          · exact .inl h
          · exact .inr (.tail _ h)

theorem mem_erase (t : Table α) (k : Nat) (p : Nat × α) (h : p ∈ erase t k) : p ∈ t := by
  induction t with
  | nil => exact h
  | cons q r ih =>
    obtain ⟨i, w⟩ := q
    by_cases hi : i = k
    · simp only [erase, hi, if_true] at h
      exact .tail _ h
    · simp only [erase, hi, if_false, List.mem_cons] at h
      rcases h with h | h
      · simp [h]
      · exact .tail _ (ih h)

/-- Every write keeps the canonical form. -/
theorem wfBy_put [DecidableEq α] (d : Nat → α) (t : Table α) (k : Nat) (v : α) (h : wfBy d t = true) : wfBy d (put (d k) t k v) = true := by
  simp only [wfBy, Bool.and_eq_true, List.all_eq_true, decide_eq_true_eq] at h ⊢
  by_cases hv : v = d k
  · simp only [put, hv, if_true]
    exact ⟨rising_erase t k h.1, fun p hp => h.2 p (mem_erase t k p hp)⟩
  · simp only [put, hv, if_false]
    refine ⟨rising_insert t k v (fun l hl => by cases hl) h.1, fun p hp => ?_⟩
    rcases mem_insert t k v p hp with rfl | hp
    · exact hv
    · exact h.2 p hp

/-- Every write keeps the canonical form, one default for all keys. -/
theorem wf_put [DecidableEq α] (d : α) (t : Table α) (k : Nat) (v : α) (h : wf d t = true) : wf d (put d t k v) = true :=
  wfBy_put (fun _ => d) t k v h

/-- A read after a write to the same key, in a table in canonical form. -/
theorem get_put_self [DecidableEq α] (d : α) (t : Table α) (k : Nat) (v : α) (h : rising none t = true) : get d (put d t k v) k = v := by
  by_cases hv : v = d
  · simpa [put, hv] using get_erase_self d t k h
  · simpa [put, hv] using get_insert_self d t k v

/-- A read of another key. -/
theorem get_put_ne [DecidableEq α] (d d' : α) (t : Table α) (k j : Nat) (v : α) (hj : j ≠ k) : get d (put d' t k v) j = get d t j := by
  by_cases hv : v = d'
  · simpa [put, hv] using get_erase_ne d t k j hj
  · simpa [put, hv] using get_insert_ne d t k j v hj

/-- Dropping entries keeps the rising order. -/
theorem rising_keep (t : Table α) (p : Nat → α → Bool) {lo : Option Nat} (h : rising lo t = true) : rising lo (keep t p) = true := by
  induction t generalizing lo with
  | nil => exact h
  | cons q r ih =>
    obtain ⟨i, w⟩ := q
    simp only [rising, Bool.and_eq_true] at h
    by_cases hp : p i w = true
    · simp only [keep, List.filter, hp, rising, Bool.and_eq_true]
      exact ⟨h.1, ih h.2⟩
    · simp only [keep, List.filter, hp]
      have hr := ih h.2
      cases lo with
      | none => exact rising_none _ hr
      | some l =>
        have hl : l < i := by simpa using h.1
        exact rising_weaken _ (by omega) hr

/-- Dropping entries keeps the canonical form. -/
theorem wfBy_keep [DecidableEq α] (d : Nat → α) (t : Table α) (p : Nat → α → Bool) (h : wfBy d t = true) : wfBy d (keep t p) = true := by
  simp only [wfBy, Bool.and_eq_true, List.all_eq_true] at h ⊢
  exact ⟨rising_keep t p h.1, fun q hq => h.2 q (List.mem_filter.mp hq).1⟩

end Sys2Proof.Table
end

