-- ==== Sys2Proof/Laws/Ops.lean ====
section
/-! SUPPORT. What the shared operations do: registers, blocks, counters, tiles, tasks, the step. -/

namespace Sys2Proof.Machine

/-! Registers. -/

theorem State.regsOk_setReg (s : State) (k : Nat) (v : Int) (h : s.regsOk) : (s.setReg k v).regsOk := Table.wfBy_put regDefault s.dict.regs k v h

theorem State.regsOk_rising (s : State) (h : s.regsOk) : Table.rising none s.dict.regs = true := by
  simp only [State.regsOk, Table.wfBy, Bool.and_eq_true] at h
  exact h.1

/-- A register reads what was written to it. -/
theorem State.reg_setReg_self (s : State) (k : Nat) (v : Int) (h : s.regsOk) : (s.setReg k v).reg k = v :=
  Table.get_put_self (regDefault k) s.dict.regs k v (s.regsOk_rising h)

/-- Another register is unchanged. -/
theorem State.reg_setReg_ne (s : State) (k j : Nat) (v : Int) (hj : j ≠ k) : (s.setReg k v).reg j = s.reg j :=
  Table.get_put_ne (regDefault j) (regDefault k) s.dict.regs k j v hj

@[simp] theorem State.setReg_blob (s : State) (k j : Nat) (v : Int) : (s.setReg k v).blob j = s.blob j := rfl
@[simp] theorem State.setBlob_reg (s : State) (k j : Nat) (v : List Byte) : (s.setBlob k v).reg j = s.reg j := rfl

/-- A counter adds, modulo 2⁶⁴. -/
theorem State.reg_bump_self (s : State) (k n : Nat) (h : s.regsOk) : (s.bump k n).reg k = (s.reg k + n) % 18446744073709551616 :=
  s.reg_setReg_self k _ h

theorem State.reg_bump_ne (s : State) (k j n : Nat) (hj : j ≠ k) : (s.bump k n).reg j = s.reg j := s.reg_setReg_ne k j _ hj

/-- A block reads what was written to it. -/
theorem State.blob_setBlob_self (s : State) (k : Nat) (v : List Byte) (h : Table.rising none s.dict.blobs = true) : (s.setBlob k v).blob k = v :=
  Table.get_put_self (regDefaultBytes k) s.dict.blobs k v h

theorem State.blob_setBlob_ne (s : State) (k j : Nat) (v : List Byte) (hj : j ≠ k) : (s.setBlob k v).blob j = s.blob j :=
  Table.get_put_ne (regDefaultBytes j) (regDefaultBytes k) s.dict.blobs k j v hj

/-! Tiles and tasks. -/

theorem State.tile_setTile_self (s : State) (n : Nat) (t : Tile) (h : Table.rising none s.tiles = true) : (s.setTile n t).tile n = t :=
  Table.get_put_self ({} : Tile) s.tiles n t h

theorem State.tile_setTile_ne (s : State) (n j : Nat) (t : Tile) (hj : j ≠ n) : (s.setTile n t).tile j = s.tile j :=
  Table.get_put_ne ({} : Tile) {} s.tiles n j t hj

theorem State.task_setTask_self (s : State) (n : Nat) (t : Task) : (s.setTask n t).task n = t := Table.get_insert_self ({} : Task) s.tasks n t

theorem State.task_setTask_ne (s : State) (n j : Nat) (t : Task) (hj : j ≠ n) : (s.setTask n t).task j = s.task j :=
  Table.get_insert_ne ({} : Task) s.tasks n j t hj

/-! An event under its condition. -/

theorem State.when_of (s t : State) (c : Bool) (h : c = true) : s.when c t = t := by subst h; rfl
theorem State.when_not (s t : State) (c : Bool) (h : c = false) : s.when c t = s := by subst h; rfl

/-! The step. -/

theorem step_empty (s : State) (h : s.pending = []) : step s = .next s := by simp [step, h]

end Sys2Proof.Machine
end

