-- ==== Sys2Proof/Laws/Rings.lean ====
section
/-! SUPPORT. What the admission of a descriptor does: it acts on the state in which its ring has passed it on. -/

namespace Sys2Proof.Machine

/-- A descriptor that is admitted runs its meaning. -/
theorem admit_ok (s : State) (f r : Nat) (d : Desc) (x : Slot64) (mine : Slot64 → Bool) (kinds : List Nat) (act : State → Desc → Slot64 → State)
    (h : s.admits f r d x kinds) (hm : mine x = true) : s.admitDesc f r mine kinds act = act (s.takeDesc f r) d x := by
  obtain ⟨h0, hb, hr⟩ := h
  simp [State.admitDesc, h0, hb, hr, hm]

/-- A descriptor that a common check stops is refused with that reason. -/
theorem admit_refused (s : State) (f r : Nat) (d : Desc) (x : Slot64) (mine : Slot64 → Bool) (kinds : List Nat) (act : State → Desc → Slot64 → State) (e : Nat)
    (h0 : s.nextDesc f r = some (d, x)) (hb : s.behindRing f r = false) (hr : (s.takeDesc f r).commonReason d x kinds = some e) (hm : mine x = true) :
    s.admitDesc f r mine kinds act = (s.takeDesc f r).refuse d e := by
  simp [State.admitDesc, h0, hb, hr, hm]

end Sys2Proof.Machine
end

