-- ==== Sys2Proof/Laws/Vs.lean ====
section
/-! SUPPORT. What the vector sequencer's shared operations do: an instruction that runs, one that is illegal, one that faults; the advance
of the program counter. -/

namespace Sys2Proof.Machine

/-- A legal instruction whose operation succeeds sets its tile alone. -/
theorem vsRun_ok (s : State) (n : Nat) (i : VsCode) (op : Tile → Except Nat Tile) (t' : Tile) (hr : s.vsRuns n i)
    (ho : op (s.tile n) = .ok t') : vsRun s n i op = s.setTile n t' := by
  obtain ⟨⟨h1, h2, h3, h4⟩, hl⟩ := hr
  simp [vsRun, h1, h2, h3, h4, hl, ho]

/-- A legal instruction whose operation faults ends its task. -/
theorem vsRun_fault (s : State) (n : Nat) (i : VsCode) (op : Tile → Except Nat Tile) (e : Nat) (hr : s.vsRuns n i)
    (ho : op (s.tile n) = .error e) : vsRun s n i op = s.vsFault n e := by
  obtain ⟨⟨h1, h2, h3, h4⟩, hl⟩ := hr
  simp [vsRun, h1, h2, h3, h4, hl, ho]

/-- An illegal word faults with 1 ILLEGAL_INSTRUCTION. -/
theorem vsRun_illegal (s : State) (n : Nat) (i : VsCode) (op : Tile → Except Nat Tile) (h : s.vsReady n = true) (hf : s.fetches n i = true)
    (hl : i.legal = false) : vsRun s n i op = s.vsFault n 1 := by
  simp [vsRun, h, hf, hl]

/-- An instruction on a sequencer that is not ready does not happen. -/
theorem vsRun_idle (s : State) (n : Nat) (i : VsCode) (op : Tile → Except Nat Tile) (h : s.vsReady n = false) : vsRun s n i op = s := by
  simp [vsRun, h]

/-- An instruction that the code does not hold at the program counter does not happen. -/
theorem vsRun_elsewhere (s : State) (n : Nat) (i : VsCode) (op : Tile → Except Nat Tile) (h : s.fetches n i = false) : vsRun s n i op = s := by
  simp [vsRun, h]

/-- A legal register instruction. -/
theorem vsRun_regs (s : State) (n : Nat) (i : VsCode) (g : Vs → Vs) (hr : s.vsRuns n i) :
    vsRun s n i (vsRegs g) = s.vsAfter n g := vsRun_ok s n i _ _ hr rfl

/-- Retirement changes the loops, the delay slots and the program counter of the sequencer, and nothing else of the tile but its
preemption bookkeeping. -/
theorem Tile.retire_keeps (t : Tile) :
    t.retire.mem = t.mem ∧ t.retire.live.vs.v = t.live.vs.v ∧ t.retire.live.vs.a = t.live.vs.a ∧ t.retire.live.vs.s = t.live.vs.s
      ∧ t.retire.live.vs.p = t.live.vs.p ∧ t.retire.live.vs.q = t.live.vs.q ∧ t.retire.live.vs.b = t.live.vs.b ∧ t.retire.live.vs.n = t.live.vs.n
      ∧ t.retire.live.vs.invalid = t.live.vs.invalid ∧ t.retire.live.vs.saturated = t.live.vs.saturated := by
  simp only [Tile.retire]
  split
  · exact ⟨rfl, rfl, rfl, rfl, rfl, rfl, rfl, rfl, rfl, rfl⟩
  · split <;> exact ⟨rfl, rfl, rfl, rfl, rfl, rfl, rfl, rfl, rfl, rfl⟩

end Sys2Proof.Machine
end

