-- ==== Sys2Proof/Machine/Package.lean ====
section
/-! DEFINITION. The ball grid (R580 to R583): which signal stands at a position, and the name of a ball. A position is a row index and a
column number, each from 1 to 89. -/

namespace Sys2Proof.Machine

/-- The fixed balls (R583). -/
inductive FixedBall where
  | perstN | resetN | vrAlertN | alertN | thermTripN | tck | tms | tdi | tdo | trstN | refclkP | refclkN | ppsIn
  /-- TC_IN0 to TC_IN3. -/
  | tcIn (n : Nat)
  /-- TT_OUT0 to TT_OUT7. -/
  | ttOut (n : Nat)
deriving DecidableEq, Repr

/-- What a ball carries (R581). Wires of a lane: 0 TXP, 1 TXN, 2 RXP, 3 RXN. -/
inductive BallSignal where
  /-- Signal 0 to 79 of a GDDR7 device in the order of R582: 19 of each channel, then CK_T, CK_C, RST_N, ZQ. -/
  | gddr (device index : Nat)
  /-- A SerDes lane, 0 to 63. -/
  | serdes (lane wire : Nat)
  /-- The field port. -/
  | fieldPort (wire : Nat)
  /-- A PCI Express lane, 0 to 15. -/
  | pcie (lane wire : Nat)
  /-- REFCLK_PX: 0 P, 1 N. -/
  | refclkPx (wire : Nat)
  | fixed (b : FixedBall)
  | vin
  | reserved
  | gnd
deriving DecidableEq, Repr

/-- The fixed ball at a position of rows H (8) and CY (76). -/
def fixedBall (row col : Nat) : Option FixedBall :=
  if row = 8 then
    (match col with
     | 30 => some .perstN | 34 => some .resetN | 38 => some .vrAlertN | 42 => some .alertN | 46 => some .thermTripN
     | 50 => some .tck | 52 => some .tms | 54 => some .tdi | 56 => some .tdo | 58 => some .trstN | _ => none)
  else if row = 76 then
    (if col = 30 then some .refclkP else if col = 31 then some .refclkN else if col = 34 then some .ppsIn
     else if 36 ≤ col ∧ col ≤ 42 ∧ col % 2 = 0 then some (.tcIn ((col - 36) / 2))
     else if 46 ≤ col ∧ col ≤ 60 ∧ col % 2 = 0 then some (.ttOut ((col - 46) / 2))
     else none)
  else none

/-- The signal of the i-th signal position of the SerDes region. -/
def serdesSignal (i : Nat) : BallSignal := if i < 256 then .serdes (i / 4) (i % 4) else if i < 260 then .fieldPort (i - 256) else .gnd
/-- The signal of the i-th signal position of the PCI Express region. -/
def pcieSignal (i : Nat) : BallSignal := if i < 64 then .pcie (i / 4) (i % 4) else if i < 66 then .refclkPx (i - 64) else .gnd

/-- The signal at a position (R581 to R583). In the regions of GDDR7, SerDes and PCI Express signals stand where row index plus column is
even, by ascending row and then column. -/
def ballSignal (row col : Nat) : BallSignal :=
  let even := (row + col) % 2 == 0
  if (row ≤ 40 ∨ 50 ≤ row) ∧ (col ≤ 16 ∨ 74 ≤ col) then
    let r := if row ≤ 40 then row - 1 else row - 50
    let group := (if row ≤ 40 then 0 else 2) + (if col ≤ 16 then 0 else 1)
    if even then .gddr (4 * group + r / 10) (8 * (r % 10) + (col - (if col ≤ 16 then 1 else 74)) / 2) else .gnd
  else if 78 ≤ row ∧ 17 ≤ col ∧ col ≤ 73 then
    (if even then serdesSignal ((row - 78) / 2 * 57 + (row - 78) % 2 * 28 + (col - 17) / 2) else .gnd)
  else if row ≤ 6 ∧ 30 ≤ col ∧ col ≤ 59 then (if even then pcieSignal (15 * (row - 1) + (col - 30) / 2) else .gnd)
  else if 42 ≤ row ∧ row ≤ 47 ∧ 25 ≤ col ∧ col ≤ 64 then .vin
  else if row = 48 ∧ 13 ≤ col ∧ col ≤ 76 then .reserved
  else match fixedBall row col with | some b => .fixed b | none => .gnd

/-- The letter of a place in the sequence of 19 (R580). -/
def rowLetter (i : Nat) : String :=
  ["A", "B", "C", "D", "E", "F", "G", "H", "J", "K", "L", "M", "N", "P", "T", "U", "V", "W", "Y"].getD i ""
/-- The name of a row index (R580). -/
def rowName (row : Nat) : String := if row ≤ 19 then rowLetter (row - 1) else rowLetter ((row - 20) / 19) ++ rowLetter ((row - 20) % 19)
/-- The name of a ball: its row and then its column. -/
def ballName (row col : Nat) : String := rowName row ++ toString col

end Sys2Proof.Machine
end

