-- ==== Sys2Proof/Tests/Slice0.lean ====
section
/-! SUPPORT. Tests: ill-formed terms that WellFormed refuses, states that meet the statements' premises, and a few meanings checked against the spec. -/

namespace Sys2Proof.Tests

set_option maxRecDepth 8000
set_option Elab.async false

open Sys2Proof Sys2Proof.Machine

/-- A state whose tile 0 runs task 0, with the live state `live`. -/
def runs (live : Live := {}) : State :=
  { tasks := [(0, { status := .running, tiles := [0] })], tiles := [(0, { task := 1, sleep := 0, live := live })] }

/-- C, M, V, A and X fields, all zero. -/
def c0 : CFields := ⟨0, 0, 0, false, 0, 0, 0⟩
def m0 : MFields := ⟨0, 0, false, 0, 0, 0⟩

/-- A state with these dictionary numbers. -/
def withRegs (s : State) (l : List (Nat × Int)) : State := l.foldl (fun (s : State) (e : Nat × Int) => s.setReg e.1 e.2) s

/-- Bytes placed in a tile's SRAM from an address on. -/
def placed (addr : Nat) (bs : List Byte) : Table Byte := (((List.range bs.length).map (fun i => addr + i)).zip bs).filter (fun (e : Nat × Byte) => e.2 != 0)

/-- A computation that answers a value. -/
def okay {α : Type} (e : Except Nat α) : Bool := match e with | .ok _ => true | .error _ => false

theorem okay_iff {α : Type} (e : Except Nat α) (h : okay e = true) : ∃ a, e = .ok a := by
  cases e with
  | ok a => exact ⟨a, rfl⟩
  | error _ => exact absurd h (by simp [okay])

/-- A sync entry that asks nothing. -/
def noEntry : SyncEntry := ⟨0, false, 0, 0⟩

/-- A cube pass of CI16 with K 4, an MV pass of FP16 with one column, and a move of 64 bytes from 4096 to 8192. -/
def cubeDesc : List Byte := bytesOf 64 (8 * 2 ^ 508 + 8 * 2 ^ 504 + 8 * 2 ^ 500 + 2 ^ 489 + 4 * 2 ^ 464 + 4096 * 2 ^ 416 + 16384 * 2 ^ 384 + 32768 * 2 ^ 352 + 2 ^ 336 + 2 ^ 320 + 16 * 2 ^ 304)
def mvDesc : List Byte := bytesOf 64 (3 * 2 ^ 508 + 3 * 2 ^ 504 + 1 * 2 ^ 500 + 2 ^ 489 + 32 * 2 ^ 464 + 2 ^ 448 + 4096 * 2 ^ 416 + 16384 * 2 ^ 384 + 32768 * 2 ^ 352 + 2 ^ 336 + 2 ^ 320 + 16 * 2 ^ 304)
def moveDesc (mode width rb length src dst : Nat) : List Byte := bytesOf 32 (mode * 2 ^ 252 + width * 2 ^ 249 + rb * 2 ^ 224 + length * 2 ^ 192 + src * 2 ^ 128 + dst * 2 ^ 64)

/-- `runs` with page 0 of tile 0 in the hands of its task and the bytes `bs` at 64. -/
def issues (bs : List Byte) (live : Live := {}) : State :=
  { tasks := [(0, { status := .running, tiles := [0] })]
    tiles := [(0, { task := 1, sleep := 0, pages := [(0, [0])], mem := placed 64 bs, live := live })] }

/-- The 64 bytes of a descriptor of context 1 of PF0, of TEMPO class. -/
def slot (op : Nat) (body : Nat := 0) (lnc : Nat := 0) : Slot64 := BitVec.ofNat 512 (body + op * 2 ^ 120 + 2 ^ 96 + lnc * 2 ^ 32)

/-- Ring 5 of PF0 has fetched the descriptor `x`; context 1 of PF0 is enabled. -/
def fed (x : Slot64) (s : State := {}) : State := (withRegs s [(Reg.ringKind 0 5, 1), (Reg.ctxEnable 0 1, 1)]).setRing 0 5 { cons := 1, fetched := [(0, x)] }
def tempo (x : Slot64) : Desc := descOf 0 5 0 0 x

/-- Invocation 0 of slot 1 runs as task 0 on tile 0, and its graph is one node. -/
def graph (r : NodeRec) (t : Tile := { sleep := 0 }) (v : Invocation := {}) : State :=
  { tasks := [(0, { status := .running, tiles := [0] })], tiles := [(0, { t with task := 1 })]
    models := { slots := [(1, { nodes := [r] })], invs := [(0, { v with running := true, slot := 1, serving := 1 })] } }

/-- What makes a task a radio task, without anything to do. -/
def slotWork : RadioWork := { cell := 0, slot := 0, uplink := false, hold := false, budgetNs := 0, standby := 0 }


theorem witness_scalar_results : (∀ op ∈ [0x10, 0x11, 0x12, 0x13, 0x14, 0x15, 0x16, 0x17, 0x18], (runs).vsRuns 0 (cCode op ⟨15, 15, 15, false, 0, 0, 0⟩)) ∧
    (runs).vsRuns 0 (cCode 0x19 ⟨15, 15, 0, false, 0, 0x80000000, 0⟩) ∧ (∀ op ∈ [0x20, 0x21, 0x22], (runs).vsRuns 0 (cCode op ⟨15, 0, 0, false, 0, 0, 0⟩)) := by decide

theorem witness_immediate_results : (runs).vsRuns 0 (mCode 0x05 ⟨0, 0, false, 15, 0x80000000, 0⟩) ∧ (runs).vsRuns 0 (mCode 0x06 ⟨0, 0, false, 15, 0xFFFFFFFF, 0⟩) ∧
    (∀ rd ∈ [0, 15, 23, 31], (runs).vsRuns 0 (mCode 0x07 ⟨0, 0, false, rd, 15, 0⟩) ∧ (runs).vsRuns 0 (mCode 0x08 ⟨0, 0, false, rd, 15, 0⟩)) ∧
    (runs).vsRuns 0 (mCode 0x09 ⟨7, 0, false, 0, 0xFFFFFFFF, 0⟩) := by decide

theorem witness_vector_results :
    (∀ m ∈ [0, 1, 2], ∀ i ∈ [vCode 0x00 ⟨0, false, 0, 0, 0, 0, 0, 0, 0⟩, vCode 0x01 ⟨m, false, 31, 31, 31, 0, 0, 0, 0⟩, vCode 0x02 ⟨m, false, 31, 31, 31, 0, 0, 0, 0⟩,
      vCode 0x03 ⟨m, decide (m = 0), 31, 31, 31, 0, 0, 0, 0⟩, vCode 0x0B ⟨m, false, 31, 31, 31, 15, 0, 0, 0⟩, vCode 0x0C ⟨m, false, 31, 31, 31, 15, 0, 0, 0⟩,
      vCode 0x0D ⟨m, false, 31, 0, 0, 15, 0, 0, 0⟩, vCode 0x04 ⟨0, false, 31, 31, 0, 0, 0, 3, 0⟩], (runs).vsRuns 0 i) ∧
    (∀ m ∈ [0, 1], ∀ i ∈ [vCode 0x05 ⟨m, false, 31, 31, 0, 0, 15, 0, 0⟩, vCode 0x06 ⟨m, false, 31, 31, 0, 15, 0, 0, 0⟩, vCode 0x07 ⟨m, false, 31, 31, 0, 0, 15, 0, 0⟩], (runs).vsRuns 0 i) ∧
    (∀ m ∈ [1, 2], ∀ i ∈ [vCode 0x08 ⟨m, false, 31, 31, 31, 0, 0, 0, 0⟩, vCode 0x09 ⟨m, false, 31, 31, 31, 0, 0, 0, 0⟩, vCode 0x10 ⟨m, false, 15, 31, 31, 0, 0, 0, 0⟩], (runs).vsRuns 0 i) ∧
    (∀ i ∈ [vCode 0x0A ⟨0, false, 31, 31, 0, 0, 15, 0, 0⟩, vCode 0x0E ⟨0, false, 15, 24, 0, 0, 0, 8, 0⟩, vCode 0x0F ⟨1, false, 15, 31, 0, 0, 0, 0xF01, 0⟩,
      vCode 0x11 ⟨0, false, 31, 31, 0, 15, 0, 1, 0⟩, vCode 0x12 ⟨2, false, 31, 31, 0, 15, 0, 1, 0⟩], (runs).vsRuns 0 i) := by decide

theorem witness_accumulator_results : (runs).vsRuns 0 (aCode 0x00 ⟨0, false, 7, 0, 0, 0, 0, 0, 0⟩) ∧ (runs).vsRuns 0 (aCode 0x01 ⟨0, false, 7, 0, 31, 0, 0, 0, 0⟩) ∧
    (∀ op ∈ [0x02, 0x03, 0x04], (runs).vsRuns 0 (aCode op ⟨0, true, 7, 0, 31, 31, 0, 0, 0⟩)) ∧ (runs).vsRuns 0 (aCode 0x05 ⟨0, false, 7, 7, 0, 0, 0, 0, 0⟩) ∧
    (runs).vsRuns 0 (aCode 0x06 ⟨0, false, 7, 7, 0, 0, 0, 0, 0⟩) ∧ (runs).vsRuns 0 (aCode 0x07 ⟨0, false, 0, 7, 0, 0, 31, 15, 0⟩) := by decide

theorem witness_control_results :
    let s := runs { vs := { s := [(15, 65535)] } }
    let x := (s.tile 0).live.vs
    x.slots = 0 ∧ x.loops = [] ∧ s.vsRuns 0 (cCode 0x01 ⟨0, 0, 0, false, 0, 0xFFFFFFFF, 0⟩) ∧
    (∀ op ∈ [0x02, 0x03, 0x04], s.vsRuns 0 (cCode op ⟨0, 15, 0, false, 0, 0xFFFFFFFF, 0⟩)) ∧ s.vsRuns 0 (cCode 0x05 ⟨15, 0, 0, false, 0, 0xFFFFFFFF, 0⟩) ∧
    s.vsRuns 0 (cCode 0x06 ⟨0, 15, 0, false, 0, 0, 0⟩) ∧ s.vsRuns 0 (cCode 0x08 ⟨0, 0, 0, true, 255, 65535, 0⟩) ∧
    s.vsRuns 0 (cCode 0x09 ⟨0, 15, 0, true, 255, 0, 0⟩) ∧ (x.getS 15).toNat % 65536 ≠ 0 ∧
    s.vsRuns 0 (cCode 0x3F ⟨0, 0, 0, false, 0, 0, 0⟩) ∧ (s.tile 0).live.pass = none ∧ (s.tile 0).live.mv = none ∧ (s.tile 0).live.moves = [] := by decide

theorem witness_delay_slots_and_loops : (runs |>.tile 0).live.vs.loops = [] ∧ (⟨5, 2, 1, true⟩ : Loop).left ≠ 0 ∧ (⟨5, 2, 0, true⟩ : Loop).left = 0 := by decide

/-- The bytes at 0 of tile 0 are page 0, which the tile's context holds; the pointer 1 stands at the last 128 bytes of the page. -/
def stores : State :=
  { tasks := [(0, { status := .running, tiles := [0] })]
    tiles := [(0, { task := 1, sleep := 0, pages := [(0, [0])], live := { vs := { p := [(1, 0xFF80)] } } })] }

theorem witness_memory_access :
    let t := stores.tile 0
    let l128 := (List.range 128).map (fun k => 0xFF80 + k)
    let l8 := (List.range 8).map (fun k => 0xFF80 + k)
    let f : MFields := ⟨1, 0, true, 3, 0, 0⟩
    stores.vsRuns 0 (mCode 0x01 f) ∧ stores.vsRuns 0 (mCode 0x02 f) ∧ checkedAddrs t t.ctx f 128 = .ok l128 ∧ (∀ a ∈ l128, a / 8 ∉ t.poison) ∧
    stores.vsRuns 0 (mCode 0x03 f) ∧ stores.vsRuns 0 (mCode 0x04 f) ∧ checkedAddrs t t.ctx f 8 = .ok l8 ∧ (∀ a ∈ l8, a / 8 ∉ t.poison) := by decide +kernel

theorem witness_scalar_frame : (∀ op ∈ [0x10, 0x11, 0x12, 0x13, 0x14, 0x15, 0x16, 0x17, 0x18], (runs).vsRuns 0 (cCode op ⟨0, 15, 0, false, 0, 0, 0⟩)) ∧
    (runs).vsRuns 0 (cCode 0x19 ⟨0, 15, 0, false, 0, 0x7FFFFFFF, 0⟩) ∧ (∀ op ∈ [0x20, 0x21, 0x22], (runs).vsRuns 0 (cCode op c0)) := by decide

theorem witness_illegal_words : (runs).vsReady 0 = true ∧ (runs).hasTask (((runs).tile 0).task - 1) = true ∧
    (∀ i ∈ [vCode 0x01 ⟨0, false, 0, 0, 0, 1, 0, 0, 0⟩, aCode 0x03 ⟨0, false, 0, 1, 0, 0, 0, 0, 0⟩, mCode 0x02 ⟨0, 0, false, 0, 0, 1⟩,
      cCode 0x10 ⟨0, 0, 0, true, 0, 0, 0⟩, xCode 0x01 ⟨0, 0, 1, 0, 0⟩], (runs).fetches 0 i = true ∧ i.legal = false) ∧
    (let code := 3 * 2 ^ 61 + 0x10 * 2 ^ 54; let s : State := { runs with kernels := [(0, { code := [code] })] };
      s.fetches 0 (cCode 0x10 (cFields code)) = true ∧ s.fetches 0 (cCode 0x11 (cFields code)) = false) := by decide +kernel

theorem witness_unit_issue :
    (∀ p ∈ [(cubeDesc, 0, 0x01), (mvDesc, 1, 0x02), (moveDesc 0 0 0 64 4096 8192, 2, 0x03)],
      let s := issues p.1;
      let t := s.tile 0;
      let f : XFields := ⟨7, 7, 0, 64, 0⟩;
      let a := ((t.live.vs.getP f.pk).toNat + f.imm32) % 2 ^ 32;
      s.vsRuns 0 (xCode p.2.2 f) ∧ a % (if p.2.1 = 2 then 32 else 64) = 0 ∧ t.ownsRange t.ctx a (if p.2.1 = 2 then 32 else 64) = true ∧
      t.live.pass = none ∧ t.live.mv = none ∧ t.live.moves.length < 8 ∧ okay (t.start p.2.1 a (f.sync % 8) s.time.ticks (if p.2.1 = 2 then s.moveOverlaps 0 t.ctx else fun _ => false)) = true) ∧
    (let s := issues [] { pass := some { desc := [], sync := 0, ctx := 0 } };
      let t := s.tile 0;
      s.vsRuns 0 (xCode 0x01 ⟨0, 0, 0, 64, 0⟩) ∧ 64 % 64 = 0 ∧ t.ownsRange t.ctx 64 64 = true ∧ t.live.pass ≠ none) ∧
    (let s := issues [] { channels := 0x81 };
      let t := s.tile 0;
      s.vsRuns 0 (xCode 0x04 ⟨0, 0, 0x80, 0, 0⟩) ∧ t.live.channels &&& (0x80 % 256) = 0x80 % 256 ∧ s.vsRuns 0 (xCode 0x04 ⟨0, 0, 0xFF, 0, 0⟩) ∧
        t.live.channels &&& (0xFF % 256) ≠ 0xFF % 256) := by decide +kernel

theorem witness_unit_completion :
    (let s := (issues cubeDesc).setTile 0 { (issues cubeDesc).tile 0 with wait := .unit 0 64 7 };
      let t := s.tile 0;
      t.wait = .unit 0 64 7 ∧ t.unitFree 0 = true ∧ t.task ≠ 0 ∧ t.switching = 0 ∧ t.sleep = 0 ∧ okay (t.start 0 64 7 s.time.ticks (s.moveOverlaps 0 t.ctx)) = true) ∧
    (let t := (issues [] { pass := some { desc := cubeDesc, sync := 7, ctx := 0 }, mv := some { desc := mvDesc, sync := 7, ctx := 0 } }).tile 0;
      t.live.pass = some { desc := cubeDesc, sync := 7, ctx := 0 } ∧ t.live.mv = some { desc := mvDesc, sync := 7, ctx := 0 } ∧ t.unitRuns = true ∧
      (passDesc false cubeDesc).streamed ((passDesc false cubeDesc).feed t (fun _ => true)) = true ∧ (passDesc false cubeDesc).poisoned ((passDesc false cubeDesc).feed t (fun _ => true)) = false ∧
      (passDesc true mvDesc).streamed ((passDesc true mvDesc).feed t (fun _ => true)) = true ∧ (passDesc true mvDesc).poisoned ((passDesc true mvDesc).feed t (fun _ => true)) = false) ∧
    (let s : State := { tasks := [(0, { kernel := 1, status := .running, tiles := [0] })], tiles := [(0, { task := 1, sleep := 0, atPoint := false, sincePoint := 100, tenths := 2600 })],
                        kernels := [(1, { borrowable := true })] };
      let t := s.tile 0;
      s.bounded t = true ∧ t.atPoint = false ∧ 256 < 257 ∧ t.sincePoint ≤ 257 ∧ 10 * 257 ≤ t.tenths - t.pointAt + tickSpan ∧ t.switching = 0) := by
  decide +kernel

theorem witness_tile_moves : ∀ p ∈ [(0, moveDesc 0 0 0 64 4096 8192), (1, moveDesc 1 0 0 64 0 8192), (2, moveDesc 2 0 0 64 4096 8192), (3, moveDesc 3 4 1 0 4096 8192), (4, moveDesc 4 0 1 0 4096 8192)],
    let op : XOp := { desc := p.2, sync := 7, ctx := 0 };
    let t := (issues [] { moves := [op] }).tile 0;
    let m := moveCmd op.desc;
    t.live.moves = op :: [] ∧ op.written = false ∧ t.unitRuns = true ∧ m.srcVa = false ∧ m.dstVa = false ∧ t.poisoned (m.src + op.data.length) (m.srcBytes - op.data.length) = false ∧ m.mode = p.1 := by
  decide +kernel

theorem witness_move_completes :
    let op : XOp := { desc := moveDesc 0 0 0 64 4096 8192, sync := 7, ctx := 0, written := true };
    let s := issues [] { moves := [op] };
    (s.tile 0).live.moves = op :: [] ∧ op.written = true ∧ (s.tile 0).unitRuns = true ∧ (op.id = 0 ∨ s.moveOpen op.id = false) ∧ s.moveLand 0 op = ((s.moveLand 0 op).1, .ready) ∧ (moveCmd op.desc).dstVa = false := by decide +kernel

/-- A package of one instruction, HALT, entered at entry 0. -/
def package : List Byte :=
  bytesOf 16 (0x53564B5A + 2 ^ 32 + 2 ^ 64 + 2 ^ 96) ++ List.replicate 48 0 ++ bytesOf 4 0 ++ List.replicate 60 255 ++ bytesOf 8 (3 * 2 ^ 61 + 0x3F * 2 ^ 54)

/-- KERNEL_LOAD of `package` from another chip (region 1), KERNEL_FREE of kernel 7 and a TASK of it on partition 9 with arguments there. -/
def loadSlot : Slot64 := slot 0x06 (136 * 2 ^ 480 + 2 ^ 55 * 2 ^ 384)
def freeSlot : Slot64 := slot 0x07 (7 * 2 ^ 496)
def taskSlot : Slot64 := slot 0x01 (7 * 2 ^ 496 + 9 * 2 ^ 486 + 2 ^ 448 + 8704 * 2 ^ 432 + 2 ^ 55 * 2 ^ 192)

theorem witness_kernels_and_tasks :
    ((fed loadSlot).admits 0 5 (tempo loadSlot) loadSlot [1, 2] ∧ isOp 0x06 loadSlot = true ∧
      ((fed loadSlot).takeDesc 0 5).vaRead 1 (mapBits loadSlot 447 384) (mapBits loadSlot 511 480) package = .ok (package, false)) ∧
    okay (checkPackage package package.length ((fed loadSlot).reg Reg.determinismMode == 1)) = true ∧ (fed loadSlot).measured 0 < 256 ∧
    (let k : Kernel := { entries := [0] };
      let s : State := { fed freeSlot with kernels := [(7, k)] };
      s.admits 0 5 (tempo freeSlot) freeSlot [1, 2] ∧ isOp 0x07 freeSlot = true ∧ mapBits freeSlot 511 496 = 7 ∧ Table.find? s.kernels 7 = some k ∧
        k.func = (tempo freeSlot).func ∧ k.slot = 0 ∧ (s.takeDesc 0 5).kernelUsed 7 = false) ∧
    (let s : State := withRegs { fed taskSlot with kernels := [(7, { entries := [0] })], parts := [(9, { tiles := [5] })] } [(Reg.partOwner 9, 0), (Reg.partReservedSlots 9, 4)];
      let b := taskBodyOf taskSlot [];
      s.admits 0 5 (tempo taskSlot) taskSlot [1, 2] ∧ isOp 0x01 taskSlot = true ∧ (s.takeDesc 0 5).taskReason (tempo taskSlot) b = none ∧
        (s.takeDesc 0 5).vaRead 1 b.argAddr (64 * b.vcount) [] = .ok (zeros 64, false)) ∧
    (let s : State := { tasks := [(3, { status := .ended, fault := 9 }), (4, { status := .ended })] };
      (s.task 3).radio = none ∧ (s.task 3).fault ≠ 0 ∧ s.hasTask 3 = true ∧ (s.task 3).status = .ended ∧ (s.task 3).inv = 0 ∧
      (s.task 4).radio = none ∧ (s.task 4).fault = 0 ∧ (s.task 4).signals = [] ∧ s.fabric.fences.any (fun x => x.task == 4 + 1) = false ∧ s.hasTask 4 = true ∧
      (s.task 4).status = .ended ∧ (s.task 4).inv = 0) := by decide +kernel

theorem witness_launch_unit :
    let s : State := { tasks := [(0, {}), (1, { status := .registered, tiles := [3] }), (2, { radio := some { cell := 0, slot := 0, uplink := false, hold := false, budgetNs := 0, standby := 0 } })], tiles := [(3, { sleep := 1 })] };
    s.hasTask 0 = true ∧ (s.task 0).status = .waiting ∧ (s.task 0).rerunDue = false ∧ (s.task 0).inv = 0 ∧ (s.task 0).target ≤ s.lnc ∧
    s.hasTask 1 = true ∧ (s.task 1).status = .registered ∧ (s.task 1).target ≤ s.lnc + s.wakeLead (s.taskTiles (s.task 1)) ∧ (s.taskTiles (s.task 1)).all s.awake = true ∧
    s.hasTask 2 = true ∧ (s.task 2).status = .waiting ∧ (s.task 2).radio.isSome = true ∧ (s.task 2).rerunDue = false := by decide +kernel

theorem witness_sleep_states :
    let s : State := withRegs { tiles := [(511, { sleep := 1 }), (3, { wakeAt := 1 })].reverse } [(Reg.pllRunning, 1)];
    ((∀ d ∈ [2, 3, 4], (s.tile 511).sleep < d ∧ d ≤ 4 ∧ (d = 4 → (s.tile 511).pages = [])) ∧ (s.tile 511).task = 0 ∧ (s.tile 511).switching = 0 ∧ (s.tile 511).wakeAt = 0 ∧ 511 < 512 ∧
      (s.tile 511).live = {} ∧ s.isRadio 511 = false ∧ (s.tile 3).wakeAt ≠ 0 ∧ (s.tile 3).wakeAt - 1 ≤ s.time.ticks) ∧ s.nextAny 511 = none ∧
    s.pllOn 0 = true ∧ (let z : State := withRegs {} [(Reg.pllRunning, 1)];
      (0 < 8 ∧ z.pllOn 0 = true ∧ z.clusterHolds 0 1 63 = false ∧ ∀ i, i < 64 → 2 ≤ (z.tile (64 * 0 + i)).sleep ∧ (z.tile (64 * 0 + i)).wakeAt = 0 ∧ z.nextAny (64 * 0 + i) = none)) := by decide +kernel

/-- Radio tile 0 with borrower task 1 running and radio task 2 registered to launch now; the tile is as `t` says beside. -/
def borrowed (t : Tile) : State :=
  { tasks := [(1, { status := .running, tiles := [0] }), (2, { status := .registered, radio := some slotWork, tiles := [0] })]
    tiles := [(0, { t with task := 2, borrower := 2, sleep := 0 })] }

theorem witness_preemption_of_a_borrower :
    (let s := borrowed {};
      let t := s.tile 0;
      t.borrower ≠ 0 ∧ t.task = t.borrower ∧ t.switching = 0 ∧ s.radioGap 0 (s.regN Reg.preemptLead + 1) = false) ∧
    (let s := borrowed { switching := 2 };
      let t := s.tile 0;
      t.borrower ≠ 0 ∧ t.task = t.borrower ∧ t.switching = 2 ∧ s.radioGap 0 (s.regN Reg.preemptLead + 1) = false ∧ t.switchLeft = 0) ∧
    (let s := borrowed { preempt := true };
      let t := s.tile 0;
      t.preempt = true ∧ t.task ≠ 0 ∧ t.switching = 0 ∧ t.atPoint = true) ∧
    (let s : State := { tasks := [(1, { status := .running, tiles := [0], remoteWait := 1 })], tiles := [(0, { task := 2, preempt := true, atPoint := false })], fabric := { fences := [{ ctx := 0, covers := [], run := 513 }] } };
      let t := s.tile 0;
      t.preempt = true ∧ t.task ≠ 0 ∧ t.switching = 0 ∧ t.atPoint = false ∧ s.waitsRemote 0 = true) ∧
    (let s := borrowed { switching := 1 };
      let t := s.tile 0;
      t.task ≠ 0 ∧ t.switching = 1 ∧ t.switchLeft = 0 ∧ t.next = 0) ∧
    (let s := borrowed { switching := 1, switchLeft := 5 };
      let t := s.tile 0;
      t.borrower ≠ 0 ∧ t.task = t.borrower ∧ (t.preempt = true ∨ t.switching = 1) ∧ s.nextRadio 0 = some 0 ∧ 0 ≤ s.lnc + 1 ∧ (s.task (t.task - 1)).inv = 0) ∧
    (let s : State := { tasks := [(1, { status := .suspended, tiles := [0] })], tiles := [(0, { borrower := 2, sleep := 0 })] };
      let t := s.tile 0;
      let b := t.borrower - 1;
      t.borrower ≠ 0 ∧ t.task = 0 ∧ s.hasTask b = true ∧ s.startable (s.task b) = true ∧ (s.openRanks b (s.task b)).find? (fun r => r.2 == 0) = some (0, 0)) := by
  decide +kernel

theorem witness_preemption_of_the_pool :
    (let s : State := { tasks := [(1, { status := .registered, klass := 1, kernel := 1 })], tiles := [(0, { sleep := 0 })], kernels := [(1, { borrowable := true })], parts := [(8, { tiles := [0] })] };
      let t := s.tile 0;
      let q := s.task 1;
      s.hasTask 1 = true ∧ s.isRadio 0 = true ∧ q.klass = 1 ∧ q.status = .registered ∧ q.vcount = 1 ∧ q.target ≤ s.lnc ∧ q.readyAt ≤ s.lnc ∧
      (Table.get {} s.kernels q.kernel).borrowable = true ∧ t.borrower = 0 ∧ t.loan ≠ 0 ∧ s.sramNeed q ≤ 65536 * t.loan ∧ t.task = 0 ∧ t.switching = 0 ∧ s.lowest = false ∧
      s.radioGap 0 (s.regN Reg.preemptLead + s.regN Reg.minBorrowGap) = true ∧ s.partOf 0 = some 8) ∧
    (let s : State := { tasks := [(1, { status := .running, klass := 1, tiles := [0] })], tiles := [(0, { sleep := 0, task := 2 })], parts := [(0, { tiles := [0] })], time := { ticks := 1000000000 } };
      let m := s.markBoosts;
      let t := m.tile 0;
      t.task ≠ 0 ∧ t.switching = 0 ∧ (m.task (t.task - 1)).klass = 1 ∧ m.partOf 0 = some 0 ∧ m.passed t.sliceStart (m.regN Reg.beSlice) = true ∧ m.wanting 0 = []) ∧
    (let s : State := withRegs { tasks := [(1, { klass := 1 })], time := { stc := { sec := 4000000 } } } [(Reg.beMaxWait 0, 1)];
      let q := s.task 1;
      s.hasTask 1 = true ∧ q.klass = 1 ∧ q.rerunDue = false ∧ q.status = .waiting ∧ q.begun = false ∧ s.regN (Reg.beMaxWait q.func) ≠ 0 ∧
      50 * q.fetched + 1000 * s.regN (Reg.beMaxWait q.func) ≤ s.nowNs) := by decide +kernel

/-- Descriptors of a matrix product (FP16), of a convolution (FP16, RELAY, three taps) and of an interpolation (CI16, RELAY). -/
def fp16Desc : List Byte := bytesOf 64 (3 * 2 ^ 508 + 3 * 2 ^ 504 + 2 ^ 500 + 2 ^ 489 + 16 * 2 ^ 464 + 2 ^ 416 * 65536 + 2 ^ 384 * 131072 + 2 ^ 352 * 196608 + 2 ^ 336 + 2 ^ 320 + 16 * 2 ^ 304)
def convDesc (fmt out : Nat) : List Byte := bytesOf 64 (fmt * 2 ^ 508 + fmt * 2 ^ 504 + out * 2 ^ 500 + 4 * 2 ^ 497 + 2 ^ 489 + 4 * 2 ^ 464 + 3 * 2 ^ 448 + 2 ^ 416 * 65536 + 2 ^ 384 * 131072 + 2 ^ 352 * 196608 + 2 ^ 336 + 2 ^ 320 + 16 * 2 ^ 304)
def dftDesc (k : Nat) : List Byte := bytesOf 64 (8 * 2 ^ 508 + 8 * 2 ^ 504 + 8 * 2 ^ 500 + 2 ^ 489 + k * 2 ^ 464 + 2 ^ 416 * 65536 + 2 ^ 384 * 131072 + 2 ^ 352 * 196608 + 2 ^ 336 + 2 ^ 320 + 16 * 2 ^ 304)

/-- Tile 0 with pages 0 to 4 in the hands of context 0. -/
def ownsPages : Tile := { sleep := 0, pages := [(0, [0]), (1, [0]), (2, [0]), (3, [0]), (4, [0])] }

theorem witness_matrix_nodes :
    (∀ e ∈ [(0x01, fp16Desc), (0x03, convDesc 3 1), (0x04, dftDesc 4), (0x06, convDesc 8 8)],
      let s := graph { family := e.1, op := .passes [(0, e.2)] } ownsPages;
      let d := (passDesc false e.2).shifted 0;
      let t := d.feed (s.tile 0) (s.nodeWaves 0 0);
      s.areaAt 0 0 = some (0, 0) ∧ (s.inv 0).ran.contains (0, 0) = false ∧ passOn (s.node_ 0 0) 0 = some e.2 ∧ s.nodeReady 0 0 e.1 = true ∧
      d.invalid t.live.acc = false ∧ familyShape e.1 d = true ∧ d.owned t t.ctx = true ∧ d.streamed t = true ∧ d.poisoned t = false) ∧
    (let s := graph { family := 0x02, op := .passes [(0, mvDesc)] } ownsPages;
      let m := (passDesc true mvDesc).shifted 0;
      let u := m.feed (s.tile 0) (s.nodeWaves 0 0);
      s.areaAt 0 0 = some (0, 0) ∧ passOn (s.node_ 0 0) 0 = some mvDesc ∧ s.nodeReady 0 0 0x02 = true ∧
      m.invalid u.live.mvAcc = false ∧ familyShape 0x02 m = true ∧ m.owned u u.ctx = true ∧ m.streamed u = true ∧ m.poisoned u = false) ∧
    (let stages := [(dftDesc 16, false), (dftDesc 8, true)];
      let s := graph { family := 0x05, op := .dft 0 stages } ownsPages;
      let ds := stages.map (fun e => ((passDesc false e.1).shifted 0, e.2));
      let t := ds.foldl (fun t e => e.1.feed t (s.nodeWaves 0 0)) (s.tile 0);
      s.areaAt 0 0 = some (0, 0) ∧ (s.node_ 0 0).op = .dft 0 stages ∧ s.nodeReady 0 0 0x05 = true ∧ dftShape ds = true ∧
      (∀ e ∈ ds, e.1.invalid t.live.acc = false ∧ e.1.owned t t.ctx = true ∧ e.1.streamed t = true ∧ e.1.poisoned t = false)) := by decide +kernel

theorem witness_row_nodes : ∀ family ∈ [0x08, 0x09], ∀ function ∈ [0, 1, 2, 3, 4, 5, 6, 7],
    let x : Tensor := ⟨0, sramBytes - 32, 8⟩;
    let s := graph { family := family, function := function, op := .rows x x x x 4 0 };
    (s.node_ 0 0).op = .rows x x x x 4 0 ∧ (s.node_ 0 0).function = function ∧ s.areaAt 0 x.tile = some (0, 0) ∧ inSram (x.addr + 0) (4 * x.count) = true ∧
      (s.tile 0).poisoned (x.addr + 0) (4 * x.count) = false ∧ 4 ≠ 0 ∧ s.nodeFresh 0 0 family = true := by
  decide +kernel

theorem witness_format_nodes :
    (∀ fmt ∈ [0, 8],
      let a : ETensor := ⟨0, sramBytes - 32, fmt⟩;
      let b : ETensor := ⟨0, 8, fmt⟩;
      let s := graph { family := 0x07, op := .element 8 a b a };
      s.areaAt 0 0 = some (0, 0) ∧ (s.node_ 0 0).op = .element 8 a b a ∧ s.nodeFresh 0 0 0x07 = true ∧
      inSram (a.addr + 0) (packValues a.fmt (((List.range 8).map (fun i =>
        let x := elementOp (s.node_ 0 0).function ((s.tile 0).widened a.fmt (a.addr + 0) i) ((s.tile 0).widened b.fmt (b.addr + 0) i);
        x.after (narrowValue a.fmt ((s.tile 0).groupExp (a.addr + 0)) x.code))).map (fun r => r.code))).length = true ∧ a.fmt ≤ 8 ∧ b.fmt ≤ 8 ∧
      (s.tile 0).poisoned (a.addr + 0) (valueBytes a.fmt 8) = false ∧ (s.tile 0).poisoned (b.addr + 0) (valueBytes b.fmt 8) = false) ∧
    (let x : Tensor := ⟨0, 0, 66⟩;
      let s := graph { family := 0x0A, op := .quant x 33 3 65536 131072 2 };
      let rows := (List.range 2).map (fun r => blocks 33 ((s.tile 0).codes (x.addr + 0 + 4 * r * 33) 33));
      let rs := rows.flatMap (fun l => l.flatMap (fun c => c.map (quantElem 3 (scaleByte 3 c))));
      let bytes := packRow 3 (rs.map (fun r => r.code));
      s.areaAt 0 x.tile = some (0, 0) ∧ (s.node_ 0 0).op = .quant x 33 3 65536 131072 2 ∧ s.nodeFresh 0 0 0x0A = true ∧ 33 ≠ 0 ∧ mxFormat 3 = true ∧ x.count / 33 = 2 ∧
      inSram (65536 + 0) bytes.length = true ∧ inSram (131072 + 0) (2 * 2 + ceilDiv 33 32) = true ∧ (s.tile 0).poisoned (x.addr + 0) (4 * x.count) = false) := by decide +kernel

/-- A gate of one token over two experts, both on this chip. -/
def gateNode (policy : Nat) : GateNode :=
  { experts := 2, choices := 1, factor := 65536, total := 1, policy := policy, gateUnits := 1, gateRank := 0, tokens := 1, tile := 0, scoreAddr := 0, outAddr := 64, rowTile := 0
    rowAddr := 128, rowBytes := 4, inputs := [], sumAfter := [], sumRows := [(0, 256), (0, 512)], sumCount := 1, sumTile := 0, sumAddr := 1024 }

theorem witness_reduce_and_gate :
    (∀ arrival ∈ [false, true],
      let x : Tensor := ⟨0, sramBytes - 8, 2⟩;
      let s := graph { family := 0x0B, arrival := arrival, op := .reduce x false 2 [(0, 0, 64)] };
      (s.node_ 0 0).op = .reduce x false 2 [(0, 0, 64)] ∧ s.nodeFresh 0 0 0x0B = true ∧ s.areaAt 0 x.tile = some (0, 0) ∧ inSram (x.addr + 0) (4 * x.count) = true ∧
      (∀ e ∈ s.localPartials 0 x.count [(0, 0, 64)], (s.tile e.2.1).poisoned e.2.2.1 (4 * x.count) = false) ∧ (s.node_ 0 0).arrival = arrival) ∧
    (let r : Reduction := { ordered := true, int := false, ranks := 2, out := ⟨0, 0, 1⟩, acc := [0] };
      let g := graph { family := 0x0B };
      let s : State := { g with models := { g.models with reductions := [(reduceKey 0 0, r)] } };
      Table.find? s.models.reductions (reduceKey 0 0) = some r ∧ s.nodeReady 0 0 0x0B = true ∧ 1 < r.ranks ∧ [(5 : Word32)].length = r.out.count ∧ r.arrived.contains 1 = false) ∧
    (∀ policy ∈ [0, 1, 2],
      let g := gateNode policy;
      let s := graph { family := 0x0C, op := .gate g } { sleep := 0, mem := placed 0 (bytesOf 4 0x3F800000) };
      let scores := (List.range g.tokens).map (fun n => ((s.tile 0).codes (g.scoreAddr + 0 + 4 * g.experts * n) g.experts).map (BitVec.ofNat 32));
      (s.node_ 0 0).op = .gate g ∧ g.policy = policy ∧ s.nodeReady 0 0 0x0C = true ∧ (s.inv 0).hasBegun 0 = false ∧ s.areaAt 0 g.tile = some (0, 0) ∧ s.areaAt 0 g.rowTile = some (0, 0) ∧
      gateOk g = true ∧ (s.tile 0).poisoned (g.scoreAddr + 0) (4 * g.experts * g.tokens) = false ∧ (s.tile 0).poisoned (g.rowAddr + 0) (g.rowBytes * g.tokens) = false ∧
      inSram (g.outAddr + 0) (gateResult g scores s.free (gateFill g scores [(0, 0)] s.free)).1.length = true ∧
      inSram (g.outAddr + 0) (gateResult g scores s.free (gateFill g scores [] s.free)).1.length = true) ∧
    (∀ policy ∈ [0, 1, 2],
      let g := gateNode policy;
      let s := graph { family := 0x0C, op := .gate g } {} { begun := [(0, 0)] };
      let t := s.setTile 0 { s.tile 0 with sleep := 1 };
      (t.node_ 0 0).op = .gate g ∧ t.nodeReady 0 0 0x0C = true ∧ (t.inv 0).hasBegun 0 = true ∧ (t.inv 0).summed.contains 0 = false ∧ g.sumCount ≠ 0 ∧ g.policy = policy ∧
      (∀ n ∈ g.sumAfter, (t.inv 0).done.contains n = true)) := by decide +kernel

theorem witness_graph_nodes :
    (let cmds := List.replicate 8 (moveDesc 0 0 0 64 4096 8192);
      let s := graph { family := 0x0D, op := .moves [(0, cmds)] } ownsPages;
      (s.node_ 0 0).op = .moves [(0, cmds)] ∧ assoc [(0, cmds)] 0 = some cmds ∧ s.areaAt 0 0 = some (0, 0) ∧ s.nodeReady 0 0 0x0D = true ∧ (s.inv 0).ran.contains (0, 0) = false ∧
      (s.tile 0).live.moves.length + cmds.length ≤ 8 ∧ okay ((s.tile 0).takeMoves (cmds.map (shiftedMove 0)) (s.moveOverlaps 0 (s.tile 0).ctx)) = true) ∧
    (∀ family ∈ [0x0E, 0x0F, 0x10],
      let s := graph { family := family, op := .atomic 0 0 2 };
      s.nodeFresh 0 0 family = true ∧ s.predicatePoisoned 0 (s.node_ 0 0) = false ∧ (s.node_ 0 0).op = .atomic 0 0 2 ∧ s.areaAt 0 0 = some (0, 0) ∧
      Table.has s.fabric.atomics (runKey (s.inv 0).task 0) = false ∧ inSram (0 + 0) (32 * 2) = true) ∧
    (let s := graph { family := 0x01, op := .passes [] } {} { begun := [(0, 0)] };
      let t := s.setTile 0 { s.tile 0 with sleep := 1 };
      t.hasInv 0 = true ∧ t.invPlaced 0 = true ∧ (t.inv 0).hasBegun 0 = true ∧ (t.inv 0).done.contains 0 = false ∧ t.nodeBusy 0 0 = false ∧
      (t.node_ 0 0).checkpoint = 0 ∧ (t.inv 0).begun.find? (fun e => e.1 == 0) = some (0, 0)) := by decide +kernel

/-- PF0 owns partition 9, of one tile, and slot 255; context 1 of it may use the pool. -/
def owns (x : Slot64) : State := withRegs { fed x with parts := [(9, { tiles := [5] })] }
  [(Reg.partOwner 9, 0), (Reg.partReservedSlots 9, 4), (Reg.slotOwner 255, 0), (Reg.beWeight 0, 1)]

/-- MODEL_UNLOAD and INVOKE of slot 255, STATE_FREE of handle 1,024 of partition 9. -/
def unloadDesc : Slot64 := slot 0x04 (255 * 2 ^ 504)
def invokeDesc : Slot64 := slot 0x02 (255 * 2 ^ 504 + 2 ^ 480 + 2 ^ 55 * 2 ^ 384)
def freeDesc : Slot64 := slot 0x05 (9 * 2 ^ 504 + 1024 * 2 ^ 488)

theorem witness_model_slots :
    (let s := withRegs (owns unloadDesc) [(Reg.slotState 255, 2)];
      let u := s.takeDesc 0 5;
      s.admits 0 5 (tempo unloadDesc) unloadDesc [1, 2] ∧ isOp 0x04 unloadDesc = true ∧ mapBits unloadDesc 511 504 = 255 ∧ u.regN (Reg.slotOwner 255) = 0 ∧
      u.reg (Reg.slotState 255) = 2 ∧ u.slotUsed 255 = false) ∧
    (let s := withRegs (owns invokeDesc) [(Reg.slotState 255, 2), (Reg.slotPartition 255, 9), (Reg.slotBatch 255, 1), (Reg.slotTiles 255, 1)];
      let u := s.takeDesc 0 5;
      s.admits 0 5 (tempo invokeDesc) invokeDesc [1, 2] ∧ isOp 0x02 invokeDesc = true ∧ u.vaRead 1 (mapBits invokeDesc 447 384) 1 [] = .ok ([0], false) ∧
      u.invokeReason (tempo invokeDesc) (invokeBodyOf invokeDesc []) = none) ∧
    (let u := (owns freeDesc).takeDesc 0 5;
      (owns freeDesc).admits 0 5 (tempo freeDesc) freeDesc [1, 2] ∧ isOp 0x05 freeDesc = true ∧ u.usesPart (tempo freeDesc) 9 = true ∧ mapBits freeDesc 511 504 = 9 ∧
      mapBits freeDesc 503 488 = 1024 ∧ (u.stateHandle 9 1024).slot = 0) ∧
    (∀ state ∈ [1, 4], let d := tempo unloadDesc;
      let s : State := withRegs { owns unloadDesc with models := { slots := [(255, { desc := some d })] } } [(Reg.slotState 255, state)];
      s.reg (Reg.slotState 255) = state ∧ (s.slot 255).desc = some d) := by decide +kernel

theorem witness_invocations :
    (let s : State := { parts := [(9, { tiles := [5] })], tiles := [(5, { sleep := 1 })], tasks := [(0, { part := 9 })], models := { invs := [(0, { part := 9, slot := 1, serving := 1 })] } };
      let v := s.inv 0;
      let k := s.task v.task;
      s.hasInv 0 = true ∧ v.running = false ∧ k.klass = 0 ∧ k.status = .waiting ∧ k.rerunDue = false ∧ k.target ≤ s.lnc ∧
      List.any s.models.invs (fun e => e.2.part == v.part && decide (e.1 < 0)) = false ∧ s.lowest = false ∧ (s.taskTiles k).all (fun p => (s.tile p).idle) = true ∧
      (s.taskTiles k).all s.awake = true ∧ s.taskTiles k = [5]) ∧
    (let s : State := { parts := [(0, { tiles := [5] })], tiles := [(5, { sleep := 1 })], tasks := [(0, { klass := 1 })], models := { invs := [(0, { slot := 1, serving := 1 })] } };
      let v := s.inv 0;
      let k := s.task v.task;
      s.hasInv 0 = true ∧ v.running = false ∧ k.klass = 1 ∧ k.status = .waiting ∧ k.rerunDue = false ∧ k.target ≤ s.lnc ∧ s.lowest = false ∧
      List.any s.models.invs (fun e => e.1 != 0 && e.2.part == 0 && !e.2.running && s.beBefore (e.2.task, s.task e.2.task) (v.task, k)
        && decide ((s.task e.2.task).target ≤ s.lnc) && (s.task e.2.task).status == .waiting) = false ∧
      (s.placement 0).length = k.vcount ∧ ((s.placement 0).map (fun e => e.1)).all s.awake = true) ∧
    (let w : Wave := { offset := 0, length := 3, dest := 0, addr := 0, vtiles := [0] };
      let s := graph { family := 0x01, waves := [w] };
      let v := s.inv 0;
      let x := s.slot v.serving;
      x.nextWave v = some (0, 0, w) ∧ s.hasInv 0 = true ∧ v.running = true ∧ s.invPlaced 0 = true ∧ v.abandoned = false ∧ (s.task v.task).tiles ≠ [] ∧
      s.wavesAhead 0 x < 2 ∧ s.waveRoom 0 x w = true ∧ s.runPoisoned x.pages w.offset w.length = false) ∧
    (let g := graph { family := 0x01 } { sleep := 0 } { begun := [(0, 0)], done := [0] };
      let s : State := { g with tasks := [(0, { status := .running, tiles := [0], quiet := true })] };
      let v := s.inv 0;
      s.hasInv 0 = true ∧ s.hasTask v.task = true ∧ (s.task v.task).status = .running ∧ v.running = true ∧ s.invPlaced 0 = true ∧ s.invDone v = true ∧
      (match s.writeOutputs 0 with | .done _ => true | _ => false) = true) ∧
    (let g := graph { family := 0x01 };
      let s : State := { g with tasks := [(0, { status := .ended, fault := 9, tiles := [0] })] };
      s.hasInv 0 = true ∧ s.hasTask 0 = true ∧ (s.task (s.inv 0).task).status = .ended ∧ (s.task (s.inv 0).task).fault ≠ 0) := by decide +kernel

theorem witness_resize_and_snapshots :
    (let r : Resize := { tiles := 1, lnc := 2400, chosen := [], grow := false, consented := true };
      let s : State := { parts := [(9, { tiles := [5], resize := some r })] };
      (s.part 9).resize = some r ∧ r.lnc ≤ s.lnc + 2400 + 20000 * ceilDiv (s.moving 9 r).length 64 ∧ s.shrinkStop 9 r = none ∧ r.grow = false) ∧
    (let r : Resize := { tiles := 2, lnc := 2400, chosen := [6], grow := true };
      let s : State := { parts := [(0, { tiles := [6] }), (9, { tiles := [5], resize := some r })] };
      (s.part 9).resize = some r ∧ r.lnc ≤ s.lnc + 2400 ∧ r.left = false ∧ s.shrinkStop 9 r = none ∧ r.grow = true) ∧
    (let r : Resize := { tiles := 2, lnc := 0, chosen := [6], grow := true, left := true };
      let s : State := { parts := [(9, { tiles := [5], resize := some r })] };
      (s.part 9).resize = some r ∧ r.left = true ∧ r.lnc ≤ s.lnc ∧ r.grow = true) ∧
    (let s : State := { funcs := [(255, { snaps := [0], snapQueue := List.replicate 63 [] })] };
      (s.func 255).snaps = [0] ∧ 0 ≤ s.lnc ∧ (s.func 255).snapQueue.length < 64) := by decide +kernel


/-- A container of one section, an empty MANIFEST, whose DIGEST8 is `z`; CHIPS, TILES and BATCH are 1. -/
def container (z : List Byte) : List Byte :=
  bytesOf 64 (0x46474B5A * 2 ^ 480 + 2 ^ 464 + 2 ^ 456 + 2 ^ 400 + 2 ^ 384 + 2 ^ 368 + 2 ^ 352 + 4096 * 2 ^ 288) ++
    (z ++ bytesOf 24 (7 * 2 ^ 176 + 4096 * 2 ^ 64) ++ zeros 4000)

/-- MODEL_LOAD of 4,096 bytes at another chip into slot 255 for the pool. -/
def containerSlot : Slot64 := slot 0x03 (255 * 2 ^ 504 + 4096 * 2 ^ 448 + 2 ^ 55 * 2 ^ 384)

theorem natOf_append (a b : List Byte) : natOf (a ++ b) = natOf a + 256 ^ a.length * natOf b := by
  induction a with
  | nil => simp [natOf]
  | cons x r ih => simp only [List.cons_append, natOf, ih, List.length_cons, pow_succ]; ring

theorem natOf_lt (a : List Byte) : natOf a < 256 ^ a.length := by
  induction a with
  | nil => simp [natOf]
  | cons x r ih => have := x.isLt; simp only [natOf, List.length_cons, pow_succ]; omega

theorem bits_above (x y hi lo : Nat) (h : x < 2 ^ 64) : bits (x + 2 ^ 64 * y) (hi + 64) (lo + 64) = bits y hi lo := by
  simp only [bits]
  rw [show hi + 64 + 1 - (lo + 64) = hi + 1 - lo by omega, pow_add, mul_comm (2 ^ lo), ← Nat.div_div_eq_div_mul, Nat.add_mul_div_left _ _ (by norm_num),
    Nat.div_eq_of_lt h, Nat.zero_add]

theorem container_head (z : List Byte) : (container z).take 64 =
    bytesOf 64 (0x46474B5A * 2 ^ 480 + 2 ^ 464 + 2 ^ 456 + 2 ^ 400 + 2 ^ 384 + 2 ^ 368 + 2 ^ 352 + 4096 * 2 ^ 288) :=
  List.take_left' (by decide)

theorem container_header (z : List Byte) : kgfHeader (container z) =
    { magic := 0x46474B5A, format := 1, major := 1, minor := 0, flags := 0, sections := 1, chips := 1, tiles := 1, batch := 1, total := 4096 } := by
  simp only [kgfHeader, fieldAt, List.drop_zero, container_head]; decide +kernel

theorem container_section (z : List Byte) (h : z.length = 8) :
    kgfSections (container z) = [{ type := 7, required := false, offset := 4096, length := 0, digest := z }] := by
  have hb : ((container z).drop (64 + 32 * 0)).take 32 = z ++ bytesOf 24 (7 * 2 ^ 176 + 4096 * 2 ^ 64) := by
    rw [container, show 64 + 32 * 0 = 64 by rfl, List.drop_left' (by decide), List.take_left' (by rw [List.length_append, h]; decide)]
  have hx : natOf z < 2 ^ 64 := by have := natOf_lt z; rw [h] at this; exact lt_of_lt_of_eq this (by norm_num)
  have hs : (256 : Nat) ^ 8 = 2 ^ 64 := by norm_num
  simp only [kgfSections, container_header, List.range_one, List.map_cons, List.map_nil, kgfSection, hb, natOf_append, h, hs, bit, List.take_left' h]
  have e1 := bits_above (natOf z) (natOf (bytesOf 24 (7 * 2 ^ 176 + 4096 * 2 ^ 64))) 191 176 hx
  have e2 := bits_above (natOf z) (natOf (bytesOf 24 (7 * 2 ^ 176 + 4096 * 2 ^ 64))) 160 160 hx
  have e3 := bits_above (natOf z) (natOf (bytesOf 24 (7 * 2 ^ 176 + 4096 * 2 ^ 64))) 127 64 hx
  have e4 := bits_above (natOf z) (natOf (bytesOf 24 (7 * 2 ^ 176 + 4096 * 2 ^ 64))) 63 0 hx
  simp only [bits] at e1 e2 e3 e4 ⊢
  norm_num at e1 e2 e3 e4 ⊢
  rw [e1, e2, e3, e4]
  decide +kernel

theorem container_length (z : List Byte) (h : z.length = 8) : (container z).length = 4096 := by
  simp only [container, List.length_append, h, zeros, List.length_replicate]
  decide

/-- A container of one section, an empty MANIFEST with its digest, is accepted into slot 255 for the pool. -/
theorem load_accepted (c : List Byte)
    (hh : kgfHeader c = { magic := 0x46474B5A, format := 1, major := 1, minor := 0, flags := 0, sections := 1, chips := 1, tiles := 1, batch := 1, total := 4096 })
    (hs : kgfSections c = [{ type := 7, required := false, offset := 4096, length := 0, digest := (Config.sha512 []).take 8 }]) :
    ((owns containerSlot).takeDesc 0 5).loadReason (tempo containerSlot) 255 0 4096 c = none := by
  have hn : ∀ k, k ≠ 7 → kgfBody c k = none := by
    intro k hk
    simp only [kgfBody, hs, List.find?_cons, List.find?_nil]
    rw [show ((7 : Nat) == k) = false by simpa using Ne.symm hk]; rfl
  have h7 : kgfBody c 7 = some [] := by simp [kgfBody, hs, KgfSection.body]
  have hd : digestsOk c = true := by simp [digestsOk, h7, manifestOf, hs, KgfSection.body]
  have ho : sectionsOk c = true := by simp only [sectionsOk, hh, hs]; decide
  have hk : kgfNodes c = [] := by simp [kgfNodes, hn]
  have hp : kgfPackages c = [] := by simp [kgfPackages, hn, packagesIn]
  have hw : nodesOk c = true := by simp [nodesOk, hk]
  have hu : unknownRequired c = false := by simp [unknownRequired, hs]
  have hf : firstForbidden c = none := by simp [firstForbidden, hk]
  simp only [State.loadReason, hh, hd, ho, hp, hw, hu, hn 2 (by decide), hf]
  generalize areasFit (Config.kgfPlan c).areas = b
  revert b
  decide +kernel

/-- The premises of the MODEL_LOAD statement hold together. -/
theorem witness_model_load :
    let z := (Config.sha512 []).take 8
    let s := owns containerSlot
    let u := s.takeDesc 0 5
    s.admits 0 5 (tempo containerSlot) containerSlot [1, 2] ∧ isOp 0x03 containerSlot = true ∧ mapBits containerSlot 511 504 = 255 ∧ mapBits containerSlot 503 496 = 0 ∧
    u.vaRead 1 (mapBits containerSlot 447 384) (mapBits containerSlot 479 448) (container z) = .ok (container z, false) ∧
    u.loadReason (tempo containerSlot) 255 0 (container z).length (container z) = none := by
  intro z s u
  have hz : z.length = 8 := by simp [z, Config.sha512]
  have hl := container_length z hz
  have ht : u.translate 1 (mapBits containerSlot 447 384) true false = .remote 0 0 := by decide +kernel
  have hm : mapBits containerSlot 479 448 = 4096 := by decide +kernel
  have hf : ∀ c : List Byte, c.length = 4096 → fit 4096 c = c := by
    intro c h; simp only [fit, h, Nat.sub_self, zeros, List.replicate_zero, List.append_nil]; exact List.take_of_length_le (by rw [h])
  refine ⟨by decide +kernel, by decide +kernel, by decide +kernel, by decide +kernel, ?_, ?_⟩
  · simp only [State.vaRead, ht, hm, hf _ hl]
  · rw [hl]; exact load_accepted _ (container_header z) (container_section z hz)

/-- Cell 255 in a state of CELL_STATE. -/
def inCell (state : Nat) (x : Cell) : State := withRegs { radio := { cells := [(255, x)] } } [(Reg.cellState 255, state)]

theorem witness_cell_life :
    (let s := inCell 1 { startAt := 25000001 };
      s.cellSt 255 = 1 ∧ (s.cell 255).resized = false ∧ (s.cell 255).startAt ≤ s.nowNs + 25000001) ∧
    (let s := inCell 1 { startAt := 20000001, resized := true };
      s.cellSt 255 = 1 ∧ (s.cell 255).resized = true ∧ (s.cell 255).encoded = false ∧ (s.cell 255).startAt ≤ s.nowNs + 20000001) ∧
    (let s := inCell 1 { startAt := 1, resized := true, encoded := true };
      s.cellSt 255 = 1 ∧ (s.cell 255).encoded = true ∧ (s.cell 255).firstEnd = 0 ∧ (s.cell 255).startAt ≤ s.nowNs + 1) ∧
    (let s := inCell 1 { startAt := 1, encoded := true, firstEnd := 1 };
      s.cellSt 255 = 1 ∧ (s.cell 255).firstEnd ≠ 0 ∧ (s.cell 255).firstEnd ≤ s.nowNs + 1) ∧
    (∀ e ∈ [(2, 1), (2, 3), (3, 2), (3, 3), (4, 3), (5, 2), (5, 3)],
      let s := inCell e.2 { waiting := [(e.1, 0)], heldBy := 3 };
      0 ≤ s.nowNs ∧ Table.find? (s.cell 255).waiting e.1 = some 0 ∧ s.cellSt 255 = e.2) ∧
    ((inCell 2 { holdNext := some ([], 0) }).cell 255).holdNext = some ([], 0) := by decide +kernel

/-- Cell 255 moves with H 1 s after the epoch, at `now` ns. -/
def moving (now : Nat) (m : MoveRun) : State := { inCell 4 { move := some m } with time := { stc := { sec := now / 1000000000, ns := now % 1000000000 } } }

theorem witness_cell_moves :
    (∀ e ∈ [(0, ({ source := false, peer := 7, peerCell := 9, h := 1000000000 } : MoveRun)), (0, { source := true, peer := 7, peerCell := 9, h := 1000000000 }),
        (950000000, { source := true, peer := 7, peerCell := 9, h := 1000000000 }), (990000000, { source := false, peer := 7, peerCell := 9, h := 1000000000, prepared := true, copied := true, committed := true }),
        (1000000000, { source := true, peer := 7, peerCell := 9, h := 1000000000, copied := true, committed := true, dualRx := true }), (1000000000, { source := true, peer := 7, peerCell := 9, h := 1000000000, copied := true, committed := true, dualRx := true, handed := true }),
        (1000000000, { source := false, peer := 7, peerCell := 9, h := 1000000000, prepared := true, copied := true, committed := true, dualRx := true, handed := true, finalSent := true }), (1010000000, { source := true, peer := 7, peerCell := 9, h := 1000000000, prepared := true, copied := true, committed := true, dualRx := true, handed := true, finalSent := true, done := true })],
      ((moving e.1 e.2).cell 255).move = some e.2 ∧ (moving e.1 e.2).cellSt 255 = 4 ∧ (moving e.1 e.2).nowNs = e.1) ∧
    (let m : MoveRun := { source := false, peer := 7, peerCell := 9, h := 1000000000 };
      m.source = false ∧ m.prepared = false ∧ m.h ≤ (moving 0 m).nowNs + 1000000000) ∧
    (let m : MoveRun := { source := true, peer := 7, peerCell := 9, h := 1000000000 };
      m.h ≤ (moving 0 m).nowNs + 1000000000 ∧ (moving 0 m).nowNs < m.h ∧ m.source = true ∧ m.copied = false ∧ (moving 0 m).nowNs + 60000000 ≤ m.h ∧ m.committed = false ∧
      m.h ≤ (moving 950000000 m).nowNs + 50000000) ∧
    (let m : MoveRun := { source := false, peer := 7, peerCell := 9, h := 1000000000, prepared := true };
      m.h ≤ (moving 0 m).nowNs + 1000000000 ∧ (moving 0 m).nowNs < m.h ∧ m.source = false ∧ m.prepared = true) ∧
    (let m : MoveRun := { source := false, peer := 7, peerCell := 9, h := 1000000000, prepared := true, copied := true, committed := true };
      m.committed = true ∧ m.dualRx = false ∧ m.h ≤ (moving 990000000 m).nowNs + 10000000 ∧ (moving 990000000 m).nowNs < m.h + 10000000 ∧
      m.handed = false ∧ m.h ≤ (moving 1000000000 m).nowNs) ∧
    (let m : MoveRun := { source := true, peer := 7, peerCell := 9, h := 1000000000, copied := true, committed := true, dualRx := true, handed := true };
      m.handed = true ∧ (m.finalSent = false ∨ m.late ≠ [])) ∧
    (let m : MoveRun := { source := false, peer := 7, peerCell := 9, h := 1000000000, prepared := true, copied := true, committed := true, dualRx := true, handed := true, finalSent := true };
      m.finalSent = true ∧ m.late = [] ∧ m.done = false ∧ m.h ≤ (moving 1000000000 m).nowNs ∧ m.committed = true ∧ m.h + 10000000 ≤ (moving 1010000000 m).nowNs) := by decide +kernel

/-- A PDU of a type, with one code block, and an order that holds it. -/
def pdu (type : Nat) : Pdu :=
  { type := type, size := 64, handle := 0, tbs := [64], coding := [(1, 2, 64)], maxIter := 8, precMode := 0, cbType := 0, srsRef := 0, pmiLength := 0, pmiAddr := 0
    spill := 1, llrExport := false, newData := true, harq := 3, supported := true, fieldsOk := true, dcis := [[true, false]] }
def order (type : Nat) : OrderIn :=
  { func := 0, ring := 5, seq := 0, ctx := 1, resultRing := 6, orderSeq := 0, resultAddr := 0, resultLength := 65536, pdus := [pdu type], entries := [] }
def withSlot (w : SlotWork) : State := inCell 2 { slots := [(4, w)], estimates := [(7, 0)] }

theorem witness_coding_and_results :
    (let w := (withSlot { dl := some (order 1), cut := true }).slotWork 255 4;
      w.dl = some (order 1) ∧ (order 1).pdu 1 0 = some (pdu 1) ∧ (pdu 1).coding[0]? = some (1, 2, 64) ∧ w.cut = true ∧ w.held = 0 ∧ (∀ e ∈ w.coded, ¬ (e.1 = 0 ∧ e.2.1 = 0))) ∧
    (let w := (withSlot { dl := some (order 0), dci := some (order 0), cut := true }).slotWork 255 4;
      w.cut = true ∧ w.held = 0 ∧ (∀ e ∈ w.coded, ¬ (e.1 = 0 ∧ e.2.1 = 0)) ∧ (pdu 0).dcis[0]? = some [true, false] ∧ (0 < 1024 ∧ w.dl = some (order 0) ∧ (order 0).pdu 0 0 = some (pdu 0)) ∧
      (1024 ≤ 1024 ∧ w.dci = some (order 0) ∧ (order 0).pdu 0 (1024 - 1024) = some (pdu 0))) ∧
    (∀ t ∈ [1, 3],
      let w := (withSlot { ul := some (order t), cut := true }).slotWork 255 4;
      w.ul = some (order t) ∧ w.ulPdu (order t) t 0 = some (pdu t) ∧ w.uplinkDone = true ∧ (∀ e ∈ w.decoded, ¬ (e.1 = 0 ∧ e.2.1 = 4096))) ∧
    (let w := (withSlot { ul := some (order 1), cut := true }).slotWork 255 4;
      let b : CodeBlock := { slot := 4, pdu := 0, index := 0, graph := 1, zc := 2, h := 64, harq := 3, newData := true, maxIter := 8, llrs := [1, -1], fillers := [] };
      b.slot = 4 ∧ w.ul = some (order 1) ∧ w.ulPdu (order 1) 1 b.pdu = some (pdu 1) ∧ w.uplinkDone = true ∧ (pdu 1).coding[b.index]? = some (b.graph, b.zc, b.h) ∧
      b.harq = (pdu 1).harq ∧ b.newData = (pdu 1).newData ∧ b.maxIter = (pdu 1).maxIter ∧ 1 ≤ b.maxIter ∧ (∀ e ∈ w.decoded, ¬ (e.1 = b.pdu ∧ e.2.1 = b.index))) ∧
    (∀ otype ∈ [1, 2, 3, 4],
      let o : OrderIn := { order 1 with errors := [(0, 2)] };
      let w := (withSlot { dl := some o, ul := some o, tx := some o, dci := some o, cut := true }).slotWork 255 4;
      w.order otype = some o ∧ 1 ≤ otype ∧ otype ≤ 4 ∧ w.cut = true ∧ o.errors ≠ [] ∧ o.batches.contains 4 = false) ∧
    (let w := (withSlot { ul := some (order 1), cut := true }).slotWork 255 4;
      ∀ btype ∈ [1, 3], w.order 2 = some (order 1) ∧ 1 ≤ btype ∧ btype ≤ 3 ∧ w.uplinkDone = true ∧ (order 1).batches.contains btype = false ∧ w.batchOk (order 1) [] = true) ∧
    (Table.find? ((withSlot {}).cell 255).estimates 7 = some 0 ∧ 0 ≤ (withSlot {}).nowNs) := by
  refine ⟨?_, ?_, ?_, ?_, ?_, ?_, ?_⟩ <;> decide +kernel

theorem witness_conductors_and_parts :
    (let s : State := { time := { ticks := 7813 } };
      7 < 8 ∧ 1 < 2 ∧ s.radio.hung.contains 15 = false ∧ s.fwRestarting 7 1 = false ∧ s.passed (Table.get 0 s.radio.beats 15) 10000 = true ∧
      s.passed (Table.get 0 s.radio.beats 15) 50000 = true ∧ s.clusterCells 7 = []) ∧
    (let s : State := withRegs { radio := { hung := [1], cells := [(255, {})] } } [(Reg.cellState 255, 2)];
      s.fwRestarting 0 1 = false ∧ s.radio.hung.contains 1 = true ∧ Table.has s.radio.checks 1 = false ∧ s.radio.hung.contains (2 * 0 + (1 - 1)) = false ∧ s.clusterCells 0 ≠ []) ∧
    (let s : State := { radio := { hung := [14, 15] } };
      s.radio.hung.filter (fun x => x / 2 == 7 && !Table.has s.radio.checks x) = 14 :: 15 :: [] ∧ s.radio.restarts.contains 14 = false) ∧
    (let s : State := withRegs { time := { stc := { ns := 25000000 } }, radio := { hung := [0], checks := [(0, 1)], cells := [(254, {}), (255, {})] } }
        [(Reg.cellState 255, 2), (Reg.cellConductor 255, 1), (Reg.cellState 254, 2), (Reg.cellConductor 254, 1), (Reg.cellFrameOffset 254, 9000000)];
      s.cellSt 255 ≠ 0 ∧ s.backCore 255 = 0 ∧ s.radio.hung.contains (2 * s.regN (Reg.cellCluster 255) + 0) = true ∧ s.backAt 255 0 = some 20000000 ∧ 20000000 ≤ s.nowNs ∧
      s.regN (Reg.cellConductor 255) ≠ 0 ∧ 254 ∈ s.clusterCells (s.regN (Reg.cellCluster 255)) ∧ s.backAt 254 0 = some 29000000 ∧ s.nowNs < 29000000) ∧
    (let s : State := { tasks := [(0, { radio := some { slotWork with cell := 255, slot := 4, standby := 1 }, rerunDue := true })] };
      (s.task 0).radio = some { slotWork with cell := 255, slot := 4, standby := 1 } ∧ s.hasTask 0 = true ∧ (s.task 0).rerunDue = true) ∧
    (let s : State := { radio := { shrinkAt := [(7, 1)] } };
      Table.get 0 s.radio.shrinkAt 7 = 1 ∧ 1 ≠ 0 ∧ 1 - 1 ≤ s.nowNs ∧ s.radio.cells = []) := by decide +kernel


/-- Node 3 of an active job of ID 7 on nodes 3 and 4, bound to context 1 of PF0, whose first 64 KiB are a GDDR7 page. -/
def home : State :=
  (withRegs { mem := { maps := [(2 ^ 27, .gddr 0 true true)] }, fabric := { jobs := [(0, { bound := 2 })] } }
    [(Reg.nodeId, 3), (Reg.jobState 0, 2), (Reg.jobId 0, 7), (Reg.jobChips 0, 2)]).setBlob (Reg.jobRankMap 0) [3, 0, 4, 0]
/-- A packet of the peer, at an offset. -/
def packet (offset : Nat) : Packet := { blankPacket with src := 4, dst := 3, job := 7, tag := 1, offset := offset, w64 := true, operand := 5 }

/-- `home` with node 4 its quad peer 0 over link 15, confirmed. -/
def quad : State := withRegs { home with fabric := { home.fabric with links := [(15, { up := 2 })] } }
  [(Reg.quadPeers, 2 ^ 48 + 4), (Reg.quadStatus, 1), (Reg.linkMode 15, 4), (Reg.linkPeer 15, 4)]

theorem witness_reads_at_home :
    (let p := { packet 0 with job := 8 };
      home.hears p = true ∧ home.homeOf p = none) ∧
    (let p := { packet 0xFF00 with len := 63 };
      let u := home.chargeBytes (home.regN (Reg.jobOwner 0)) 7 (packetBytes { p with opcode := 0x01 });
      home.hears p = true ∧ home.homeOf p = some (0, 2) ∧ 2 ≠ 0 ∧ (u.readLocal 1 p.offset (4 * (p.len + 1))).isSome = true ∧ (u.readLocal 1 p.offset 8).isSome = true ∧
      (u.readLocal 1 (p.offset / 256 * 256) 256).isSome = true ∧ u.localPlace 1 p.offset true false = .gddr 0xFF00 ∧
      (Table.get [] u.fabric.sharers (1 * 34359738368 + p.offset / 256)).contains p.src = false) ∧
    (let p := packet 0xFF00;
      let u := quad.chargeBytes (quad.regN (Reg.jobOwner 0)) 7 (packetBytes { p with opcode := 0x28 });
      quad.hears p = true ∧ quad.homeOf p = some (0, 2) ∧ (u.readLocal 1 (p.offset / 256 * 256) 256).isSome = true ∧ u.localPlace 1 p.offset true false = .gddr 0xFF00 ∧
      u.isQuadPeer p.src = true ∧ (Table.get [] u.fabric.sharers (1 * 34359738368 + p.offset / 256)).contains p.src = false) := by decide +kernel

theorem witness_atomics_at_home : ∀ op ∈ [0x08, 0x09, 0x0A, 0x0B, 0x0C, 0x0D, 0x0E, 0x0F, 0x10, 0x02],
    let p := { packet 0xFFF8 with data := [1, 2, 3, 4] };
    let v := home.chargeBytes (home.regN (Reg.jobOwner 0)) 7 (packetBytes { p with opcode := op });
    let u := v.setReplay p ((v.replay p).advance p.tag);
    home.hears p = true ∧ home.homeOf p = some (0, 2) ∧ 2 ≠ 0 ∧ (v.replay p).hw = 0 ∧ u.reg Reg.determinismMode ≠ 1 ∧
    (u.readLocal 1 p.offset 8).isSome = true ∧ u.localPoisoned 1 p.offset 8 = false ∧ (∀ x ∈ [0, 2 ^ 64 - 1], (u.writeLocal 1 p.offset (bytesOf 8 x)).isSome = true) ∧
    (op = 0x10 ∨ ((u.readLocal 1 p.offset 4).isSome = true ∧ u.localPoisoned 1 p.offset 4 = false ∧ (u.writeLocal 1 p.offset (bytesOf 4 5)).isSome = true)) ∧
    home.fabric.held = [] ∧ Table.get [] u.fabric.sharers (1 * 34359738368 + p.offset / 256) = [] ∧ Table.get [] u.fabric.dropping (1 * 34359738368 + p.offset / 256) = [] ∧
    (u.writeLocal 1 p.offset p.data).isSome = true := by decide +kernel

theorem witness_atomics_refused : ∀ op ∈ [0x08, 0x09, 0x0A, 0x0B, 0x0C, 0x0D, 0x0E, 0x0F, 0x10],
    let p := packet 0;
    let s := withRegs home [(Reg.determinismMode, 1)];
    let v := s.chargeBytes (s.regN (Reg.jobOwner 0)) 7 (packetBytes { p with opcode := op });
    s.hears p = true ∧ s.homeOf p = some (0, 2) ∧ (v.replay p).hw = 0 ∧ (v.setReplay p ((v.replay p).advance p.tag)).reg Reg.determinismMode = 1 ∧ atomicForbidden op p.noret = true ∧
    s.fabric.held = [] ∧ s.fabric.sharers = [] ∧ s.fabric.dropping = [] := by
  decide +kernel

/-- `home` with one outstanding request of an opcode to node 4. -/
def asked (op : Nat) (sink : Sink) : State :=
  { home with fabric := { home.fabric with requests := [(9, { packet := { blankPacket with opcode := op, src := 3, dst := 4, job := 7, tag := 1 }, ctx := 1, sink := sink, sentAt := 0 })] } }

theorem witness_responses_and_coherence :
    (∀ e ∈ [(0x01, Sink.moveLoad 1 0, [0x01, 0x28]), (0x28, Sink.moveLoad 1 0, [0x01, 0x28]), (0x02, Sink.moveStore 1, [0x02, 0x1A, 0x1B, 0x1C, 0x1D]), (0x1D, Sink.device, [0x02, 0x1A, 0x1B, 0x1C, 0x1D]),
        (0x03, Sink.atomic 0 64, [0x03, 0x08, 0x09, 0x0A, 0x0B, 0x0C, 0x0D, 0x0E, 0x0F, 0x10, 0x18, 0x19])],
      let s := asked e.1 e.2.1;
      s.hears (packet 0) = true ∧ s.homeOf (packet 0) ≠ none ∧ ((s.answered (packet 0) e.2.2).map (fun x => (x.1, x.2.sink))) = some (9, e.2.1) ∧ (packet 0).offset % 256 = 0) ∧
    (home.hears (packet 0) = true ∧ home.answered (packet 0) [0x01, 0x28] = none ∧ home.homeOf (packet 0) = some (0, 2)) ∧
    (let p := { packet 0 with job := 8 };
      home.hears p = true ∧ p.job ≠ controlJob ∧ home.homeOf p = none) ∧
    (home.quadPlaces.filter (fun e => e.2 == 4) = [] ∧ quad.hears (packet 0) = true ∧ quad.quadPlaces.filter (fun e => e.2 == 4) = (0, 4) :: []) := by decide +kernel

theorem witness_sync_messages :
    let p := { packet 0 with operand := 65535 + 65536 * 65535, compare := 1 };
    let waiter : Waiter := { since := 0, ctx := 1, seq := 0, task := 0, entry := 0, count := 1 };
    ∀ e ∈ [(0x18, 0, []), (0x19, 0, []), (0x1A, 0, []), (0x1B, 1, []), (0x1B, 0, [(65536 * 5 + 65535, 1)])],
      let o : SyncObj := { owner := 1, vid := 5, kind := 0, klass := 0, value := 1, waiters := [waiter], remoteJob := e.2.1, homeNode := 4, homeId := 65535, holders := e.2.2 };
      let s : State := { home with sync := { objects := [(65535, o)] } };
      let v := s.chargeBytes (s.regN (Reg.jobOwner 0)) 7 (packetBytes { p with opcode := e.1 });
      let u := v.setReplay p ((v.replay p).advance p.tag);
      let w : Waiter := { since := u.lnc, ctx := 65535, seq := 0, task := 0, entry := 0, count := p.compare, node := p.src, job := 0, proxy := 65535 };
      s.hears p = true ∧ s.homeOf p = some (0, 2) ∧ (v.replay p).hw = 0 ∧ (u.countReceived 0).object 65535 = some o ∧ u.object 65535 = some o ∧
      p.operand % 65536 = 65535 ∧ p.operand / 65536 % 65536 = 65535 ∧ o.owner + 1 = 2 ∧ o.abandoned = false ∧ (u.quietOf (u.partNo o.owner)).frozen = false ∧
      o.waiters.find? (fun (w : Waiter) => w.count == p.compare) = some waiter ∧
      ((((u.setObject 65535 { o with proxies := [(0, 4, 65535)] }).waitAt 65535 w).object 65535).map (fun o => o.owner)) = some 1 ∧
      (e.2.1 = 1 → o.remoteJob = 0 + 1 ∧ o.homeNode = p.src ∧ o.homeId = 65535) ∧ (e.2.2 ≠ [] → o.remoteJob ≠ 0 + 1 ∧ Table.has o.holders (65536 * (p.src + 1) + 65535) = true) := by decide +kernel

theorem witness_fabric_links :
    (let s : State := withRegs { fabric := { links := [(15, { up := 2 })] } } [(Reg.linkMode 15, 4)];
      let f : Flit := { crcOk := true, seq := 0, ack := 0, nak := false, cvc := 0, credits := 0, packets := [] };
      let g := { f with crcOk := false };
      s.linkUp 15 = true ∧ s.linkZfl 15 = true ∧ (s.link 15).retrainAt = 0 ∧ f.crcOk = true ∧ f.seq = (s.link 15).rxNext ∧ g.crcOk = false ∧ (s.link 15).up ≠ 0) ∧
    ((⟨1, 0, 0, [], 0, 1, [], [], 0, []⟩ : Link).retrainAt ≠ 0) ∧
    (let s : State := withRegs {} [(Reg.linkMode 15, 4)];
      s.reg (Reg.linkMode 15) ≠ 0 ∧ (s.link 15).up ≤ 1) ∧
    (let s : State := withRegs { fabric := { links := [(15, { up := 2 })] } } [(Reg.linkMode 15, 5)];
      s.linkUp 15 = true ∧ 5 ≤ s.reg (Reg.linkMode 15)) := by decide +kernel

/-- A request that has been outstanding since tick 0. -/
def waits : Request := { packet := { blankPacket with opcode := 0x01, src := 3, dst := 4, job := 7, tag := 1 }, ctx := 1, sink := .moveStore 1, sentAt := 0 }

theorem witness_fabric_timers :
    (let s : State := withRegs { time := { ticks := 1000000000 } } [(Reg.nodeId, 3)];
      s.node ≠ 0xFFFF ∧ s.passed s.fabric.heartbeatAt (s.regN Reg.hbPeriod) = true ∧ s.relia.ctHung.length < 2) ∧
    (let s : State := withRegs { time := { ticks := 1000000000 }, fabric := { heard := [(4095, 1)] } } [(Reg.quadPeers, 2 ^ 48 + 4095)];
      let h := Table.get 0 s.fabric.heard 4095;
      h ≠ 0 ∧ 4095 < 4096 ∧ s.fabric.dead.contains 4095 = false ∧ s.passed (h - 1) (s.regN Reg.hbMiss * s.regN Reg.hbPeriod) = true ∧
      s.peers.contains 4095 = true) ∧
    (let s : State := { time := { ticks := 1000000000 }, fabric := { requests := [(9, waits)] } };
      s.fabric.dead.contains waits.packet.dst = false ∧ ({ s with fabric := { s.fabric with dead := [4] } } : State).fabric.dead.contains waits.packet.dst = true ∧
      Table.find? s.fabric.requests 9 = some waits ∧ waits.retries < 3 ∧ s.passed waits.sentAt ((waits.retries + 1) * s.regN Reg.reqTimeout) = true ∧
      s.passed waits.sentAt (4 * s.regN Reg.reqTimeout) = true) ∧
    (let s : State := { time := { ticks := 1000000000 }, fabric := { replays := [(pairKey 7 4, { hw := 2, applied := [(1, ⟨0, 5, 0, false⟩)] })] } };
      (1, (⟨0, 5, 0, false⟩ : Applied)) ∈ (Table.get {} s.fabric.replays (pairKey 7 4)).applied ∧ s.passed 0 1000000 = true) ∧
    (let a : AtomicRun := { addr := 0, count := 1 };
      let s : State := { tiles := [(511, { task := 1, mem := placed 31 [0xFC] })], fabric := { atomics := [(0, a)] } };
      let t := s.tile 511;
      t.task ≠ 0 ∧ t.switching = 0 ∧ runKey (t.task - 1) t.rank = 0 ∧ Table.find? s.fabric.atomics 0 = some a ∧ a.next < a.count ∧
      bits (natOf (t.read (a.addr + 32 * a.next) 32)) 255 250 = 0x3F ∧ s.fabric.fences = []) ∧
    (let a : AtomicRun := { addr := 0, count := 1 };
      ∀ run ∈ [0, 1],
        let x : Fence := { ctx := 1, covers := [4], run := run };
        let s : State := { tiles := [(511, { task := 1 })], tasks := [(0, { status := .running, tiles := [511] })], fabric := { atomics := [(0, a)], fences := [x] } };
        s.fabric.fences = [x] ∧ x.ctx = 1 ∧ s.fenceDone x = true ∧ x.run = run ∧
        (run = 0 ∨ (s.holdsRun (x.run - 1) = true ∧ Table.find? s.fabric.atomics (x.run - 1) = some a))) := by
  refine ⟨?_, ?_, ?_, ?_, ?_, ?_⟩ <;> decide +kernel

/-- JOB_BIND of entry 63. -/
def bindSlot : Slot64 := slot 0x0B (63 * 2 ^ 506)

theorem witness_jobs :
    (let s : State := withRegs { fabric := { jobs := [(63, { applyAt := 1 })] } } [(Reg.jobState 63, 1)];
      s.jobState 63 = 1 ∧ (s.job 63).applyAt ≠ 0 ∧ (s.job 63).applyAt - 1 ≤ s.lnc) ∧
    (∀ klass ∈ [0, 1],
      let s := withRegs (fed bindSlot) [(Reg.jobState 63, 2), (Reg.jobClass 63, klass)];
      s.admits 0 5 (tempo bindSlot) bindSlot [1, 2] ∧ isOp 0x0B bindSlot = true ∧ mapBits bindSlot 511 506 = 63 ∧ s.jobState 63 = 2 ∧
      s.regN (Reg.jobOwner 63) = (tempo bindSlot).func ∧ (s.job 63).bound = 0 ∧ s.jobOf (tempo bindSlot).context = none) ∧
    (let s : State := withRegs { time := { ticks := 10000000000 }, fabric := { jobs := [(63, { faultAt := 1 })] } } [(Reg.jobState 63, 3)];
      s.jobState 63 = 3 ∧ (s.job 63).faultAt ≠ 0 ∧ s.passed ((s.job 63).faultAt - 1) (1000000 * s.regN Reg.teardownTimeout) = true) ∧
    (∀ bound ∈ [0, 4096],
      let s : State := withRegs { time := { ticks := 10000000000 }, fabric := { jobs := [(63, { tearAt := 1, bound := bound })] } } [(Reg.jobState 63, 4)];
      s.jobState 63 = 4 ∧ (s.job 63).tearAt ≠ 0 ∧ s.passed ((s.job 63).tearAt - 1) 10000000 = true ∧ (s.job 63).bound = bound ∧ (s.job 63).quiet = false) := by decide +kernel


/-- PCI Express is in L0 and VF Enable set. -/
def linked : State := { boot := { perst := false, link := true, vfEnable := true } }

theorem witness_functions_and_start :
    (let s : State := withRegs { time := { ticks := 10000000 }, funcs := [(512, { disablingAt := 1, byFlr := true })] } [(Reg.functionState 512, 2)];
      s.reg (Reg.functionState 512) = 2 ∧ (s.func 512).disablingAt ≠ 0 ∧ s.passed ((s.func 512).disablingAt - 1) 10000000 = true) ∧
    (linked.boot.link = true ∧ linked.functionExists 0 = true ∧ linked.functionExists 512 = true ∧ 1 ≤ 512 ∧ (linked.func 512).tdi = 0 ∧ linked.boot.vfEnable = true) ∧
    (let s : State := { linked with funcs := [(512, { tdi := 1 })] };
      (s.func 512).tdi = 1 ∧ 0x80 < 0x81) ∧
    (let s : State := { linked with sec := { spdm := [(channelNumber (.doe 512), { session := 2 })] } };
      s.functionExists 512 = true ∧ s.boot.link = true ∧ (s.spdmOf (.doe 512)).session = 2 ∧ (([5] : List Byte).getD 0 0).toNat = 5) ∧
    (withRegs {} [(Reg.startupStage, 1)]).reg Reg.startupStage = 1 ∧
    (let s : State := withRegs {} [(Reg.startupStage, 2), (Reg.trainStatus, 16)];
      s.reg Reg.startupStage = 2 ∧ s.reg Reg.trainStatus ≠ 0) := by decide +kernel

/-- MAP of `count` GDDR7 pages at address 0 for reads and writes, UNMAP of 32 units there. -/
def mapSlot (count : Nat) : Slot64 := slot 0x09 (2 ^ 507 + 2 ^ 506 + count * 2 ^ 416)
def unmapSlot : Slot64 := slot 0x0A (32 * 2 ^ 416)

theorem witness_memory_and_firmware :
    (∀ e ∈ [(1, none), (0, some 41)],
      let x := mapSlot e.1;
      let s : State := withRegs (fed x) [(Reg.fnqGddr7Quota 0, 16), (Reg.gddr7DataBytes, 65536 * 2097152), (Reg.trainStatus, 1)];
      s.admits 0 5 (tempo x) x [1, 2] ∧ isOp 0x09 x = true ∧ (s.takeDesc 0 5).mapReason (tempo x) (mapBodyOf x) = e.2) ∧
    (let s : State := fed unmapSlot { mem := { maps := [(mapKey 1 0, .gddr 3 true true)] } };
      s.admits 0 5 (tempo unmapSlot) unmapSlot [1, 2] ∧ isOp 0x0A unmapSlot = true ∧ mapBits unmapSlot 447 416 = 32 ∧ mapBits unmapSlot 383 320 = 0 ∧
      (s.takeDesc 0 5).unmapReason (tempo unmapSlot) 32 0 = none) ∧
    (let s : State := { mem := { zeroising := [(7, 1)] } };
      Table.get 0 s.mem.zeroising 7 ≠ 0) ∧
    ((State.reset).reg Reg.trainStatus = 0 ∧ (∀ d ∈ [32, 64, 128], d = 32 ∨ d = 64 ∨ d = 128)) ∧
    (let s : State := withRegs { time := { ticks := 100000000 } } [(Reg.trainStatus, 1)];
      s.reg Reg.trainStatus = 1 ∧ s.passed s.mem.wckAt 100000000 = true) ∧
    (let s : State := { mem := { retrainAt := [(15, 1)], retraining := [14] } };
      Table.get 0 s.mem.retrainAt 15 ≠ 0 ∧ Table.get 0 s.mem.retrainAt 15 - 1 ≤ s.lnc ∧ 15 < 16 ∧ s.mem.retraining.contains 14 = true) ∧
    (let s : State := { relia := { switches := [(8, 1)] } };
      8 < 9 ∧ Table.get 0 s.relia.switches 8 ≠ 0 ∧ Table.get 0 s.relia.switches 8 - 1 ≤ s.lnc ∧ Table.has s.relia.switching 8 = false) ∧
    (∀ phase ∈ [0, 2], ∀ n ∈ [7, 8],
      let x : FwSwitch := { core := 1, phase := phase };
      let s : State := { time := { stc := { sec := 1 } }, relia := { switching := [(n, x)] } };
      Table.find? s.relia.switching n = some x ∧ x.phase ≠ 1 ∧ (n = 8 ∨ s.clusterCells n = []) ∧ 50 * x.checkAt + (if x.phase = 0 then 1000000 else 20000000) ≤ s.nowNs) ∧
    (∀ n ∈ [7, 8],
      let x : FwSwitch := { core := 1, phase := 1 };
      let s : State := { relia := { switching := [(n, x)] } };
      Table.find? s.relia.switching n = some x ∧ x.phase = 1 ∧ (n = 8 ∨ n ≠ 8)) ∧
    (let s : State := { sec := { advancing := 4 } };
      s.sec.advancing ≠ 0 ∧ s.sec.waiting = []) := by
  refine ⟨?_, ?_, ?_, ?_, ?_, ?_, ?_, ?_, ?_, ?_⟩ <;> decide +kernel

/-- The management port is up, and peer 15 may view. -/
def managed : State := (withRegs { time := { ticks := 20000000000 } } [(Reg.mgLink, 1), (Reg.peerRole 15, 1)]).setBlob (Reg.peerKey 15) [1, 2, 3]
/-- A well-formed HDP body: OP and data. -/
def hdpBody (op : Nat) (data : List Byte) : List Byte := bytesOf 40 (0x4844 * 2 ^ 304 + 2 ^ 296 + op * 2 ^ 288 + data.length * 2 ^ 256 + 5 * 2 ^ 224) ++ data
def hand (at' : Nat) : Handshake := { peerKey := [1, 2, 3], role := 1, keyIn := [], keyOut := [], transcript := [], source := 0, startedAt := at' }
def sess : Session := { peerKey := [1, 2, 3], role := 1, keyIn := [], keyOut := [], source := 0, lastFrame := 0 }

theorem witness_management_port :
    managed.mgUp = true ∧ (List.replicate 1472 (0 : Byte)).length ≤ 1472 ∧
    (let s : State := { managed with dict := { managed.dict with sessions := (List.range 8).map (fun k => (k, sess)) } };
      s.mgUp = true ∧ 8 ≤ s.dict.sessions.length + s.dict.handshakes.length) ∧
    (managed.dict.sessions.length + managed.dict.handshakes.length < 8 ∧ managed.peerRoleOf [9] = none ∧ managed.peerRoleOf [1, 2, 3] = some 1) ∧
    (let s := managed.setHandshake 5 (some (hand 20000000000));
      assoc s.dict.handshakes 5 = some (hand 20000000000) ∧ (hand 20000000000).waits = none ∧ s.passed (hand 20000000000).startedAt 1000000000 = false ∧ s.peerRoleOf [1, 2, 3] = some 1) ∧
    (let s := withRegs {} [(Reg.domainOn, 2 ^ 37), (Reg.mgMode, 1)];
      s.domain 37 = true ∧ s.bootNum Reg.mgMode 1 ≠ 0) ∧
    (let s := managed.setHandshake 5 (some (hand 0));
      assoc s.dict.handshakes 5 = some (hand 0) ∧ (hand 0).waits = none ∧ s.passed (hand 0).startedAt 1000000000 = true) ∧
    (let s := managed.setSession 5 sess;
      s.session 5 = some sess ∧ s.passed sess.lastFrame (s.regN Reg.sessionIdle * 1000000000) = true) ∧
    (let x : Stage := ⟨0, [], 0⟩;
      let s : State := { managed with dict := { managed.dict with stages := [(1029, x)] } };
      assoc s.dict.stages 1029 = some x ∧ s.passed x.last 10000000000 = true) ∧
    (let s : State := { sec := { deriving' := true } };
      s.sec.deriving' = true ∧ s.sec.held = [] ∧ s.dict.handshakes = []) ∧
    (let x : Subscription := ⟨0x1000, 0, 0, 0, 2, 0, []⟩;
      ∀ holder ∈ [0, 1029],
        let s := managed.setSubs holder [x];
        (Table.get [] s.dict.subs holder).find? (fun x => x.index == 0x1000 && x.sub == 0 && s.noteDue holder x) = some x ∧ (holder < 1024 ∨ s.mgUp = true)) := by
  refine ⟨?_, ?_, ?_, ?_, ?_, ?_, ?_, ?_, ?_, ?_, ?_⟩ <;> decide +kernel

/-- A HELLO of 96 bytes, and a PROVE whose tag is the one that its body asks for. -/
theorem witness_hello_and_prove :
    (∃ h : HdpFrame, hdpFormed h = true ∧ hdpOp h = 0x10 ∧ (h.body.drop 40).length = 96) ∧
    (∃ h : HdpFrame, hdpFormed h = true ∧ hdpOp h = 0x11 ∧ h.session = 5 ∧ hdpTag (hand 20000000000).keyIn h.body = h.tag) :=
  ⟨⟨⟨5, 0, 0, hdpBody 0x10 (zeros 96), []⟩, by decide +kernel, by decide +kernel, by decide +kernel⟩,
   ⟨⟨5, 0, 0, hdpBody 0x11 (zeros 64), hdpTag (hand 20000000000).keyIn (hdpBody 0x11 (zeros 64))⟩, by decide +kernel, by decide +kernel, rfl, rfl⟩⟩

/-- A hold source with one entry, for slot 0, that holds one PDCCH PDU. -/
def holdBytes : List Byte := bytesOf 8 (2 ^ 56 + 2 ^ 32 + 32) ++ bytesOf 16 (2 ^ 96 + 8 * 2 ^ 64) ++ bytesOf 8 (8 * 2 ^ 32)
/-- Cell 255 on the air with that source. -/
def onAir (w : SlotWork := {}) : State := withRegs { radio := { cells := [(255, { holdSource := holdBytes, slots := [(0, w)] })] } } [(Reg.cellState 255, 2)]

theorem witness_rings_and_release :
    (let s := withRegs {} [(Reg.ringKind 512 63, 1), (Reg.functionState 512, 1)];
      s.reg (Reg.ringKind 512 63) ≠ 0 ∧ s.reg (Reg.ringStatus 512 63) = 0 ∧ s.reg (Reg.functionState 512) = 1) ∧
    (let s := (withRegs { time := { stc := { ns := 100000 } } } [(Reg.ringKind 0 5, 2), (Reg.ringStatus 0 5, 1), (Reg.functionState 0, 1), (Reg.ringFetchPeriod 0 5, 1000)]).setRing 0 5 { extra := [2000] };
      s.fetchable 0 5 = true ∧ s.periodicDue 0 5 = true ∧ (∃ x ∈ (s.ring 0 5).extra, x ≤ s.lnc)) ∧
    (let s := (withRegs {} [(Reg.ringKind 0 5, 2), (Reg.ringStatus 0 5, 1), (Reg.functionState 0, 1), (Reg.ringFetchPeriod 0 5, 0)]).setRing 0 5 { fallback := 1 };
      s.fetchable 0 5 = true ∧ s.reg (Reg.ringFetchPeriod 0 5) = 0 ∧ (s.ring 0 5).fallback ≠ 0 ∧ (s.ring 0 5).fallback - 1 ≤ s.lnc) ∧
    (fed (slot 0x00)).admits 0 5 (tempo (slot 0x00)) (slot 0x00) [1, 2] ∧ isOp 0x00 (slot 0x00) = true ∧
    (let x := slot 0x19;
      let s := (withRegs {} [(Reg.ringKind 0 5, 4), (Reg.ctxEnable 0 1, 1)]).setRing 0 5 { cons := 1, fetched := [(0, x)], buffers := List.replicate 255 0 };
      s.admits 0 5 (tempo x) x [4] ∧ isOp 0x19 x = true ∧ (s.ring 0 5).buffers.length < 256) ∧
    (let s := (withRegs {} [(Reg.ringKind 0 6, 3), (Reg.functionState 0, 1), (Reg.ringSize 0 6, 16)]).setRing 0 6 { prod := 16 };
      s.reg (Reg.ringKind 0 6) = 3 ∧ s.reg (Reg.functionState 0) = 1 ∧ s.ringFull 0 6 = true ∧ (s.ring 0 6).consReadAt = 0) ∧
    (let s := (withRegs { time := { ticks := 1000000 } } [(Reg.functionState 0, 1)]).setRing 0 6 { irqPending := 1 };
      s.reg (Reg.functionState 0) = 1 ∧ (s.ring 0 6).irqPending ≠ 0 ∧ s.passed (s.ring 0 6).irqFirst (s.regN (Reg.ringModTime 0 6)) = true) ∧
    (let s := onAir;
      let w := s.slotWork 255 0;
      255 < 256 ∧ s.serves 255 0 = true ∧ w.released = 0 ∧ s.releaseNs 255 0 ≤ s.nowNs ∧ s.nowNs < s.airNs 255 0 + s.slotLen 255 ∧
      s.holdHas 255 0 = true ∧ w.holdSent = false ∧ s.launchDl 255 0 / 50 ≤ s.lnc) ∧
    (∀ released ∈ [1, 2],
      let s : State := { onAir { released := released } with time := { stc := { ns := 1000000 } } };
      let w := s.slotWork 255 0;
      13 < 14 ∧ s.symbolNs 255 0 13 + s.regN (Reg.bindTcpAdvDl 255) ≤ s.nowNs + s.regN (Reg.cellT1aMax 255) ∧ (w.released = 1 ∨ (w.released = 2 ∧ s.holdHas 255 0 = true)) ∧
      w.symbols.contains 13 = false ∧ s.symbolNs 255 0 13 ≤ s.nowNs + s.regN (Reg.bindT1aMinUp 255)) := by
  refine ⟨?_, ?_, ?_, ?_, ?_, ?_, ?_, ?_, ?_⟩ <;> decide +kernel


/-- Cell 255 is on the air for PF0, whose ring 5 has fetched an order; its next frame begins at 10 ms, LNC 200,000. -/
def ordered (x : Slot64) (w : SlotWork := {}) : State :=
  withRegs { fed x with radio := { cells := [(255, { slots := [(20, w)] })] } } [(Reg.cellState 255, 2), (Reg.cellNumerology 255, 1), (Reg.ringFetchPeriod 0 5, 1000)]
/-- An order of a type for SFN 1, slot 0, of `count` PDUs, whose list is at another chip. -/
def orderSlot (type count : Nat) (slotNo : Nat := 0) : Slot64 :=
  slot 0x10 (type * 2 ^ 508 + 255 * 2 ^ 500 + 2 ^ 490 + slotNo * 2 ^ 472 + 6 * 2 ^ 464 + count * 2 ^ 448 + 2 ^ 55 * 2 ^ 320 + 65536 * 2 ^ 224) 200000

theorem witness_orders_and_cutoff :
    (∀ type ∈ [1, 2, 3, 4],
      let x := orderSlot type 0;
      let u := (ordered x).takeDesc 0 5;
      let q := orderBodyOf x [];
      (ordered x).admits 0 5 (tempo x) x [1, 2] ∧ isOrder type x = true ∧ u.orderReason (tempo x) q = none ∧
      u.vaRead (tempo x).context q.listAddr q.listLength [] = .ok ([], false) ∧ orderTiled q type = true ∧ u.orderSlot (tempo x) q = some 20 ∧
      orderTiled (orderBodyOf (orderSlot type 1) []) type = false ∧
      u.orderReason (tempo x) { q with cell := 0 } ≠ none) ∧
    (let s : State := { ordered (slot 0x10) with time := { stc := { ns := 9500000 } } };
      let u := s.pruneSlots 255;
      255 < 256 ∧ s.cellSt 255 = 2 ∧ s.airNs 255 20 ≤ s.nowNs + s.cutLead 255 ∧ s.nowNs < s.airNs 255 20 ∧ (u.slotWork 255 20).cut = false ∧ (u.slotWork 255 20).released = 0 ∧
      s.conducted 255 20 = true ∧ u.cellSt 255 = 2 ∧ u.serves 255 20 = true) ∧
    (let s : State := withRegs { radio := { cells := [(255, { missed := 3, slots := [(0, { held := 5 })] })] }, time := { stc := { ns := 1000000 } } }
        [(Reg.cellState 255, 2), (Reg.cellNumerology 255, 1), (Reg.cellMissedLimit 255, 3)];
      s.cellSt 255 = 2 ∧ s.regN (Reg.cellMissedLimit 255) ≤ (s.cell 255).missed ∧
      s.airNs 255 (((List.filter (fun (e : Nat × SlotWork) => e.2.held == 5) (s.cell 255).slots).foldl (fun m (e : Nat × SlotWork) => max m e.1) 0)
        - ((s.cell 255).missed - s.regN (Reg.cellMissedLimit 255))) + s.slotLen 255 ≤ s.nowNs) ∧
    (let s : State := { tasks := [(0, { status := .registered }), (1, { status := .registered, radio := some { slotWork with cell := 255, uplink := true } })] };
      s.hasTask 0 = true ∧ (s.task 0).status = .registered ∧ (s.task 0).radio = none ∧ s.hasTask 1 = true ∧ (s.task 1).status = .registered ∧
      (s.task 1).radio = some { slotWork with cell := 255, uplink := true }) := by
  refine ⟨?_, ?_, ?_, ?_⟩ <;> decide +kernel

/-- Port 63 is up; the cell's uplink streams begin at eAxC 16. -/
def ported : State := withRegs { ports := { ports := [(63, { up := 2 })] }, radio := { cells := [(255, {})] } }
  [(Reg.portMode 63, 1), (Reg.cellState 255, 2), (Reg.bindFhPort 255, 63), (Reg.bindEaxcUl 255, 16), (Reg.bindStreams 255, 4)]
def rxFrame (length etherType : Nat) : RxFrame := ⟨length, true, false, 0, 0, 0, etherType, none, none, []⟩
def ecpri (mtype : Nat) : Ecpri :=
  { revision := 1, cBit := false, mtype := mtype, eaxc := 16, seqid := 0, eBit := true, action := 0, timeNs := 0, payloadVersion := 1, filterIndex := 0, rb := 0, symInc := 0
    method := 0, width := 0, hdrMode := true, slotAir := 0, symbol := 0, startPrb := 0, payload := [] }

theorem witness_ethernet_ports :
    (let s : State := withRegs {} [(Reg.portMode 63, 1)];
      63 < 64 ∧ s.reg (Reg.portMode 63) ≠ 0 ∧ (s.port 63).up ≤ 1 ∧ s.power.inputOff = false) ∧
    (ported.portUp 63 = true ∧ (rxFrame 63 0).length < 64 ∧ 9216 < (rxFrame 9217 0).length ∧ ({ rxFrame 64 0 with fcsOk := false } : RxFrame).fcsOk = false ∧
      ({ rxFrame 64 0 with flowControl := true } : RxFrame).flowControl = true) ∧
    (∀ f ∈ [rxFrame 64 0x0800, rxFrame 9216 0x88F7, { rxFrame 64 0x0800 with tags := 2 }, rxFrame 64 0xAEFE, { rxFrame 64 0xAEFE with ecpri := some (ecpri 0) }, { rxFrame 64 0xAEFE with ecpri := some (ecpri 5) }],
      64 ≤ f.length ∧ f.length ≤ 9216 ∧ f.fcsOk = true ∧ f.flowControl = false) ∧
    (ported.uplinkStream 63 (frameVlan (rxFrame 64 0xAEFE)) (ecpri 0).eaxc = some (255, 0) ∧ (ecpri 0).mtype = 0 ∧ (ecpri 5).mtype = 5 ∧
      (rxFrame 64 0xAEFE).dst = ported.regN (Reg.portMacAddr 63)) ∧
    ((ported.port 63).busyUntil ≤ ported.time.ticks ∧
      (∀ e ∈ [(([] : Table (List (Nat × TxFrame))), (none : Option Nat)), ([(12, [(0, { length := 64 })])], some 12)],
        let s : State := { ported with ports := { ports := [(63, { up := 2, queues := e.1 })] } };
        let a := (s.portSync 63).setPort 63 { (s.portSync 63).port 63 with sending := 0 };
        (([14, 13].foldl (fun (s : State) q => dropHeads ((s.port 63).queue q).length s 63 q) a).egressChoice 63).2 = e.2)) ∧
    (let s : State := withRegs { radio := { cells := [(255, {})] } } [(Reg.cellState 255, 2), (Reg.bindDelayMeasPeriod 255, 1)];
      255 < 256 ∧ s.regN (Reg.bindDelayMeasPeriod 255) ≠ 0 ∧ s.cellSt 255 ≠ 0 ∧ (s.cell 255).measuredAt = 0) ∧
    (∀ e ∈ [(60, 8, 0, true), (9212, 11, 0, true), (60, 7, 1, true), (59, 8, 0, true), (9213, 8, 0, true), (60, 7, 0, false)],
      let x := slot 0x18 (63 * 2 ^ 506 + e.2.1 * 2 ^ 502 + e.1 * 2 ^ 480 + 2 ^ 55 * 2 ^ 192 + e.2.2.1 * 2 ^ 119);
      let s : State := (withRegs {} [(Reg.ringKind 0 5, e.2.2.1 + 1), (Reg.ctxEnable 0 1, 1)]).setRing 0 5 { cons := 1, fetched := [(0, x)] };
      let d := tempo x;
      let b := frameBodyOf x [];
      s.admits 0 5 d x [1, 2] ∧ isOp 0x18 x = true ∧ b.length = e.1 ∧ b.queue = e.2.1 ∧ s.hostDepth b.port + b.length + 4 ≤ 1048576 ∧
      (e.2.2.2 = true ↔ (d.klass = 0 → 8 ≤ b.queue ∧ b.queue ≤ 11) ∧ (d.klass = 1 → b.queue ≤ 7)) ∧
      okay ((s.takeDesc 0 5).vaRead d.context b.bufAddr 60 []) = true ∧ (s.takeDesc 0 5).translate d.context b.bufAddr true false = .remote 0 0) ∧
    (let w : WriteBack := { func := 0, ring := 5, slot := 0, stamp := false, status := 0, time := 0, tick := 0 };
      let s : State := withRegs { ports := { done := [w] } } [(Reg.functionState 0, 1)];
      s.reg (Reg.functionState 0) = 1 ∧ s.ports.done.find? (fun w => w.func == 0 && w.ring == 5 && decide (w.tick ≤ s.time.ticks)) = some w) ∧
    (ported.lnc % 20 = 0 ∧ (ported.port 63).sampledAt ≠ ported.lnc + 1 ∧ ported.reg (Reg.portMode 63) ≠ 0) := by
  refine ⟨?_, ?_, ?_, ?_, ?_, ?_, ?_, ?_, ?_, ?_⟩ <;> decide +kernel

theorem witness_power_limits :
    (let s : State := { parts := [(0, { tiles := [0] })], tiles := [(0, { duty := 16 })] };
      (∃ t ∈ s.beTiles 0 ++ s.tempoTiles 0, 1 < (s.tile t).duty) ∧ ¬(∃ t ∈ (State.reset).beTiles 0 ++ (State.reset).tempoTiles 0, 1 < ((State.reset).tile t).duty)) ∧
    (∀ rail ∈ [0, 8, 16, 17, 18, 19], let l := railLimits rail;
      rail < 20 ∧ l.2 < 450001 ∧ Table.get 0 (State.reset).power.reducedAt rail = 0 ∧ 0 ≤ l.2 ∧ 100 * 0 ≤ 95 * l.2 ∧ 0 ≤ l.1 ∧
      100 * 0 < 85 * l.2 ∧ Table.get 0 (State.reset).power.raisedAt rail = 0) ∧
    ((State.reset).activeLimit < 2401 ∧ Table.get 0 (State.reset).power.reducedAt 20 = 0 ∧ (State.reset).power.burstOff = false ∧ (State.reset).power.vrAlert = false ∧
      (State.reset).power.off = false) ∧
    (let s : State := withRegs {} [(Reg.burstUsed, 10000)];
      s.power.burstOff = false ∧ 10000 ≤ s.regN Reg.burstUsed) ∧
    (let s : State := { power := { burstOff := true, vrAlert := true, hotSince := 1, overSince := 1 }, time := { ticks := 156250 } };
      s.power.burstOff = true ∧ s.reg Reg.burstUsed = 0 ∧ s.power.vrAlert = true ∧ s.power.hotSince ≠ 0 ∧ s.passed (s.power.hotSince - 1) 1000000 = true ∧
      s.lowest = false ∧ s.held s.power.overSince 1000000 = true) ∧
    (let s : State := withRegs { power := { coolSince := 1, calmSince := 1, capOverSince := 1, overLimit := true }, time := { ticks := 1562500 } } [(Reg.powerState, 2)];
      s.lowest = true ∧ s.power.vrAlert = false ∧ s.power.vrClearAt = 0 ∧ s.reg Reg.forceLowest = 0 ∧ s.held s.power.calmSince 10000000 = true ∧
      s.held s.power.coolSince 10000000 = true ∧ s.reg Reg.capUnmet = 0 ∧ s.held s.power.capOverSince 1000000 = true) ∧
    (let s : State := withRegs { power := { capOkSince := 1 }, time := { ticks := 1562500 } } [(Reg.capUnmet, 1)];
      s.reg Reg.capUnmet = 1 ∧ s.held s.power.capOkSince 10000000 = true) ∧ ((List.replicate 36 (50 : Int)).length = 36) ∧
    (let t : Int := 65536 * (State.reset).reg Reg.throttleTemp;
      (State.reset).power.steppedAt = 0 ∧
      (∀ throttling ∈ [true, false], let s : State := withRegs { power := { throttling := throttling } } [(Reg.tjMax, t + 1)];
        t < s.reg Reg.tjMax ∧ s.power.throttling = throttling ∧ s.power.steppedAt = 0) ∧
      (∀ m ∈ [t - 196609, t - 196608, t], m < t - 196608 ∨ (t - 196608 ≤ m ∧ m ≤ t))) ∧
    (∀ count ∈ [0, 999],
      let s : State := { power := { msCount := count } };
      let u := (chargeShares s 5 [(0, 3)]).chargeEnergy 514 5;
      u.regN Reg.vin = 0 ∧ u.power.msCount = count) := by
  refine ⟨?_, ?_, ?_, ?_, ?_, ?_, ?_, ?_, ?_⟩ <;> decide +kernel

theorem witness_domains_and_clocks :
    (let s : State := withRegs {} [(Reg.startupStage, 3)];
      s.mayTurnOn 35 = true ∧ s.power.lastOn = 0 ∧ s.clusterAsked = false) ∧
    (∀ b ∈ [0, 8, 16, 24, 36, 37, 38, 39],
      let s : State := withRegs {} [(Reg.domainOn, 2 ^ b), (Reg.pxEnable, 0), (Reg.mgMode, 0)];
      b < 40 ∧ s.domain b = true ∧ s.mayTurnOff b = true) ∧
    ((withRegs {} [(Reg.keepingLock, 0)]).reg Reg.keepingLock = 0 ∧ (withRegs {} [(Reg.keepingLock, 1)]).reg Reg.keepingLock ≠ 0 ∧
      (withRegs {} [(Reg.keepingLock, 1)]).referenceThere = true) ∧
    (let s : State := withRegs {} [(Reg.pllRunning, 128)];
      7 < 8 ∧ s.pllOn 7 = true ∧ (∀ i < 64, (s.tile (64 * 7 + i)).task = 0)) ∧
    (let s : State := withRegs {} [(Reg.domainOn, 128)];
      7 < 8 ∧ s.pllOn 7 = false ∧ s.domain 7 = true) := by
  refine ⟨?_, ?_, ?_, ?_, ?_⟩ <;> decide +kernel


theorem witness_errors_and_recovery :
    (let x : Promotion := ⟨63, 0, 9, 1⟩;
      ∀ part ∈ [none, some 9, some 7],
        let s : State := { relia := { promotions := [(5, x)] }, parts := (part.map (fun p => (p, { tiles := [5] }))).toList };
        Table.find? s.relia.promotions 5 = some x ∧ x.doneAt ≤ s.time.ticks ∧ s.partOf 5 = part ∧ x.part = 9) ∧
    (let s : State := { tiles := [(511, { task := 1 })], time := { ticks := 10000000000 } };
      511 < 512 ∧ (s.tile 511).task ≠ 0 ∧ s.passed (s.tile 511).sliceStart (1000 * s.regN Reg.tileWatchdog) = true) ∧
    (let s : State := { tasks := [(0, { rerunDue := true, tiles := [511] })] };
      s.hasTask 0 = true ∧ (s.task 0).rerunDue = true ∧ (s.task 0).radio = none ∧ (s.task 0).inv = 0 ∧
      (∀ t ∈ s.taskTiles (s.task 0), Table.has s.relia.promotions t = false ∧ Table.has s.relia.recovering (clusterOf t) = false)) ∧
    (∀ b ∈ [0, 1],
      let s : State := { tiles := [(511, { sleep := 2 })], mem := { scrubs := [(scrubPlace false 511 8388607, b :: List.replicate 7 0)] } };
      511 < 512 ∧ 8388607 < 8388608 ∧ (s.tile 511).sleep < 3 ∧ Table.find? s.mem.scrubs (scrubPlace false 511 8388607) = some (b :: List.replicate 7 0) ∧
      (b = 0 ↔ (b :: List.replicate 7 0) = s.scrubContent false 511 8388607)) ∧
    (let s : State := withRegs {} [(Reg.trainStatus, 1), (Reg.gddr7DataBytes, 1024)];
      s.reg Reg.trainStatus = 1 ∧ 256 * 3 < s.regN Reg.gddr7DataBytes) ∧
    (let s : State := withRegs {} [(Reg.startupStage, 3), (Reg.domainOn, 2 ^ 39)];
      7 < 8 ∧ Table.has s.relia.recovering 7 = false ∧ s.serving = true ∧ s.power.off = false ∧ s.fwRestarting 8 1 = false ∧ s.relia.ctHung.contains 1 = false ∧ s.domain (38 + 1) = true ∧
      s.relia.healthAt = 0 ∧ s.relia.livenessAt = 0 ∧ s.relia.ctHung.length < 2 ∧ s.liveCells = []) ∧
    (let s : State := withRegs { time := { ticks := 7812500 }, relia := { recovering := [(7, 1)] } } [(Reg.startupStage, 3)];
      Table.has s.relia.recovering 7 = true ∧ Table.get 0 s.relia.recovering 7 ≠ 0 ∧ s.passed (Table.get 0 s.relia.recovering 7 - 1) 50000000 = true ∧ s.reg Reg.fatal = 0 ∧
      s.passed (Table.get 0 s.relia.ctBeat 1) 10000 = true ∧ s.passed (Table.get 0 s.relia.ctBeat 1) 50000 = true) ∧
    (let s : State := { relia := { ctHung := [1] }, time := { stc := { ns := 20000000 } } };
      s.relia.ctHung.contains 1 = true ∧ Table.has s.relia.ctCheck 1 = false ∧ s.relia.ctHung.contains (1 - 1) = false ∧ s.fwRestarting 8 1 = false) ∧
    (let s : State := { relia := { ctHung := [0, 1], ctCheck := [(1, 1)] }, time := { stc := { ns := 20000000 } } };
      Table.get 0 s.relia.ctCheck 1 ≠ 0 ∧ s.relia.ctHung.contains 1 = true ∧ 50 * (Table.get 0 s.relia.ctCheck 1 - 1) + 20000000 ≤ s.nowNs) ∧
    (let s : State := { relia := { ctHung := [0, 1] } };
      s.relia.ctHung.contains 0 = true ∧ s.relia.ctHung.contains 1 = true ∧ Table.has s.relia.ctCheck 0 = false ∧ Table.has s.relia.ctCheck 1 = false) ∧
    (let c : CopyRun := { job := 0, rank := 1, va := 0, length := 16, written := 16 };
      ({ relia := { copy := some c } } : State).relia.copy = some c ∧ c.written = c.length) ∧ (withRegs {} [(Reg.selftestStatus, 1)]).reg Reg.selftestStatus = 1 := by
  refine ⟨?_, ?_, ?_, ?_, ?_, ?_, ?_, ?_, ?_, ?_, ?_, ?_⟩ <;> decide +kernel

theorem witness_resets_and_supply :
    ((State.reset).power.off = false ∧ (State.reset).power.inputOff = false ∧ (State.reset).power.trip = false ∧ 37999 < 38000 ∧ 62000 < 62001 ∧ (38000 ≤ 38000 ∧ 38000 ≤ 62000 ∧ 38000 < 40000) ∧ (38000 ≤ 62000 ∧ 62000 ≤ 62000 ∧ 60000 < 62000) ∧ (State.reset).boot.perst = true) ∧
    (let s : State := { power := { inputOff := true } };
      s.power.off = false ∧ s.power.inputOff = true ∧ 40000 ≤ 40000 ∧ 40000 ≤ 60000) ∧
    (({ power := { off := true } } : State).power.off = true) ∧
    ((withRegs {} [(Reg.startupStage, 3)]).mayReset = true) ∧
    (let s : State := { boot := { asked := 2, instant := 1 } };
      s.boot.asked ≠ 0 ∧ s.boot.instant ≤ s.lnc + 1) ∧
    (let s : State := withRegs { boot := { perst := false }, time := { ticks := 11718750 } } [(Reg.domainOn, 2 ^ 36), (Reg.startupStage, 2)];
      s.boot.perst = false ∧ s.boot.link = false ∧ s.domain 36 = true ∧ 2 ≤ s.reg Reg.startupStage ∧ s.reg Reg.startupStage ≤ 3 ∧
      s.passed s.boot.from' (if s.reg Reg.lastReset = 0 then 75000000 else 72000000) = true) := by
  refine ⟨?_, ?_, ?_, ?_, ?_, ?_⟩ <;> decide +kernel

/-- DOE of PF0 with an exchange in a phase and a session. -/
def exchange (phase session : Nat) (deriving' : Bool := false) : State :=
  { boot := { perst := false, link := true }, sec := { deriving' := deriving', spdm := [(channelNumber (.doe 0), { phase := phase, session := session })] } }

theorem witness_attestation :
    (∀ d ∈ [false, true],
      let s := exchange 3 1 d;
      s.channelOpen (.doe 0) = true ∧ (s.spdmOf (.doe 0)).phase = 3 ∧ s.sec.deriving' = d ∧ (s.spdmOf (.doe 0)).session = 1) ∧
    ((exchange 3 2).channelOpen (.doe 0) = true ∧ ((exchange 3 2).spdmOf (.doe 0)).session = 2) ∧
    (withRegs { boot := { perst := false, link := true } } [(Reg.startupStage, 3)]).channelOpen .window = true ∧
    ((withRegs {} [(Reg.startupStage, 3)]).setSession 5 ⟨[], 1, [], [], 0, 0, 0, [], [], 0, 0⟩).channelOpen (.hdp 5) = true ∧
    (∀ code ∈ [0x80, 0x85, 0xFF], code ∉ [0x84, 0xE1, 0xE3, 0x81, 0x82, 0x83, 0xE0, 0xE4, 0xE5, 0xE9, 0xE8, 0xEC]) := by
  refine ⟨?_, ?_, ?_, ?_, ?_⟩ <;> decide +kernel

theorem witness_attestation_values : 0 < (exchange 3 1).certChain.length ∧ (exchange 3 1).measurements ((exchange 3 1).spdmFunction (.doe 0)) 0 = some [9] ∧
    ∃ m, (exchange 3 1).measurements ((exchange 3 1).spdmFunction (.doe 0)) 0x20 = some m :=
  ⟨by simp [State.certChain, Config.certChain], rfl, _, rfl⟩


/-- A sync descriptor of an operation about virtual ID 5. -/
def syncSlot (op kind value : Nat) (fence : Bool := false) : Slot64 :=
  slot 0x08 (op * 2 ^ 508 + kind * 2 ^ 506 + (if fence then 2 ^ 504 else 0) + 5 * 2 ^ 492 + value * 2 ^ 448 + 2 ^ 436)
/-- `fed` with one object under virtual ID 5 of its context. -/
def object (x : Slot64) (o : SyncObj) : State := withRegs (fed x { sync := { objects := [(65535, { o with owner := 1, vid := 5 })] } }) [(Reg.ctxClass 0 1, 0)]
/-- A task that waits on an object. -/
def waiter : Waiter := { since := 0, ctx := 1, seq := 0, task := 0, entry := 0, count := 1 }

theorem witness_sync_objects :
    (∀ e ∈ [(0, 0, 0), (6, 0, 0), (1, 0, 0), (1, 1, 1), (1, 1, 65535), (1, 2, 0), (2, 0, 0), (3, 0, 1), (4, 2, 0)],
      let x := syncSlot e.1 e.2.1 e.2.2;
      let s := fed x;
      let b := syncBodyOf x;
      s.admits 0 5 (tempo x) x [1, 2] ∧ opcodeOf x = 0x08 ∧ syncOpOf x = e.1 ∧ b.kind ≤ 2 ∧ (b.kind = 1 → e.1 = 1 → 1 ≤ b.value ∧ b.value ≤ 65535) ∧
      (s.takeDesc 0 5).objectOf (tempo x).context b.vid = none) ∧
    (∀ e ∈ [(2, ({ owner := 1, vid := 5, kind := 0, klass := 0, waiters := [waiter] } : SyncObj), 0), (2, { owner := 1, vid := 5, kind := 0, klass := 0, value := 1 }, 0),
        (2, { owner := 1, vid := 5, kind := 0, klass := 0, abandoned := true, holders := [1] }, 0), (1, { owner := 1, vid := 5, kind := 0, klass := 0 }, 0),
        (3, { owner := 1, vid := 5, kind := 0, klass := 1 }, 1), (3, { owner := 1, vid := 5, kind := 0, klass := 0 }, 1), (3, { owner := 1, vid := 5, kind := 2, klass := 0 }, 0),
        (3, { owner := 1, vid := 5, kind := 1, klass := 0, abandoned := true }, 0), (4, { owner := 1, vid := 5, kind := 2, klass := 0, value := 1 }, 0)],
      let o := e.2.1;
      let x := syncSlot e.1 o.kind e.2.2;
      let s := object x o;
      s.admits 0 5 (tempo x) x [1, 2] ∧ opcodeOf x = 0x08 ∧ syncOpOf x = e.1 ∧ (s.takeDesc 0 5).objectOf 1 5 = some (65535, o) ∧ (syncBodyOf x).vid = 5 ∧ (tempo x).context = 1 ∧
      (e.1 = 3 → (o.kind = 0 ↔ (syncBodyOf x).value ≠ 0)) ∧
      ((s.takeDesc 0 5).otherClass o 1 (tempo x).klass = false ↔ o.klass = 0) ∧
      (e.1 = 4 → o.remoteJob = 0 ∧ o.abandoned = false ∧ o.waiters = [] ∧ o.holders = [])) ∧
    (let x := syncSlot 3 0 1 true;
      let s := object x { owner := 1, vid := 5, kind := 0, klass := 0 };
      let r : Request := { packet := blankPacket, ctx := 1, sink := .moveStore 1, sentAt := 0 };
      let u : State := { s with fabric := { requests := [(9, r)] } };
      u.admits 0 5 (tempo x) x [1, 2] ∧ (syncBodyOf x).fence = true ∧ (u.takeDesc 0 5).outstanding 1 ≠ [] ∧ (s.takeDesc 0 5).outstanding 1 = []) ∧
    (let x := syncSlot 5 0 0;
      let s : State := withRegs { fed x with fabric := { jobs := [(0, { bound := 2 })] } } [(Reg.jobState 0, 2), (Reg.jobChips 0, 2), (Reg.sqSyncQuota 0, 1), (Reg.ctxClass 0 1, 0)];
      let u := s.takeDesc 0 5;
      s.admits 0 5 (tempo x) x [1, 2] ∧ syncOpOf x = 5 ∧ u.objectOf 1 5 = none ∧ (syncBodyOf x).jobEntry = 0 ∧ u.jobState 0 = 2 ∧ (u.job 0).bound = 1 + 1 ∧
      (syncBodyOf x).remoteRank < u.regN (Reg.jobChips 0) ∧ u.ctxClassOf 1 = (tempo x).klass ∧ u.objectRoom 0 = true) := by
  refine ⟨?_, ?_, ?_, ?_⟩ <;> decide +kernel

/-- A part whose one task waits, since tick 0. -/
def stale (part : Nat) (q : Quiet) : State :=
  withRegs { tasks := [(0, { ctx := 1, status := .waiting, waits := [⟨1, false, 5, 1⟩] })], time := { ticks := 2000000000 },
             sync := { objects := [(0, { owner := 1, vid := 5, kind := 0, klass := 0, waiters := [{ since := 0, ctx := 1, seq := 0, task := 1, entry := 0, count := 1 }] })], quiet := [(part, q)] },
             fabric := { jobs := if part < 64 then [(part, { bound := 2 })] else [] } } [(Reg.jobState 63, 2), (Reg.jobChips 63, 2)]

theorem witness_stalemates :
    (∀ part ∈ [63, 65],
      let s := stale part { since := 1 };
      let q := s.quietOf part;
      s.quiescent part = true ∧ q.since ≠ 0 ∧ s.passed (q.since - 1) (1000000 * s.regN Reg.stalemateWindow) = true ∧ q.reported = false ∧ q.declared = false) ∧
    (let s := stale 63 { since := 1, queriedAt := 1999999999 };
      63 < 64 ∧ s.jobState 63 = 2 ∧ s.rankOf 63 = 0 ∧ s.passed ((s.quietOf 63).queriedAt - 1) 1000001 = false ∧ (s.quietOf 63).queriedAt ≠ 0) ∧
    (let s := stale 63 { since := 1, queriedAt := 1 };
      (s.quietOf 63).queriedAt ≠ 0 ∧ s.passed ((s.quietOf 63).queriedAt - 1) 1000000 = true ∧ (s.quietOf 63).declared = false) := by
  refine ⟨?_, ?_, ?_⟩ <;> decide +kernel

/-- A Sync message of one step. -/
def sync0 : PtpMsg := { kind := 0 }

theorem witness_time_base :
    ((State.reset).power.off = false ∧ 3 < 4 ∧ (State.reset).reg Reg.timeSource ≠ 2) ∧
    (∀ e ∈ [(1, 187500000), (2, 1100000000), (3, 3000000000)],
      let s : State := withRegs { time := { ticks := 1000000000 } } [(Reg.timeSource, (e.1 : Nat)), (Reg.mgLink, 1)];
      s.regN Reg.timeSource = e.1 ∧ s.passed s.time.lastUpdate e.2 = true ∧ s.reg Reg.mgLink = 1) ∧
    (let s : State := withRegs { time := { ticks := 4 * 4096 } } [(Reg.timeSource, 4)];
      s.regN Reg.timeSource = 4 ∧ s.time.lastUpdate + 4 * 4096 ≤ s.time.ticks) ∧
    (let s : State := { time := { ticks := 375000000, ptpMaster := true, ptpChosen := 8, announces := [{ source := 7, rank := {}, heardAt := 0 }] } };
      s.time.ptpMaster = true ∧ ∀ m ∈ s.time.announces, m.source + 1 = s.time.ptpChosen ∧ s.passed m.heardAt 375000000 = true) ∧
    (let s : State := withRegs { time := { ppsTod := some 5 } } [(Reg.timeSource, 2)];
      s.reg Reg.timeSource = 2 ∧ s.time.ppsTod = some 5 ∧ (State.reset).time.ppsTod = none) ∧ (sync0.kind = 0 ∧ sync0.twoStep = false) ∧
    (let s : State := withRegs { ports := { ports := [(62, { up := 2 }), (63, { up := 2 })] }, time := { ptpAnswers := [(62, [(1, 2, 3)])] } } [(Reg.timeSource, 1), (Reg.ptpPort, 63)];
      (s.portUp 63 = true ∧ s.reg Reg.timeSource = 1 ∧ s.regN Reg.ptpPort = 63 ∧ (s.ptpMessage 63 3).isSome = true) ∧
      (s.portUp 62 = true ∧ ¬(s.reg Reg.timeSource = 1 ∧ s.regN Reg.ptpPort = 62) ∧ ∀ kind ∈ [0, 1, 2], (s.ptpMessage 62 kind).isSome = true)) ∧
    (let s : State := withRegs { fabric := { links := [(15, { up := 2 })] } } [(Reg.linkMode 15, 5)];
      s.portUp 15 = false ∧ 5 ≤ s.reg (Reg.linkMode 15) ∧ (Table.get {} s.fabric.links 15).up = 2 ∧ (s.ptpMessage 15 0).isSome = true) ∧
    (∀ mode ∈ [1, 4],
      let s : State := withRegs { fabric := { links := [(15, { up := 2 })] }, time := { ticks := 4096 } } [(Reg.linkMode 15, mode)];
      s.zflUp 15 = true ∧ Table.get 0 s.time.wordSent 15 + 4096 ≤ s.time.ticks) ∧
    (∀ e ∈ [(5, 0, true), (5, 2, true), (0, 0, false), (5, 1, false)],
      let s : State := withRegs { time := { nextPulse := [(3, 1)] } } [(Reg.ttArm 3, 1), (Reg.ttPeriod 3, (e.1 : Nat)), (Reg.ttCount 3, (e.2.1 : Nat))];
      s.reg (Reg.ttArm 3) = 1 ∧ Table.get 0 s.time.nextPulse 3 ≠ 0 ∧ Table.get 0 s.time.nextPulse 3 - 1 ≤ s.nowNs ∧
      (if e.2.2 = true then s.regN (Reg.ttPeriod 3) ≠ 0 ∧ (s.regN (Reg.ttCount 3) = 0 ∨ s.regN (Reg.ttEmitted 3) + 1 < s.regN (Reg.ttCount 3))
        else s.regN (Reg.ttPeriod 3) = 0 ∨ (s.regN (Reg.ttCount 3) ≠ 0 ∧ s.regN (Reg.ttCount 3) ≤ s.regN (Reg.ttEmitted 3) + 1))) := by
  refine ⟨?_, ?_, ?_, ?_, ?_, ?_, ?_, ?_, ?_, ?_⟩ <;> decide +kernel

/-- A chip that serves, with a PCI Express link and virtual functions, so that every window's request is run. -/
def desk (l : List (Nat × Int)) : State := withRegs { tasks := [], boot := { link := true, vfEnable := true } } ((Reg.startupStage, 3) :: l)

/-- PF0's write of a number of one byte, of a wider one, and of bytes. -/
def n1 (v : Int) : Wr := { acc := .pf0, data := .num 1 v }
def nk (size : Nat) (v : Int) (lnc : Option Nat := none) : Wr := { acc := .pf0, data := .num size v, lnc := lnc }
def bk (n : Nat) : Wr := { acc := .pf0, data := .bytes (zeros n) }

/-- The write passes the checks and commits. -/
def written (s : State) (w : Wr) (index sub : Nat) (info : WInfo := {}) : Bool :=
  match s.checkWrite w.acc index sub w.data w.lnc info [] with
  | .ok p => (s.commitPlans [p] w.commitOk).1 == Status.ok
  | .error _ => false

theorem written_iff (s : State) (w : Wr) (index sub : Nat) (info : WInfo) (h : written s w index sub info = true) :
    ∃ p u, s.checkWrite w.acc index sub w.data w.lnc info [] = .ok p ∧ s.commitPlans [p] w.commitOk = (Status.ok, u) := by
  unfold written at h
  split at h
  · rename_i p hp
    exact ⟨p, (s.commitPlans [p] w.commitOk).2, hp, Prod.ext (by simpa using h) rfl⟩
  · exact absurd h (by simp)

/-- A read that reaches an object of the access right asked for. -/
def reads (s : State) (a : Accessor) (index sub : Nat) (wo : Bool) : Bool := match s.reach a index sub with | .ok (_, _, o) => (o.acc == .wo) == wo | .error _ => false

/-- A frame of the field port's session 5 that reads 0x1000:00, with its tag, and the chip that keeps this session. -/
def readFrame : List Byte := bytesOf 40 (0x4844 * 2 ^ 304 + 2 ^ 296 + 2 ^ 288 + 5 * 2 ^ 224 + 9 * 2 ^ 192 + 0x1000 * 2 ^ 176)
def frame : HdpFrame := { session := 5, seq := 9, source := 0, body := readFrame, tag := hdpTag [] readFrame }
/-- The control block of a read, and of a write of one byte. -/
def readBlock : Window := { op := 1, index := 0x1000 }
def writeFrame : List Byte := bytesOf 40 (0x4844 * 2 ^ 304 + 2 ^ 296 + 2 * 2 ^ 288 + 2 ^ 256 + 5 * 2 ^ 224 + 9 * 2 ^ 192 + 0x1000 * 2 ^ 176 + 2 ^ 168) ++ [7]
def writer : HdpFrame := { session := 5, seq := 9, source := 0, body := writeFrame, tag := hdpTag [] writeFrame }
def field : State :=
  { desk [(Reg.mgLink, 1)] with dict := { (desk [(Reg.mgLink, 1)]).dict with sessions := [(5, { peerKey := [], role := 3, keyIn := [], keyOut := [], source := 0, lastFrame := 0 })] } }

theorem witness_accessors : (desk []).accepts .pf0 readBlock ∧ (desk []).accepts (.vf 512) readBlock ∧ field.accepts (.hdp frame) readBlock ∧ reads field (.hdp frame) 0x1000 0 false = true ∧
    field.accepts (.hdp writer) (wrControl { acc := .hdp writer, data := .num 1 7 } 0x1000 1) :=
  ⟨by decide +kernel, by decide +kernel, ⟨by decide +kernel, by decide +kernel, by decide +kernel, by decide +kernel, by decide +kernel, _, rfl, rfl, rfl, by decide +kernel, rfl⟩,
    by decide +kernel, ⟨by decide +kernel, by decide +kernel, by decide +kernel, by decide +kernel, by decide +kernel, _, rfl, rfl, rfl, by decide +kernel, rfl⟩⟩

theorem witness_reads :
    (∀ e ∈ [(0x1000, 0), (0x2000, 0), (0x2110, 2), (0x2114, 2), (0xA000, 0xB), (0xA200, 0xB), (0x4900, 3), (0x8100, 1), (0x1020, 1)], reads (desk []) .pf0 e.1 e.2 false = true) ∧
    reads (desk []) (.vf 512) 0xB300 0xB false = true ∧ reads (desk []) .pf0 0x8500 1 true = true ∧
    (∀ e ∈ [(0xFFFF, 0, 3), (0x0FFF, 0, 1), (0x1000, 255, 2)], (match (desk []).reach .pf0 e.1 e.2.1 with | .ok _ => 0 | .error x => x) = e.2.2) ∧
    ((0 : Nat) < 5 ∧ 4 < 5 ∧ 512 ≤ 512 ∧ 8 < 9 ∧ ((2001 : Int) < -2000 ∨ (2000 : Int) < 2001) ∧ ((-2001 : Int) < -2000 ∨ (2000 : Int) < -2001)) ∧
    (let p : PendingWrite := { key := Reg.stalemateWindow, data := .num 4 20, lnc := 0, named := true, holder := 0, info := {} };
      let s : State := { desk [] with dict := { (desk []).dict with writes := [p] } };
      s.dueWrite = some p ∧ (s.withWrites []).staleWrite p = none) ∧
    (let p : PendingWrite := { key := Reg.stepRequest, data := .num 8 (-1), lnc := 0, named := true, holder := 0, info := {} };
      let s : State := { desk [] with dict := { (desk []).dict with writes := [p] } };
      s.dueWrite = some p ∧ ∃ t, (s.withWrites []).staleWrite p = some t) ∧ (∀ n, Accessor.pf0 ≠ .vf n) := by
  refine ⟨?_, ?_, ?_, ?_, ?_, ?_, ⟨?_, _, rfl⟩, fun n h => nomatch h⟩ <;> decide +kernel

/-- An image of a type and a security version. -/
def signed' (type svn : Nat) : FwImage := ⟨0x46574B5A, type, false, svn, 1, 0, 0, [], [], [], []⟩

theorem witness_writes_one :
    (∀ e ∈ [(nk 8 27487790694, 0x2003, 0), (n1 1, 0x2002, 0), (nk 8 0, 0x2003, 4), (nk 10 0, 0x2006, 0), (nk 1 240 (some 5), 0x6040, 0), (nk 2 1, 0x7301, 1),
        (n1 1, 0xB000, 1), (n1 1, 0x1001, 0), (nk 4 1, 0x1001, 2), (nk 4 0x132456, 0x3001, 0), (nk 4 0, 0x3000, 2), (n1 1, 0x3000, 6)],
      written (desk [(Reg.servoEnable, 0)]) e.1 e.2.1 e.2.2 = true) ∧
    (∀ e ∈ [(n1 1, 0x8500, 1), (n1 0, 0x8500, 2), (n1 63, 0x8500, 3)], written (desk []) e.1 e.2.1 e.2.2 = true) ∧
    written (desk [(Reg.jobState 0, 2)]) (n1 1) 0x8200 4 = true ∧ written { desk [] with parts := [(63, { tiles := [511] })] } (nk 2 511) 0x8500 4 = true ∧
    written { desk [] with sec := { banks := [(0, [signed' 1 1]), (1, [signed' 1 1])] } } (n1 1) 0x9002 0 = true ∧
    written { desk [] with sec := { advancing := 1 } } (bk 256) 0x8400 0 = true := by
  refine ⟨?_, ?_, ?_, ?_, ?_, ?_⟩ <;> decide +kernel

theorem witness_writes_many :
    (∀ e ∈ [(nk 2 1, 0x413F, 4), (nk 8 50, 0xA200, 0xA), (nk 1 0 (some 5), 0x603F, 0), (nk 4 0, 0x603F, 8), (nk 4 0, 0x603F, 12), (n1 1, 0x67FF, 0x24), (bk 32, 0x62FF, 0),
        (nk 2 1 (some 5), 0x413F, 0xB), (nk 8 50, 0x701F, 3), (nk 1 0 (some 5), 0x735F, 0), (nk 8 50, 0x743F, 6), (n1 1, 0x743F, 8), (n1 1, 0x743F, 0xB)],
      written (desk []) e.1 e.2.1 e.2.2 = true) ∧
    (∀ e ∈ [(n1 0, 0xB20F, 0), (bk 32, 0x910F, 0), (n1 1, 0x910F, 1), (n1 1, 0x3113, 3)], written (desk []) e.1 e.2.1 e.2.2 = true) ∧
    written (desk [(Reg.ttPeriod 7, 1000)]) (n1 1) 0x2107 4 = true ∧ written { desk [] with parts := [(63, { asked := 1 })] } (nk 8 50000) 0x413F 5 = true ∧
    written { desk [(Reg.fwStatus, 1)] with sec := { staged := [signed' 1 0] } } (nk 8 5000000) 0x8418 0 = true ∧
    written (desk []) { acc := .pf0, data := .bytes (bytesOf 8 (2 ^ 56 + 8)) } 0x54FF 0x14 { encoded := true } = true := by
  refine ⟨?_, ?_, ?_, ?_, ?_, ?_⟩ <;> decide +kernel

/-- No context is enabled on `desk`. -/
theorem desk_contexts (c : Nat) : (desk []).ctxOn c = false := by
  have h : ∀ x < 16, (match findObj (0xB200 + x) 0 with | some o => o.dflt | none => 0) = 0 ∧ ¬ ((0xB200 + x) / 64 = 0x4100 / 64) := by decide +kernel
  have hx := h (c % 16) (Nat.mod_lt _ (by decide))
  have hr : (desk []).dict.regs = [(Reg.startupStage, 3)] := by decide +kernel
  have hk : Reg.ctxEnable (c / 16) (c % 16) / 256 % 65536 = 0xB200 + c % 16 := by simp only [Reg.ctxEnable, funcKey]; omega
  have h0 : Reg.ctxEnable (c / 16) (c % 16) % 256 = 0 := by simp only [Reg.ctxEnable, funcKey]; omega
  have hd : regDefault (Reg.ctxEnable (c / 16) (c % 16)) = 0 := by
    unfold regDefault
    simp only [hk, h0, hx.2, false_and, if_false]
    exact hx.1
  have hs : Reg.startupStage ≠ Reg.ctxEnable (c / 16) (c % 16) := by
    intro e
    have : Reg.startupStage / 256 % 65536 = 0xB200 + c % 16 := by rw [e, hk]
    have : Reg.startupStage / 256 % 65536 < 0xB200 := by decide
    omega
  unfold State.ctxOn State.regN State.reg
  rw [hr, hd]
  simp [Table.get, hs]

/-- Checks of a write over a given answer of the object's own rule. -/
def checkWith (own : Nat → Nat → Nat → WData → Option State) (s : State) (w : Wr) (index sub : Nat) : Bool :=
  let view := s.withWrites (s.dict.writes ++ [])
  match s.reach w.acc index sub with
  | .error _ => false
  | .ok (u, f, o) =>
    if s.mayWrite w.acc index u sub f o ≠ Status.ok then false
    else match view.checkValue u sub f o w.data (s.effectLnc w.lnc) with
    | .error _ => false
    | .ok v =>
      if (match v with | .bytes bs => s.blockBad u sub bs | .num _ _ => false) then false
      else match s.checkLnc u sub (objKey u sub f) w.lnc with
        | .error _ => false
        | .ok (l, named) => match own u f l v with
          | some _ => false
          | none => (s.commitPlans [{ key := objKey u sub f, index := u, sub := sub, acc := o.acc, data := v, lnc := l, named := named }] w.commitOk).1 == Status.ok

theorem written_eq (s : State) (w : Wr) (index sub : Nat) (i : WInfo) (hv : s.withWrites (s.dict.writes ++ []) = s) :
    written s w index sub i = checkWith (fun u f l v => s.ownRule w.acc u sub f l v i) s w index sub := by
  unfold written State.checkWrite checkWith
  rw [hv]
  cases s.reach w.acc index sub with
  | error e => rfl
  | ok x =>
    obtain ⟨u, f, o⟩ := x
    by_cases hm : s.mayWrite w.acc index u sub f o ≠ Status.ok
    · simp only [if_pos hm]
    · simp only [if_neg hm]
      cases s.checkValue u sub f o w.data (s.effectLnc w.lnc) with
      | error e => rfl
      | ok v =>
        cases v with
        | num n x =>
          simp only [Bool.false_eq_true, if_false]
          cases s.checkLnc u sub (objKey u sub f) w.lnc with
          | error e => rfl
          | ok y => cases h : s.ownRule w.acc u sub f y.1 (.num n x) i <;> simp only [h]
        | bytes bs =>
          cases hb : s.blockBad u sub bs
          · simp only [hb, Bool.false_eq_true, if_false]
            cases s.checkLnc u sub (objKey u sub f) w.lnc with
            | error e => rfl
            | ok y => cases h : s.ownRule w.acc u sub f y.1 (.bytes bs) i <;> simp only [h]
          · simp only [hb, if_true]

/-- A write whose object's rule accepts it is written where the other checks let it. -/
theorem written_of (s : State) (w : Wr) (index sub : Nat) (i : WInfo) (v : WData) (hv : s.withWrites (s.dict.writes ++ []) = s)
    (hr : ∀ f l, s.ownRule w.acc index sub f l v i = none)
    (h : checkWith (fun u f l d => if u = index ∧ d = v then none else s.ownRule w.acc u sub f l d i) s w index sub = true) : written s w index sub i = true := by
  rw [written_eq _ _ _ _ _ hv, ← h]
  congr
  funext u f l d
  split
  · rename_i e
    rw [e.1, e.2, hr]
  · rfl

theorem desk_cells : ¬ (List.range 256).any (fun c => (desk []).reg (Reg.cellState c) != 0) = true := by decide +kernel

theorem witness_selftest : written (desk []) (n1 1) 0x8300 0 = true := by
  have hrule : selftestRule (desk []) = none := by
    unfold selftestRule
    rw [if_neg desk_cells, if_neg]
    simp only [List.any_eq_true, desk_contexts]
    rintro ⟨_, _, _, _, h⟩
    exact Bool.false_ne_true h
  have hr : ∀ f l, (desk []).ownRule .pf0 0x8300 0 f l (.num 1 1) {} = none := by
    intro f l
    unfold State.ownRule
    simp [State.tdiRefuses, State.ruleHigh, hrule]
  exact written_of _ _ _ _ _ (.num 1 1) rfl hr (by decide +kernel)

theorem witness_determinism : written (desk []) (n1 1) 0x4010 0 = true := by
  have hrule : determinismRule (desk []) 1 = none := by
    unfold determinismRule
    simp [desk_contexts, show (desk []).kernels = [] by rfl]
  have hr : ∀ f l, (desk []).ownRule .pf0 0x4010 0 f l (.num 1 1) {} = none := by
    intro f l
    unfold State.ownRule
    simp [State.tdiRefuses, State.ruleLow, hrule]
  exact written_of _ _ _ _ _ (.num 1 1) rfl hr (by decide +kernel)

/-- The status of a write that a check or its commit refuses. -/
def refusedAs (s : State) (w : Wr) (index sub : Nat) : Nat :=
  match s.checkWrite w.acc index sub w.data w.lnc {} [] with
  | .ok p => (s.commitPlans [p] w.commitOk).1
  | .error e => e.1
theorem witness_writes_refused : refusedAs (desk []) (n1 0) 0x8500 1 = Status.range ∧ refusedAs (desk []) { n1 0 with commitOk := false } 0x1001 0 = Status.storeFault := by
  refine ⟨?_, ?_⟩ <;> decide +kernel

/-- `desk` ready for cell 255: four tiles of cluster 0, an enabled port, a hold source, a route to node 7. -/
def ready (st : Nat) (x : Cell) : State :=
  let s := desk [(Reg.timeSource, 0), (Reg.radioFloor, 1600), (Reg.portMode 0, 1), (Reg.bindStreams 255, 0), (Reg.bindT1aMaxCpUl 255, 10000000), (Reg.cellT1aMax 255, 100000),
    (Reg.cellCmdFrame 255, 10), (Reg.cellMoveH 255, 1024), (Reg.cellMovePeer 255, 7), (Reg.nodeId, 3), (Reg.cellState 255, (st : Nat))];
  let s : State := { s with parts := [(0, { tiles := List.range 4 })], radio := { cells := [(255, x)] } };
  ((s.setBlob (Reg.cellHoldSource 255) (bytesOf 8 (2 ^ 56 + 8))).setBlob Reg.routes (zeros 28 ++ bytesOf 4 (2 ^ 18))).setLinkUp 1 2

theorem witness_cell_commands :
    (∀ e ∈ [(1, 0, ({} : Cell)), (2, 2, {}), (3, 2, {}), (4, 3, { heldBy := 1 }), (5, 2, {}), (7, 4, { move := some ⟨true, 7, 9, 1000000000, false, false, false, false, false, false, [], false⟩ })],
      written (ready e.2.1 e.2.2) (n1 e.1) 0x54FF 0x10 { peerMatches := false } = true) ∧
    written (ready 2 {}) (n1 6) 0x54FF 0x10 { peerMatches := true } = true := by
  refine ⟨?_, ?_⟩ <;> decide +kernel

/-- `desk` with a serial number, which owner commands and debug tokens name, and with owner keys 0 and 1 where `owned`. -/
def owner (owned : Bool) : State :=
  let s := desk [];
  { s with
    dict := { s.dict with blobs := [(Reg.serial, zeros 16)] ++ if owned then [(Reg.okeyOwnerKey 0, zeros 32), (Reg.okeyOwnerKey 1, zeros 32)] else [] }
    sec := { s.sec with running := [(2, { signed' 2 1 with vendorKey := [1] })] } }
/-- An owner command of SIGNER, SLOT and OP in bits [511:488], and zeros. -/
def ownerBytes (op slot signer : Nat) : List Byte := zeros 61 ++ bytesOf 1 signer ++ bytesOf 1 slot ++ bytesOf 1 op ++ zeros 64
def asOwner (op slot signer : Nat) : Wr := { acc := .pf0, data := .bytes (ownerBytes op slot signer) }

theorem witness_install : written (owner false) (asOwner 1 3 255) 0x9020 0 = true := by decide +kernel

/-- Commands that owner key 0 signs, where the free verification passes the signature. -/
theorem witness_owner_commands (e : Nat × Nat) (he : e ∈ [(2, 1), (3, 1), (4, 0)])
    (hv : Config.ed25519Verify (zeros 32) (Config.sha512 ((ownerBytes e.1 e.2 0).take 64)) (zeros 64) = true) :
    written (owner true) (asOwner e.1 e.2 0) 0x9020 0 = true := by
  have hc : ∀ e ∈ [(2, 1), (3, 1), (4, 0)], let c := ownerOf (ownerBytes e.1 e.2 0)
      (owner true).ownerKey c.signer = zeros 32 ∧ c.signer = 0 ∧ c.signature = zeros 64 ∧ c.nonce = (owner true).regN Reg.ownerNonce ∧ c.serial = (owner true).blob Reg.serial ∧
      ((c.op = 2 ∧ c.slot = 1) ∨ (c.op = 3 ∧ c.slot = 1) ∨ c.op = 4) ∧ (owner true).ownerKey 1 = zeros 32 := by decide +kernel
  obtain ⟨hkey, hs, hsig, hn, hser, hop, hk1⟩ := hc e he
  have hkeys : ¬ ((List.range 4).filter (fun k => !((owner true).ownerKey k).isEmpty)).length ≤ 1 := by decide +kernel
  have hd : (ownerOf (ownerBytes e.1 e.2 0)).digest = Config.sha512 ((ownerBytes e.1 e.2 0).take 64) := rfl
  have hrule : ownerRule (owner true) (ownerOf (ownerBytes e.1 e.2 0)) true = none := by
    unfold ownerRule State.ownerReason
    rw [hs] at hkey
    simp only [hsig, hd, hs, hkey, hv, hn, hser, hkeys]
    have hz : (zeros 32).isEmpty = false := rfl
    rcases hop with ⟨ho, hl⟩ | ⟨ho, hl⟩ | ho
    · simp [ho, hl, hk1, hz]
    · simp [ho, hl, hz]
    · simp [ho, hz]
  refine written_of _ _ _ _ _ (.bytes (ownerBytes e.1 e.2 0)) rfl ?_ ?_
  · intro f l
    unfold State.ownRule
    simp [asOwner, State.tdiRefuses, State.ruleHigh, hrule]
  · clear hrule hd hop hser hn hsig hs hkey hv; revert e; decide +kernel

/-- A token of zeros, where the free readings of its fields and the free verification pass it. -/
theorem witness_debug_unlock (h1 : Config.tokenSerial (zeros 192) = zeros 16) (h2 : Config.tokenBootCount (zeros 192) = 0)
    (h3 : ∀ k ∈ [[1], zeros 32], ∀ f ∈ [Config.tokenVendorSig, Config.tokenOwnerSig], Config.ed25519Verify k (Config.sha512 ((zeros 192).take 64)) (f (zeros 192)) = true) :
    written (owner true) (bk 192) 0x9030 0 = true := by
  have hfun : ¬ (List.range 513).any (fun f => (ctxsOf f).any (owner true).ctxOn) = true := by
    have h : ∀ c, (owner true).ctxOn c = false := desk_contexts
    simp only [List.any_eq_true, h]
    rintro ⟨_, _, _, _, h⟩
    exact Bool.false_ne_true h
  have hcell : ¬ (List.range 256).any (fun c => (owner true).reg (Reg.cellState c) != 0) = true := desk_cells
  have hok : (owner true).tokenOk (zeros 192) = true := by
    have hb : (owner true).blob Reg.serial = zeros 16 ∧ (owner true).regN Reg.bootCount = 0 ∧ (owner true).ownerKey 0 = zeros 32 := by decide +kernel
    have hr : Table.find? (owner true).sec.running 2 = some { signed' 2 1 with vendorKey := [1] } := rfl
    unfold State.tokenOk
    simp only [hr, hb, h1, h2, Bool.and_eq_true, List.any_eq_true]
    refine ⟨⟨⟨⟨by decide, by decide⟩, by decide⟩, h3 [1] (by simp) _ (by simp)⟩, 0, by simp, ?_⟩
    rw [hb.2.2]
    exact ⟨by decide, h3 _ (by simp) _ (by simp)⟩
  have hrule : debugRule (owner true) (zeros 192) = none := by
    unfold debugRule
    rw [if_neg (by simp only [Bool.eq_false_iff.mpr hfun, Bool.eq_false_iff.mpr hcell]; decide +kernel), if_pos hok]
  refine written_of _ _ _ _ _ (.bytes (zeros 192)) rfl ?_ ?_
  · intro f l
    unfold State.ownRule
    simp [State.tdiRefuses, State.ruleHigh, hrule]
  · decide +kernel

theorem witness_blocks : assoc (desk []).dict.stages (Accessor.holder .pf0) = none ∧ (∃ size v, (n1 1).data = .num size v) := ⟨by decide +kernel, _, _, rfl⟩

/-- A chip whose cluster 7 has its PLL on and where tile 511 enters the state `depth`; task 0, registered, has it as its one tile. -/
def enters (depth : Nat) : State :=
  withRegs { tasks := [(0, { status := .registered, tiles := [511], target := 1 })], tiles := [(511, { sleep := depth, asleepAt := 9 })], plls := [(7, 0)] } [(Reg.pllRunning, 128)]

theorem witness_wake_during_entry :
    ∀ e ∈ [(2, 400), (3, 12000), (4, 20000)],
      let s := enters e.1;
      let t := s.tile 511;
      t.sleep = e.1 ∧ t.wakeAt = 0 ∧ s.time.ticks < t.asleepAt ∧ s.pllOn (clusterOf 511) = true ∧ Table.get 0 s.plls (clusterOf 511) ≤ s.time.ticks ∧
      s.hasTask 0 = true ∧ (s.task 0).status = .registered ∧ s.taskTiles (s.task 0) = [511] ∧ (s.task 0).target ≤ s.lnc + s.wakeLead [511] := by decide +kernel

/-- Tile 511 is idle at T1, with a byte and a poisoned word. -/
def idles : State := { tasks := [], tiles := [(511, { sleep := 1, mem := [(5, 7)], poison := [3] })] }

theorem witness_sram_across_sleep :
    (∀ depth ∈ [3, 4],
      let t := idles.tile 511;
      t.sleep < depth ∧ t.task = 0 ∧ t.switching = 0 ∧ t.wakeAt = 0 ∧ (511 : Nat) < 512 ∧ t.live = {} ∧ idles.isRadio 511 = false ∧ (depth = 4 → t.pages = [])) ∧
    idles.nextAny 511 = none ∧ (8388607 : Nat) < 8388608 := ⟨by decide +kernel, by decide +kernel, by decide⟩

theorem witness_bfp : ∀ w ∈ [8, 9, 12, 14, 16], (zeros (3 * w)).length = 3 * w := by decide

theorem witness_link : State.reset.linkOk ∧ ∃ t, step State.reset = .next t := ⟨⟨by decide +kernel, by decide +kernel⟩, _, rfl⟩

/-! Ill-formed terms, one for each check of WellFormed. -/

theorem test_number_checks :
    tileOk 512 = false ∧ clusterOk 8 = false ∧ cellOk 256 = false ∧ functionOk 513 = false ∧ ringOk 64 = false ∧ jobOk 64 = false ∧ linkOk 64 = false ∧ coreOk 2 = false ∧
    deviceOk 16 = false ∧ indexOk 65536 = false ∧ subOk 256 = false ∧ rankOk 4096 = false ∧ portOk 64 = false ∧ partOk 64 = false ∧ outputOk 8 = false ∧ inputOk 5 = false ∧
    queueOk 7 = false ∧ queueOk 13 = false ∧ entryOk 1024 = false ∧ flowOk 256 = false ∧ contextOk 16 = false ∧ peerOk 16 = false ∧ railOk 20 = false ∧ unitOk 9 = false := by decide

theorem test_field_checks :
    VFields.wf ⟨0, false, 32, 0, 0, 0, 0, 0, 0⟩ = false ∧ AFields.wf ⟨0, false, 4, 0, 0, 0, 0, 0, 0⟩ = false ∧ MFields.wf ⟨8, 0, false, 0, 0, 0⟩ = false ∧
    CFields.wf ⟨0, 0, 0, false, 256, 0, 0⟩ = false ∧ XFields.wf ⟨0, 0, 256, 0, 0⟩ = false ∧ Packet.wf { blankPacket with src := 4096 } = false ∧
    PtpMsg.wf { kind := 5 } = false ∧ (SpdmChannel.doe 513).wf = false := by decide

theorem test_write_checks :
    HdpFrame.wf ⟨5, 9, 0, [], []⟩ = false ∧ (Accessor.vf 0).wf = false ∧ (Accessor.hdp ⟨5, 9, 0, [], []⟩).wf = false ∧ (WData.num 3 0).wf = false ∧
    Wr.wf { acc := .pf0, data := .num 3 0 } = false ∧ Wr.wf { acc := .pf0, data := .num 1 0, lnc := some (2 ^ 64) } = false := by decide

theorem test_command_checks :
    (Instr.start { acc := .pf0, data := .num 1 1 } 256).wf = false ∧ (Instr.nop 512 ⟨0, false, 0, 0, 0, 0, 0, 0, 0⟩).wf = false ∧ (Instr.portModeWrite { acc := .pf0, data := .num 1 1 } 64).wf = false ∧
    (Instr.start { acc := .pf0, data := .num 1 1 } 255).wf = true := by decide

/-! Meanings, each expectation from the rule that it names. -/

/-- The state after one command. -/
def after (i : Instr) (s : State) : State := match exec i s with | .next t => t | .fault _ => s | .refused _ => s
/-- The sequencer of tile 0. -/
def vsOf (s : State) : Vs := (s.tile 0).live.vs
/-- `runs` with the scalars and the vector registers given. -/
def vsWith (sc : Table Word64) (ve : Table VecReg) : State := runs { vs := { s := sc, v := ve } }

/-- R188: SADD wraps at 64 bits. -/
theorem test_sadd_wraps : (vsOf (after (.sadd 0 ⟨3, 1, 2, false, 0, 0, 0⟩) (vsWith [(1, 0xFFFFFFFFFFFFFFFF), (2, 2)] []))).getS 3 = 1 := by decide +kernel
/-- R188: SSLT compares signed values. -/
theorem test_sslt_is_signed : (vsOf (after (.sslt 0 ⟨3, 1, 2, false, 0, 0, 0⟩) (vsWith [(1, 0xFFFFFFFFFFFFFFFF), (2, 2)] []))).getS 3 = 1 := by decide +kernel
/-- R188: VSHR rounds down: floor(−1 / 2) is −1, floor(3 / 2) is 1. -/
theorem test_vshr_floors : (parts16 ((vsOf (after (.vshr 0 ⟨0, false, 1, 2, 0, 0, 1, 0, 0⟩) (vsWith [] [(2, ofParts (-1 :: 3 :: List.replicate 62 0))]))).getV 1)).take 2 = [-1, 1] := by decide +kernel
/-- R188: VROTJ by j² negates; a part of −32,768 negated saturates and sets SATURATED. -/
theorem test_vrotj_saturates :
    let x := vsOf (after (.vrotj 0 ⟨0, false, 1, 2, 0, 0, 0, 2, 0⟩) (vsWith [] [(2, ofParts (-32768 :: 5 :: List.replicate 62 0))]))
    (parts16 (x.getV 1)).take 2 = [32767, -5] ∧ x.saturated = true := by decide +kernel
/-- R188: VSHL saturates to 16 bits. -/
theorem test_vshl_saturates : (parts16 ((vsOf (after (.vshl 0 ⟨0, false, 1, 2, 0, 0, 15, 0, 0⟩) (vsWith [] [(2, ofParts (-3 :: 1 :: List.replicate 62 0))]))).getV 1)).take 2 = [-32768, 32767] := by decide +kernel
/-- R108, R188: the FP32 maximum takes −0 below +0, and a NaN in either operand gives the canonical NaN. -/
theorem test_fp32_max : fp32Max 0x80000000 0 = 0 ∧ fp32Max 0x7F800001 0x3F800000 = 0x7FC00000 := by decide +kernel
/-- R114, R115, R135: FP32 sums are truncated toward zero, and one beyond the largest finite number saturates to it. -/
theorem test_fp32_truncates : (fp32Add 0x3F800001 0x33800000).code = 0x3F800001 ∧ (fp32Add 0x7F7FFFFF 0x7F7FFFFF).code = 0x7F7FFFFF := by decide +kernel
/-- R132: width 8, exponent 3: the mantissa −128 (0x80) becomes −32,768 with exponent 3 − 8. -/
theorem test_bfp_unpack : (bfpUnpack 8 (3 :: 0x80 :: 1 :: zeros 22)).2 = -5 ∧ (bfpUnpack 8 (3 :: 0x80 :: 1 :: zeros 22)).1.take 2 = [-32768, 256] := by decide +kernel
/-- R273: the default cell, 100 MHz with μ 1 and 4 layers either way, weighs 1.00 units. -/
theorem test_default_cell_weighs_one_unit : (State.reset).unitsOf 0 = 100 := by decide +kernel
/-- R377: a LINK_MODE of eight lanes at link 4 breaks the placement rule (16). -/
theorem test_link_placement : (desk []).linkReason 4 4 = some 16 := by decide +kernel
/-- R467, R498: CHIP_RESET takes only 1. -/
theorem test_chip_reset_range : refusedAs (desk []) (n1 0) 0x8500 1 = 7 := by decide +kernel
/-- R54: a triggered output that is stopped has no pulse to come. -/
theorem test_tt_stop : (ttArmEffect { time := { nextPulse := [(7, 9)] } } 7 0).time.nextPulse = [] := by decide +kernel
/-- R580, R582: the spec's example, GD14_C3_DQ0 at DA77; the field port stands last in the SerDes region; H34 is RESET_N. -/
theorem test_ball_map :
    ballSignal 77 77 = .gddr 14 57 ∧ ballName 77 77 = "DA77" ∧ ballSignal 78 18 = .serdes 0 0 ∧ ballSignal 1 31 = .pcie 0 0 ∧ ballSignal 8 34 = .fixed .resetN ∧
    ballName 89 89 = "DN89" := by decide +kernel
/-- R383, R386: an ATOMIC entry whose rank is this chip's own: a FETCH_ADD adds at the bound context, and the old value comes back. -/
theorem test_atomic_on_own_chip :
    let s := ((withRegs State.reset [(Reg.jobState 3, 2)]).setJob 3 { bound := 2 })
    let s := { s with mem := { s.mem with maps := [(mapKey 1 0, .gddr 0 true true)] } }
    let p : Packet := { blankPacket with opcode := 8, w64 := true, operand := 5, offset := 16 }
    let r := s.atomicHere 3 p
    (r.2 = some (0, some 0)) ∧ r.1.readLocal 1 16 8 = some (bytesOf 8 5) := by decide +kernel

end Sys2Proof.Tests
end

/-! PROOFS. The statements of the family 01_architecture.md: each row's conditions hold by the hypotheses, and its effect follows. -/

namespace Sys2Proof.Machine

/-! Rows whose effect takes place under a condition. -/

/-- An event whose condition holds takes place. -/
theorem next_when {s t : State} {c : Bool} (hc : c = true) : (.next (s.when c t) : Out) = .next t := by
  rw [State.when_of s t c hc]

/-- An event whose condition holds takes place, and what it leaves may be written in another way. -/
theorem next_when_eq {s t u : State} {c : Bool} (hc : c = true) (ht : t = u) : (.next (s.when c t) : Out) = .next u := by
  rw [next_when hc, ht]

/-! Writes of one object (R467). -/

/-- A write that passes steps 1 to 5 of R467 and commits is enacted. -/
theorem State.writeObject_enacted {s u : State} {a : Accessor} {index sub : Nat} {d : WData} {lnc : Option Nat} {ok : Bool} {i : WInfo} {p : Plan}
    (hp : s.checkWrite a index sub d lnc i [] = .ok p) (hu : s.commitPlans [p] ok = (Status.ok, u)) :
    s.writeObject a index sub d lnc ok i = (Status.ok, u.enact (Accessor.holder a) i p) := by
  simp only [State.writeObject, hp, hu, ne_eq, not_true_eq_false, if_false]

/-- A write that its commit refuses has the status of the commit. -/
theorem State.writeObject_uncommitted {s u : State} {a : Accessor} {index sub : Nat} {d : WData} {lnc : Option Nat} {ok : Bool} {i : WInfo} {p : Plan}
    {e : Nat} (hp : s.checkWrite a index sub d lnc i [] = .ok p) (hu : s.commitPlans [p] ok = (e, u)) (he : e ≠ Status.ok) :
    s.writeObject a index sub d lnc ok i = (e, u) := by
  simp only [State.writeObject, hp, hu, ne_eq, he, not_false_eq_true, if_true]

/-- A write that a check refuses has the status of the check. -/
theorem State.writeObject_refused {s u : State} {a : Accessor} {index sub : Nat} {d : WData} {lnc : Option Nat} {i : WInfo} {e : Nat} (ok : Bool)
    (he : s.checkWrite a index sub d lnc i [] = .error (e, u)) : s.writeObject a index sub d lnc ok i = (e, u) := by
  simp only [State.writeObject, he]

/-- A write whose request is accepted is answered with the status of `writeObject`. -/
theorem State.dictWrite_answers {s : State} {w : Wr} {index sub : Nat} (hacc : s.accepts w.acc (wrControl w index sub)) (info : WInfo) :
    let r := s.writeObject w.acc index sub w.data w.lnc w.commitOk info
    s.dictWrite w index sub info = s.answers w.acc (wrControl w index sub) (r.2, { status := r.1 }) :=
  access_ok s w.acc _ _ _ hacc

/-- Instruction `i` is the write `w` of one object: an accepted request is enacted, or answered with the status that refuses it. -/
def WritesObject (s : State) (w : Wr) (i : Instr) (index sub : Nat) (info : WInfo) : Prop :=
  let c := wrControl w index sub
  s.accepts w.acc c →
    (∀ p u, s.checkWrite w.acc index sub w.data w.lnc info [] = .ok p → s.commitPlans [p] w.commitOk = (Status.ok, u) →
      exec i s = .next (s.answers w.acc c (u.enact (Accessor.holder w.acc) info p, {}))) ∧
    (∀ p e u, s.checkWrite w.acc index sub w.data w.lnc info [] = .ok p → s.commitPlans [p] w.commitOk = (e, u) → e ≠ Status.ok →
      exec i s = .next (s.answers w.acc c (u, { status := e }))) ∧
    (∀ e u, s.checkWrite w.acc index sub w.data w.lnc info [] = .error (e, u) → exec i s = .next (s.answers w.acc c (u, { status := e })))

/-- A row of a single object. -/
theorem writesObject_of_dictWrite {s : State} {w : Wr} {i : Instr} {index sub : Nat} {info : WInfo}
    (hi : exec i s = .next (s.dictWrite w index sub info)) : WritesObject s w i index sub info := by
  intro hacc
  rw [hi, State.dictWrite_answers hacc info]
  refine ⟨fun p u hp hu => ?_, fun p e u hp hu he => ?_, fun e u he => ?_⟩
  · rw [State.writeObject_enacted hp hu]
    rfl
  · rw [State.writeObject_uncommitted hp hu he]
  · rw [State.writeObject_refused w.commitOk he]

/-- A row of a family of objects, for a number within the family. -/
theorem writesObject_of_member {s : State} {w : Wr} {i : Instr} {index sub : Nat} {info : WInfo} {q : Prop} [Decidable q]
    (hi : exec i s = .next (s.when (decide q) (s.dictWrite w index sub info))) (hq : q) : WritesObject s w i index sub info :=
  writesObject_of_dictWrite (hi.trans (next_when (decide_eq_true hq)))

/-- Settles O53: every row is `dictWrite` of its object, under the bound of its family where it has one. -/
theorem dictionaryWrites : Obligations.DictionaryWrites := by
  intro s w writes
  have single : ∀ {i index sub info}, exec i s = .next (s.dictWrite w index sub info) → writes i index sub info :=
    writesObject_of_dictWrite
  have member : ∀ {i index sub info} {q : Prop} [Decidable q],
      exec i s = .next (s.when (decide q) (s.dictWrite w index sub info)) → q → writes i index sub info :=
    writesObject_of_member
  refine ⟨single rfl, single rfl, single rfl, single rfl, single rfl, single rfl, single rfl, single rfl, single rfl, single rfl, single rfl,
    single rfl, single rfl, single rfl, single rfl, single rfl, single rfl, single rfl, single rfl, single rfl, fun n => ?families,
    fun c e => member rfl, single rfl⟩
  case families =>
    exact ⟨member rfl, member rfl, member rfl, member rfl, member rfl, fun q hn hlo hhi => member rfl ⟨hn, hlo, hhi⟩, member rfl, member rfl,
      member rfl, member rfl, member rfl, member rfl, member rfl, member rfl, member rfl, fun sub hn hsub => member rfl ⟨hn, hsub⟩, member rfl,
      member rfl⟩

/-! The launch unit (R58, R60, R92, R414). -/

/-- Booking a radio task registers it, whatever windows it takes. -/
theorem State.bookRadio_status (s : State) (n : Nat) : ((s.bookRadio n).task n).status = .registered := by
  simp only [State.bookRadio]
  split
  · rw [State.task, State.bump_tasks, ← State.task, State.task_setTask_self]
  · rw [State.task_setTask_self]

/-- Settles O16: the conditions of each row hold, and a booking registers its radio task. -/
theorem launchUnit : Obligations.LaunchUnit := by
  intro s n
  dsimp only
  refine ⟨fun hn hwaits hrerun hinv ht => next_when ?waits, fun hn hreg ht => next_when ?lead, fun hn hreg hawake => next_when ?clocks, rfl,
    fun hn hwaits hradio hrerun => ⟨s.bookRadio n, next_when ?radio, s.bookRadio_status n⟩⟩
  case waits => simp [hn, hwaits, hrerun, hinv, ht]
  case lead => simp [hn, hreg, ht]
  case clocks => rw [hn, hreg, hawake]; rfl
  case radio => rw [hn, hwaits, hradio, hrerun]; rfl

/-! Sleep states (R17, R59, R173 to R176). -/

/-- A tile without task, live state or launch ahead enters a deeper sleep state, at T4 without its SRAM. -/
theorem execTileSleepEntry_deeper {s : State} {n depth : Nat} (hdeeper : (s.tile n).sleep < depth) (hdepth : depth ≤ 4) (htask : (s.tile n).task = 0)
    (hswitch : (s.tile n).switching = 0) (hwake : (s.tile n).wakeAt = 0) (hn : n < 512) (hlive : (s.tile n).live = {}) (hahead : s.nextAny n = none)
    (hpages : depth = 4 → (s.tile n).pages = []) (hradio : s.isRadio n = true → depth ≤ 2) :
    let deep := { s.tile n with sleep := depth, asleepAt := s.time.ticks + ticksOf (sleepTimes depth).1 }
    execTileSleepEntry n depth s = .next (s.setTile n (if depth = 4 then { deep with mem := [], poison := [], code := [] } else deep)) := by
  have hempty : (depth != 4 || (s.tile n).pages.isEmpty) = true := by
    by_cases h : depth = 4 <;> simp [h, hpages]
  have hshallow : (!s.isRadio n || decide (depth ≤ 2)) = true := by
    by_cases h : s.isRadio n = true <;> simp [h, hradio]
  exact next_when (by rw [decide_eq_true ⟨hdeeper, hdepth, htask, hswitch, hwake, hn⟩, hempty, hshallow, hahead, hlive]; simp)

/-- A wake that has run its time leaves the tile at T1, from T4 with SRAM that reads zero. -/
theorem execTileWakeComplete_due {s : State} {n : Nat} (hwake : (s.tile n).wakeAt ≠ 0) (hdue : (s.tile n).wakeAt - 1 ≤ s.time.ticks) :
    let t := s.tile n
    execTileWakeComplete n s = .next (s.setTile n
      (if t.sleep = 4 then { t with sleep := 1, wakeAt := 0, asleepAt := 0, mem := [], poison := [] } else { t with sleep := 1, wakeAt := 0, asleepAt := 0 })) :=
  next_when_eq (decide_eq_true ⟨hwake, hdue⟩) (by split <;> rfl)

/-- A cluster without radio or tempo tiles, whose tiles sleep at T2 or deeper with no launch ahead, stops its PLL. -/
theorem execPllStop_asleep {s : State} {cluster : Nat} (hc : cluster < 8) (hpll : s.pllOn cluster = true) (hholds : s.clusterHolds cluster 1 63 = false)
    (htiles : ∀ i, i < 64 → 2 ≤ (s.tile (64 * cluster + i)).sleep ∧ (s.tile (64 * cluster + i)).wakeAt = 0 ∧ s.nextAny (64 * cluster + i) = none) :
    execPllStop cluster s = .next (s.setPll cluster false) := by
  refine next_when ?_
  rw [decide_eq_true hc, hpll, hholds]
  simp only [List.all_map, Bool.and_eq_true, List.all_eq_true, List.mem_range, Function.comp_apply]
  refine ⟨⟨by simp, fun i hi => ?_⟩, fun i hi => ?_⟩
  · rw [(htiles i hi).2.2]
  · obtain ⟨hsleep, hwake, -⟩ := htiles i hi
    exact ⟨decide_eq_true hsleep, beq_iff_eq.mpr hwake⟩

/-- Settles O17: an entry, a wake and a PLL stop whose conditions hold. -/
theorem sleepStates : Obligations.SleepStates := by
  intro s n depth cluster
  exact ⟨execTileSleepEntry_deeper, execTileWakeComplete_due, execPllStop_asleep⟩

/-! Resizes and snapshots (R68 to R70, R102, R103). -/

/-- From the eviction point on, the work on the tiles that leave the pool is asked to go. -/
theorem execResizeEviction_due {s : State} {p : Nat} {r : Resize} (hr : (s.part p).resize = some r)
    (hdue : r.lnc ≤ s.lnc + 2400 + 20000 * ceilDiv (s.moving p r).length 64) (hstop : s.shrinkStop p r = none) :
    let pool := (s.part 0).tiles
    let asked := if r.grow then s.moving p r ++ pool.drop (pool.length - (s.moving p r).length) else []
    let u := asked.foldl (fun s t => (s.updTile t (fun u => { u with next := 0 })).askOff t) s
    execResizeEviction p s = .next (u.setPart p { u.part p with resize := some { r with evicted := true } }) := by
  simp only [execResizeEviction, hr, hstop]
  exact next_when (by simpa using hdue)

/-- 2,400 quanta ahead a growth takes its tiles from the pool, zeroised. -/
theorem execResizeTilesLeave_growth {s : State} {p : Nat} {r : Resize} (hr : (s.part p).resize = some r) (hdue : r.lnc ≤ s.lnc + 2400)
    (hleft : r.left = false) (hstop : s.shrinkStop p r = none) (hgrow : r.grow = true) :
    let u := (s.moving p r).foldl (fun s t => s.updTile t Tile.zeroised) ((s.moving p r).foldl (fun s t => s.removeTile 0 t) s)
    execResizeTilesLeave p s = .next (u.setPart p { u.part p with resize := some { r with left := true, evicted := true, chosen := s.moving p r } }) := by
  simp only [execResizeTilesLeave, hr, hstop, hgrow, if_true]
  exact next_when (by rw [hleft, decide_eq_true hdue]; rfl)

/-- At the resize LNC the tiles of a growth join, and the resize ends with DONE. -/
theorem execResizeApply_growth {s : State} {p : Nat} {r : Resize} (hr : (s.part p).resize = some r) (hleft : r.left = true) (hdue : r.lnc ≤ s.lnc)
    (hgrow : r.grow = true) :
    let u := s.setPart p { s.part p with tiles := (s.part p).tiles ++ r.chosen }
    execResizeApply p s = .next ((u.endResize p 2).slotsResized p (u.part p).tiles.length) := by
  simp only [execResizeApply, hr, hgrow, if_true]
  exact next_when (by rw [hleft, decide_eq_true hdue]; rfl)

/-- The only pending request, once due, becomes the newest record of a queue that has room. -/
theorem execSnapshotCapture_only {s : State} {f l : Nat} (hsnaps : (s.func f).snaps = [l]) (hdue : l ≤ s.lnc) (hroom : (s.func f).snapQueue.length < 64) :
    execSnapshotCapture f s = .next (s.setFunc f { s.func f with
      snaps := [], snapSeq := ((s.func f).snapSeq + 1) % 2 ^ 32, snapQueue := (s.func f).snapQueue ++ [s.snapRecord f l] }) := by
  have hfilter : (s.func f).snaps.filter (fun l => decide (l ≤ s.lnc)) = [l] := by simp [hsnaps, hdue]
  have hlength : ((s.func f).snapQueue ++ [s.snapRecord f l]).length ≤ 64 := by simpa using hroom
  simp only [execSnapshotCapture, hfilter, List.foldl_cons, List.foldl_nil]
  rw [if_neg (Nat.not_lt.mpr hlength), Nat.sub_eq_zero_of_le hlength, List.drop_zero, hsnaps, List.erase_cons_head]
  rfl

/-- Settles O26: the four rows of a due resize or snapshot. -/
theorem resizeAndSnapshots : Obligations.ResizeAndSnapshots := by
  intro s p f
  exact ⟨fun r => execResizeEviction_due, fun r => execResizeTilesLeave_growth, fun r => execResizeApply_growth, fun l => execSnapshotCapture_only⟩

/-! Slot orders and the cut-off (R278 to R288, R305, R310, R311). -/

/-- The four rows of slot orders run one operation, each with its own ORDER_TYPE. -/
theorem exec_slotOrder {row : Nat → Nat → List Byte → Instr} {type : Nat}
    (hrow : (row, type) ∈ [(Instr.dlTti, 1), (Instr.ulTti, 2), (Instr.txData, 3), (Instr.ulDci, 4)]) (f r : Nat) (list : List Byte) (s : State) :
    exec (row f r list) s = .next (slotOrder type f r list s) := by
  simp only [List.mem_cons, Prod.mk.injEq, List.not_mem_nil, or_false] at hrow
  rcases hrow with ⟨rfl, rfl⟩ | ⟨rfl, rfl⟩ | ⟨rfl, rfl⟩ | ⟨rfl, rfl⟩ <;> rfl

/-- A descriptor whose bytes can be read, and are not poisoned, acts on them. -/
theorem State.descRead_ok {s : State} {d : Desc} {va n : Nat} {arrived bs : List Byte} (act : List Byte → State)
    (h : s.vaRead d.context va n arrived = .ok (bs, false)) : s.descRead d va n arrived act = act bs := by
  simp only [State.descRead, h]

section
variable {s : State} {f r : Nat} {d : Desc} {x : Slot64} {type : Nat} (hadm : s.admits f r d x [1, 2]) (hmine : isOrder type x = true)
include hadm hmine

/-- An order that R278, R279 or R288 stops is refused before its list is read. -/
theorem slotOrder_refused (list : List Byte) {e : Nat} (he : (s.takeDesc f r).orderReason d (orderBodyOf x []) = some e) :
    slotOrder type f r list s = (s.takeDesc f r).refuse d e := by
  rw [slotOrder, admit_ok s f r d x _ _ _ hadm hmine]
  simp only [he]

section
variable {list bs : List Byte} (hok : (s.takeDesc f r).orderReason d (orderBodyOf x []) = none)
  (hbs : (s.takeDesc f r).vaRead d.context (orderBodyOf x []).listAddr (orderBodyOf x []).listLength list = .ok (bs, false))
include hok hbs

/-- A list whose sizes do not tile it is refused with 25. -/
theorem slotOrder_untiled (ht : orderTiled (orderBodyOf x bs) type = false) : slotOrder type f r list s = (s.takeDesc f r).refuse d 25 := by
  rw [slotOrder, admit_ok s f r d x _ _ _ hadm hmine]
  simp only [hok, State.descRead_ok _ hbs, ht, Bool.not_false, if_true]

/-- An order whose LNC names no slot is refused with 23. -/
theorem slotOrder_unslotted (ht : orderTiled (orderBodyOf x bs) type = true) (hslot : (s.takeDesc f r).orderSlot d (orderBodyOf x bs) = none) :
    slotOrder type f r list s = (s.takeDesc f r).refuse d 23 := by
  rw [slotOrder, admit_ok s f r d x _ _ _ hadm hmine]
  simp only [hok, State.descRead_ok _ hbs, ht, hslot, Bool.not_true, Bool.false_eq_true, if_false]

/-- An order that nothing stops is admitted to the slot that its LNC names. -/
theorem slotOrder_admitted (ht : orderTiled (orderBodyOf x bs) type = true) {n : Nat} (hslot : (s.takeDesc f r).orderSlot d (orderBodyOf x bs) = some n) :
    slotOrder type f r list s = (s.takeDesc f r).admitOrder d (orderBodyOf x bs) type n := by
  rw [slotOrder, admit_ok s f r d x _ _ _ hadm hmine]
  simp only [hok, State.descRead_ok _ hbs, ht, hslot, Bool.not_true, Bool.false_eq_true, if_false]

end
end

/-- At its cut-off a slot that a cell ON_AIR serves is held for a cause, held for missing orders, or served. -/
theorem execOrderCutoff_onAir {s : State} {c slot : Nat} (payloads : List (List Byte)) (hc : c < 256) (hair : s.cellSt c = 2)
    (hlead : s.airNs c slot ≤ s.nowNs + s.cutLead c) (hahead : s.nowNs < s.airNs c slot) (hcut : ((s.pruneSlots c).slotWork c slot).cut = false)
    (hreleased : ((s.pruneSlots c).slotWork c slot).released = 0) (hconducted : s.conducted c slot = true) (hair' : (s.pruneSlots c).cellSt c = 2)
    (hserves : (s.pruneSlots c).serves c slot = true) :
    let u := s.pruneSlots c
    execOrderCutoff c slot payloads s = .next (if u.holdCause c slot ≠ 0 then u.holdSlot c slot (u.holdCause c slot)
      else if u.missing c slot ≠ 0 then u.missSlot c slot (u.missing c slot) else u.serveSlot c slot payloads) := by
  have hback : ((s.pruneSlots c).cellSt c == 3) = false := by simp [hair']
  refine next_when_eq ?_ ?_
  · simp [hc, hair, hlead, hahead, hcut, hreleased, hconducted]
  · simp only [hback, hserves, Bool.false_and, Bool.not_true, Bool.false_eq_true, if_false]

/-- Settles O42: the four order rows are one `slotOrder`; the cut-off, the missed limit and the launch follow their conditions. -/
theorem ordersAndCutoff : Obligations.OrdersAndCutoff := by
  intro s
  refine ⟨fun f r d x list row type hrow hadm hmine => ?orders,
    fun c slot payloads => execOrderCutoff_onAir payloads,
    fun c => ?limit, fun n hn hreg hradio => ?launch, fun n r hn hreg hradio => ?radioLaunch⟩
  case orders =>
    rw [exec_slotOrder hrow f r list s]
    exact ⟨fun e he => congrArg _ (slotOrder_refused hadm hmine list he), fun bs hok hbs =>
      ⟨fun ht => congrArg _ (slotOrder_untiled hadm hmine hok hbs ht), fun ht hslot => congrArg _ (slotOrder_unslotted hadm hmine hok hbs ht hslot),
        fun n ht hslot => congrArg _ (slotOrder_admitted hadm hmine hok hbs ht hslot)⟩⟩
  case limit =>
    intro x limit last hair hmissed hend
    exact next_when (by rw [hair, decide_eq_true ⟨hmissed, hend⟩]; rfl)
  case launch => exact next_when_eq (by rw [hn, hreg]; rfl) (by rw [hradio])
  case radioLaunch => exact next_when_eq (by rw [hn, hreg]; rfl) (by rw [hradio])

/-! Promotion of tiles (R529, R531). -/

/-- The partition of a tile does not depend on what reliability holds. -/
theorem State.partOf_relia (s : State) (r : ReliaState) (tile : Nat) : ({ s with relia := r } : State).partOf tile = s.partOf tile := rfl

/-- The state in which the spare of promotion `x` has taken the place of its tile, with its pages and its radio work. -/
def State.spareTakesOver (s : State) (tile : Nat) (x : Promotion) : State :=
  let u := { s with relia := { s.relia with promotions := Table.erase s.relia.promotions tile } }
  let swap := fun (l : List Nat) => l.map (fun p => if p = tile then x.spare else p)
  let a := (u.retarget tile x.spare).setTile x.spare { s.tile tile with
    tenths := (s.tile x.spare).tenths, sleep := 1, wakeAt := 0, task := 0, live := {}, wait := .none, code := [], switching := 0, preempt := false }
  let b := (a.setTile tile { tenths := (s.tile tile).tenths }).setPart x.part { a.part x.part with tiles := swap (a.part x.part).tiles }
  let c := { b with radio := { b.radio with work := Table.put [] (Table.put [] b.radio.work tile []) x.spare (Table.get [] b.radio.work tile) } }
  (((c.moveResidency tile x.spare).setReg (Reg.clusPromotions (clusterOf tile))
    ((c.regN (Reg.clusPromotions (clusterOf tile)) + 1) % 4294967296 : Nat)).logError
    { klass := 0, unit := x.unit, code := 13, ptile := some tile, cluster := clusterOf tile, partition := some x.part }).countSpares (clusterOf tile)

section
variable {s : State} {tile : Nat} {x : Promotion} (hx : Table.find? s.relia.promotions tile = some x) (hdone : x.doneAt ≤ s.time.ticks)
include hx hdone

/-- A promotion whose tile no partition holds any more is abandoned. -/
theorem execPromotionSwitch_unheld (hp : s.partOf tile = none) :
    let u := { s with relia := { s.relia with promotions := Table.erase s.relia.promotions tile } }
    execPromotionSwitch tile s = .next (u.countSpares (clusterOf tile)) := by
  simp only [execPromotionSwitch, hx, State.partOf_relia, hp]
  exact next_when_eq (decide_eq_true hdone) (by rw [if_neg (by simp)])

/-- A promotion whose tile has moved to another partition is abandoned, and the tile leaves that partition. -/
theorem execPromotionSwitch_moved {p : Nat} (hp : s.partOf tile = some p) (hne : p ≠ x.part) :
    let u := { s with relia := { s.relia with promotions := Table.erase s.relia.promotions tile } }
    let v := u.removeTile p tile
    execPromotionSwitch tile s = .next ((v.slotsResized p (v.part p).tiles.length).countSpares (clusterOf tile)) := by
  simp only [execPromotionSwitch, hx, State.partOf_relia, hp]
  exact next_when_eq (decide_eq_true hdone) (by rw [if_neg (by simpa using hne)])

/-- A promotion whose tile is still in its partition puts the spare in its place. -/
theorem execPromotionSwitch_held (hp : s.partOf tile = some x.part) : execPromotionSwitch tile s = .next (s.spareTakesOver tile x) := by
  simp only [execPromotionSwitch, hx]
  exact next_when_eq (decide_eq_true hdone) (by rw [hp, if_pos (by simp)]; rfl)

end

/-! Scrubs of a tile's words (R368, R370, R528). -/

section
variable {s : State} {tile word : Nat} (htile : tile < 512) (hword : word < 8388608) (hsleep : (s.tile tile).sleep < 3)
include htile hword hsleep

/-- A word of a tile that is awake enough is scrubbed. -/
theorem patrolScrub_tile_guard : decide (tile < 512 ∧ word < 8388608 ∧ (s.tile tile).sleep < 3) = true := decide_eq_true ⟨htile, hword, hsleep⟩

/-- The write-back happens where nothing has been written since the read. -/
theorem execPatrolScrub_writeBack {bs : List Byte} (hread : Table.find? s.mem.scrubs (scrubPlace false tile word) = some bs)
    (hsame : bs = s.scrubContent false tile word) :
    let u := { s with mem := { s.mem with scrubs := Table.erase s.mem.scrubs (scrubPlace false tile word) } }
    execPatrolScrub false tile word 1 s = .next (u.updTile tile (fun t => t.write (8 * word) bs)) := by
  refine next_when_eq (patrolScrub_tile_guard htile hword hsleep) ?_
  simp only [hread]
  rw [if_pos hsame]
  rfl

/-- The write-back is discarded where another write has come between. -/
theorem execPatrolScrub_discarded {bs : List Byte} (hread : Table.find? s.mem.scrubs (scrubPlace false tile word) = some bs)
    (hne : bs ≠ s.scrubContent false tile word) :
    execPatrolScrub false tile word 1 s = .next { s with mem := { s.mem with scrubs := Table.erase s.mem.scrubs (scrubPlace false tile word) } } := by
  refine next_when_eq (patrolScrub_tile_guard htile hword hsleep) ?_
  simp only [hread]
  rw [if_neg hne]

end

/-! Chip control (R524) and the state copy (R538). -/

/-- A core that runs beats every 10 µs. -/
theorem execCtHeartbeat_due {s : State} {core : Nat} (hcore : core < 2) (hfw : s.fwRestarting 8 core = false) (hrun : s.relia.ctHung.contains core = false)
    (hdomain : s.domain (38 + core) = true) (hbeat : s.passed (Table.get 0 s.relia.ctBeat core) 10000 = true) :
    execCtHeartbeat core s = .next { s with relia := { s.relia with ctBeat := Table.put 0 s.relia.ctBeat core s.time.ticks } } :=
  next_when (by rw [decide_eq_true hcore, hfw, hrun, hdomain, hbeat]; rfl)

/-- Without live cells a hang of a core takes no orders away. -/
theorem execCtHang_noCells {s : State} {core : Nat} (hcore : core < 2) (hfw : s.fwRestarting 8 core = false) (hs : s.serving = true)
    (hrun : s.relia.ctHung.contains core = false) (hbeat : s.passed (Table.get 0 s.relia.ctBeat core) 50000 = true) (hcells : s.liveCells = []) :
    execCtHang core s = .next ({ s with relia := { s.relia with
      ctHung := s.relia.ctHung.filter (fun x => x != core) ++ [core], ctCheck := Table.put 0 s.relia.ctCheck core 0 } }.logError
        { klass := 1, unit := 16, code := 7, cluster := 8, detail := core }) := by
  refine next_when_eq ?_ ?_
  · rw [decide_eq_true hcore, hs, hfw, hrun, hbeat]
    rfl
  · rw [hcells]
    rfl

/-- A hung core passes its self-check once while the other core runs. -/
theorem execCtSelfcheckPass_otherRuns {s : State} {core : Nat} (hcore : core < 2) (hfw : s.fwRestarting 8 core = false)
    (hhung : s.relia.ctHung.contains core = true) (hcheck : Table.has s.relia.ctCheck core = false) (hother : s.relia.ctHung.contains (1 - core) = false) :
    execCtSelfcheckPass core s = .next { s with relia := { s.relia with
      ctCheck := Table.put 0 s.relia.ctCheck core (s.lnc + 1), ctRestarts := s.relia.ctRestarts.filter (fun x => x != core)
      ctBeat := Table.put 0 s.relia.ctBeat core s.time.ticks } } := by
  simp only [execCtSelfcheckPass, hfw, Bool.and_false, Bool.false_eq_true, if_false]
  exact next_when (by rw [decide_eq_true hcore, hhung, hcheck, hother]; rfl)

/-- A copy whose bytes have all been written ends with their digest. -/
theorem execCopyDone_written {s : State} {c : CopyRun} (hc : s.relia.copy = some c) (hwritten : c.written = c.length) :
    let bs := (s.readLocal ((s.job c.job).bound - 1) (bits c.va 42 0) c.length).getD []
    execCopyDone true s = .next (({ s with relia := { s.relia with copy := none } }.setReg Reg.copyStatus 2).setBlob Reg.copyDigest (Config.sha512 bs)) := by
  simp only [execCopyDone, hc, if_true]
  exact next_when (decide_eq_true hwritten)

/-- A copy that fails ends with its fault. -/
theorem execCopyDone_failed {s : State} {c : CopyRun} (hc : s.relia.copy = some c) : execCopyDone false s = .next (s.copyFault c.job) := by
  simp only [execCopyDone, hc, Bool.false_eq_true, if_false]

/-- Settles O46: a promotion by where its tile is, a scrub by what has been written since, the other rows by their conditions. -/
theorem errorsAndRecovery : Obligations.ErrorsAndRecovery := by
  intro s
  dsimp only
  refine ⟨fun tile x hx hdone => ⟨execPromotionSwitch_unheld hx hdone, fun p => execPromotionSwitch_moved hx hdone, execPromotionSwitch_held hx hdone⟩,
    fun tile unit htile hunit htask => next_when ?residue, fun tile htile htask hpassed => next_when ?watchdog,
    fun n hn hdue hradio hinv hready => next_when_eq ?rerun (if_pos hinv),
    fun tile word htile hword hsleep => ⟨fun bs => execPatrolScrub_writeBack htile hword hsleep, fun bs => execPatrolScrub_discarded htile hword hsleep,
      next_when (patrolScrub_tile_guard htile hword hsleep), next_when (patrolScrub_tile_guard htile hword hsleep)⟩,
    fun tile g htrain hg => next_when ?granule, fun c granules hc hrecovering hs => next_when ?partition,
    fun c hrecovering => next_when_eq hrecovering ?recovered, fun c hsince hpassed hfatal => next_when ?timeout,
    fun unit hlo hhi hoff => next_when ?fatal,
    fun core hcore hfw => ⟨execCtHeartbeat_due hcore hfw, execCtHang_noCells hcore hfw, execCtSelfcheckPass_otherRuns hcore hfw⟩,
    fun core hhung hcheck hdue => next_when ?resume, fun h0 h1 hcheck0 hcheck1 => next_when ?restart, fun hs hdue => next_when ?health,
    fun hs hdue hhung => next_when ?liveness, fun c hc => ⟨execCopyDone_written hc, execCopyDone_failed hc⟩,
    fun failed hstatus => next_when_eq ?selftest ?tested⟩
  case residue => simp [htile, hunit, htask]
  case watchdog => simp [htile, htask, hpassed]
  case rerun => simpa [hn, hdue, hradio] using hready
  case granule => simp [htrain, hg]
  case partition => simp [hc, hrecovering, hs]
  case recovered => simp only [List.isEmpty_iff]
  case timeout => simp [hsince, hpassed, hfatal]
  case fatal => simp [hlo, hhi, hoff]
  case resume => rw [hhung, decide_eq_true ⟨hcheck, hdue⟩]; rfl
  case restart => simp only [h0, h1, hcheck0, hcheck1, Bool.not_false, Bool.and_self]
  case health => simp [hs, hdue]
  case liveness => simp [hs, hdue, hhung]
  case selftest => simp [hstatus]
  case tested => simp only [List.isEmpty_iff]

end Sys2Proof.Machine

/-! PROOFS. The statements of the family 02_system_time.md: an event of the time base happens under its condition, and a read of the dictionary is
`readObject` of its object. -/

namespace Sys2Proof.Machine

/-! The loss of a time source (R32, R41). -/

/-- The selected transmitter is not among those alive once its announce receipt timeout has expired. -/
theorem State.ptpAlive_chosen_expired {s : State}
    (hexpired : ∀ m ∈ s.time.announces, m.source + 1 = s.time.ptpChosen → s.passed m.heardAt announceNs = true) :
    s.ptpAlive.any (fun m => m.source + 1 == s.time.ptpChosen) = false := by
  refine List.any_eq_false.mpr fun m hm hchosen => ?_
  obtain ⟨hmem, halive⟩ := List.mem_filter.mp hm
  rw [hexpired m hmem (beq_iff_eq.mp hchosen)] at halive
  exact absurd halive Bool.false_ne_true

/-- PTP is silent after three Sync intervals, or when its transmitter is no longer heard. -/
theorem State.sourceSilent_ptp {s : State} (hsource : s.regN Reg.timeSource = 1)
    (hlost : s.passed s.time.lastUpdate 187500000 = true ∨
      (s.time.ptpMaster = true ∧ ∀ m ∈ s.time.announces, m.source + 1 = s.time.ptpChosen → s.passed m.heardAt announceNs = true)) :
    s.sourceSilent = true := by
  simp only [State.sourceSilent, hsource, Bool.or_eq_true]
  refine hlost.imp_right fun ⟨hmaster, hexpired⟩ => ?_
  rw [hmaster, State.ptpAlive_chosen_expired hexpired]
  rfl

/-- A silent source other than PTP is lost; no transmitter is chosen anew. -/
theorem execSourceLossTimeout_silent {s : State} {source : Nat} (hsource : s.regN Reg.timeSource = source) (hptp : source ≠ 1)
    (hsilent : s.sourceSilent = true) :
    execSourceLossTimeout s = .next s.sourceGone :=
  next_when_eq hsilent (if_neg (hsource ▸ hptp))

/-- PPS, BENCH and ZFL are lost after their time without an update. -/
theorem execSourceLossTimeout_late {s : State}
    (hlate : s.regN Reg.timeSource = 2 ∧ s.passed s.time.lastUpdate 1100000000 = true ∨ s.regN Reg.timeSource = 3 ∧ s.passed s.time.lastUpdate 3000000000 = true ∨
      s.regN Reg.timeSource = 4 ∧ s.time.lastUpdate + 4 * 4096 ≤ s.time.ticks) :
    execSourceLossTimeout s = .next s.sourceGone := by
  obtain ⟨hsource, hlate⟩ | ⟨hsource, hlate⟩ | ⟨hsource, hlate⟩ := hlate
  case inl => exact execSourceLossTimeout_silent hsource (by decide) (by simpa only [State.sourceSilent, hsource] using hlate)
  case inr.inl => exact execSourceLossTimeout_silent hsource (by decide) (by simpa only [State.sourceSilent, hsource] using hlate)
  case inr.inr => exact execSourceLossTimeout_silent hsource (by decide) (by simpa only [State.sourceSilent, hsource, decide_eq_true_eq] using hlate)

/-! Edges of PPS_IN (R32, R593). -/

/-- A rising edge updates a selected PPS source by its offset, with PPS_TOD used up. -/
theorem execPpsInEdge_rising_pps {s : State} {tod : Option Nat} (hsource : s.reg Reg.timeSource = 2) (htod : s.time.ppsTod = tod) :
    let u := s.capture 4 true
    execPpsInEdge true s = .next (({ u with time := { u.time with ppsTod := none } } : State).sourceUpdate (ppsOffset tod s.stampStc)) := by
  subst htod
  exact congrArg Host.Outcome.next (if_pos hsource)

/-- A rising edge uses up PPS_TOD under any other source too. -/
theorem execPpsInEdge_rising_other {s : State} (hsource : s.reg Reg.timeSource ≠ 2) :
    let u := s.capture 4 true
    execPpsInEdge true s = .next { u with time := { u.time with ppsTod := none } } :=
  congrArg Host.Outcome.next (if_neg hsource)

/-! PTP messages (R41, R43, R46). -/

/-- The field port hears its bench source while BENCH is selected and its link is up. -/
theorem benchSync_guard {s : State} (hsource : s.reg Reg.timeSource = 3) (hlink : s.reg Reg.mgLink = 1) :
    (s.reg Reg.timeSource == 3 && s.reg Reg.mgLink == 1) = true := by
  rw [hsource, hlink]
  rfl

/-- A one-step Sync on the field port under BENCH is one update at its arrival. -/
theorem State.ptpHear_benchSync {s : State} {m : PtpMsg} (hsource : s.reg Reg.timeSource = 3) (hkind : m.kind = 0) (hone : m.twoStep = false) :
    s.ptpHear 64 m = s.ptpUpdate m.timeNs s.stampNs := by
  simp [State.ptpHear, State.ptpReceiver, hsource, hkind, hone]

/-- A port other than the field port takes time where PTP is selected and names it. -/
theorem State.ptpReceiver_port {s : State} {port : Nat} (hport : port < 64) :
    s.ptpReceiver port = true ↔ s.reg Reg.timeSource = 1 ∧ s.regN Reg.ptpPort = port := by
  simp only [State.ptpReceiver, if_neg hport.ne, Bool.and_eq_true, beq_iff_eq]

/-- A port that carries frames may send the messages of its role. -/
theorem State.ptpMaySend_role {s : State} {port kind : Nat} (hport : port < 64)
    (hrole : if s.reg Reg.timeSource = 1 ∧ s.regN Reg.ptpPort = port then kind = 3 else kind < 3)
    (hup : s.portUp port = true ∨ (5 ≤ s.reg (Reg.linkMode port) ∧ (Table.get {} s.fabric.links port).up = 2)) : s.ptpMaySend port kind = true := by
  simp only [State.ptpMaySend, if_neg hport.ne, State.ptpReceiver_port hport, Bool.and_eq_true, Bool.or_eq_true, decide_eq_true_eq, beq_iff_eq]
  exact ⟨hup, hrole⟩

/-- A message that may go out leaves an Ethernet port through queue 15, and any other port at once. -/
theorem execPtpMessageTx_sent {s u : State} {port kind : Nat} {m : PtpMsg} (hm : s.ptpMessage port kind = some (m, u)) (hsend : s.ptpMaySend port kind = true) :
    execPtpMessageTx port kind s = .next (if s.portUp port then u.enqueue port 15 (ptpTx port m) else u.ptpEmit port m) := by
  simp only [execPtpMessageTx, hm]
  exact next_when hsend

/-! Time words (R47). -/

/-- The link delay less the skew is the peer's time brought to this end, less the time here. -/
theorem State.sourceUpdate_skew (u : State) (upstream : Prop) [Decidable upstream] (here peer delay : Int) :
    (if upstream then u.sourceUpdate (delay - (here - peer)) else u) = if upstream then u.sourceUpdate (peer + delay - here) else u := by
  rw [show delay - (here - peer) = peer + delay - here by omega]

/-! Time outputs (R54). -/

/-- The state in which output `n` has emitted its pulse and counted it. -/
def State.pulsed (s : State) (n : Nat) : State :=
  (s.emit (.pulse n (Table.get 0 s.time.nextPulse n - 1) (s.regN (Reg.ttWidth n)) (s.reg (Reg.ttPolarity n) == 1))).setReg (Reg.ttEmitted n)
    (((s.regN (Reg.ttEmitted n) + 1) % 4294967296 : Nat) : Int)

/-- Output `n` is armed, and the STC has reached its pulse time. -/
def State.pulseDue (s : State) (n : Nat) : Bool :=
  let p := Table.get 0 s.time.nextPulse n
  s.reg (Reg.ttArm n) == 1 && decide (p ≠ 0 ∧ (p - 1 ≤ s.nowNs ∨ p - 1 ≤ s.stampNs))

theorem State.pulseDue_iff {s : State} {n : Nat} :
    s.pulseDue n = true ↔ s.reg (Reg.ttArm n) = 1 ∧ Table.get 0 s.time.nextPulse n ≠ 0 ∧
      (Table.get 0 s.time.nextPulse n - 1 ≤ s.nowNs ∨ Table.get 0 s.time.nextPulse n - 1 ≤ s.stampNs) := by
  simp only [State.pulseDue, Bool.and_eq_true, beq_iff_eq, decide_eq_true_eq]

/-- After a pulse that is not the last the output waits for the next. -/
theorem execTtPulse_next {s : State} {n : Nat} (hdue : s.pulseDue n = true) (hperiod : s.regN (Reg.ttPeriod n) ≠ 0)
    (hmore : s.regN (Reg.ttCount n) = 0 ∨ s.regN (Reg.ttEmitted n) + 1 < s.regN (Reg.ttCount n)) :
    let u := s.pulsed n
    execTtPulse n s = .next { u with time := { u.time with
      nextPulse := Table.put 0 u.time.nextPulse n (Table.get 0 s.time.nextPulse n + s.regN (Reg.ttPeriod n)) } } := by
  have hlast : ¬(s.regN (Reg.ttPeriod n) = 0 ∨ (s.regN (Reg.ttCount n) ≠ 0 ∧ s.regN (Reg.ttCount n) ≤ s.regN (Reg.ttEmitted n) + 1)) := by omega
  refine next_when_eq hdue ?_
  simp only [if_neg hlast]
  rfl

/-- After its last pulse the output is disarmed. -/
theorem execTtPulse_last {s : State} {n : Nat} (hdue : s.pulseDue n = true)
    (hlast : s.regN (Reg.ttPeriod n) = 0 ∨ (s.regN (Reg.ttCount n) ≠ 0 ∧ s.regN (Reg.ttCount n) ≤ s.regN (Reg.ttEmitted n) + 1)) :
    let u := s.pulsed n
    execTtPulse n s = .next (({ u with time := { u.time with nextPulse := Table.put 0 u.time.nextPulse n 0 } } : State).setReg (Reg.ttArm n) 0) := by
  refine next_when_eq hdue ?_
  simp only [if_pos hlast]
  rfl

/-- Settles O51: the conditions of each row hold by the hypotheses, and its effect follows. -/
theorem timeBase : Obligations.TimeBase := by
  intro s
  dsimp only
  refine ⟨fun hon => next_when ?tick, ⟨fun hsource hlost => next_when_eq (State.sourceSilent_ptp hsource hlost) (if_pos hsource), execSourceLossTimeout_late⟩,
    fun n rising hn => next_when (decide_eq_true hn), rfl,
    ⟨execPpsInEdge_rising_other, fun hsource => ⟨fun t => execPpsInEdge_rising_pps hsource, execPpsInEdge_rising_pps hsource⟩⟩,
    fun hsource hlink m => ⟨next_when (benchSync_guard hsource hlink),
      fun hkind hone => next_when_eq (benchSync_guard hsource hlink) (State.ptpHear_benchSync hsource hkind hone)⟩,
    fun port kind m u hm hport hrole =>
      have sent := fun hcarries => execPtpMessageTx_sent hm (State.ptpMaySend_role hport hrole hcarries)
      ⟨fun hup => (sent (.inl hup)).trans (congrArg _ (if_pos hup)),
        fun hdown hmode hup => (sent (.inr ⟨hmode, hup⟩)).trans (congrArg _ (if_neg (Bool.eq_false_iff.mp hdown)))⟩,
    fun link hup => ⟨fun peer echo => next_when_eq hup (State.sourceUpdate_skew _ _ _ _ _), fun hdue => next_when ?word⟩,
    fun n harm hp hreached =>
      have hdue := State.pulseDue_iff.mpr ⟨harm, hp, hreached⟩
      ⟨execTtPulse_next hdue, execTtPulse_last hdue⟩⟩
  case tick => rw [hon]; rfl
  case word => rw [hup, decide_eq_true hdue]; rfl

/-! Reads of one object (R467, R484). -/

/-- Instruction `i` is the read of an object from an offset: an accepted request is answered with its bytes, or with the status that refuses it. -/
def ReadsObject (s : State) (a : Accessor) (i : Instr) (index sub offset : Nat) : Prop :=
  let c : Window := { op := 1, index := index, sub := sub, offset := offset }
  s.accepts a c →
    (∀ u f o, s.reach a index sub = .ok (u, f, o) → o.acc ≠ .wo →
      let whole := (s.takeObject a u sub f o false).2
      let rest := whole.drop offset
      let last := decide (rest.length ≤ roomOf a)
      exec i s = .next (s.answers a c ((s.takeObject a u sub f o last).1,
        { data := rest.take (roomOf a), total := if o.ty.isBytes = true then whole.length else 0, more := !last }))) ∧
    (∀ u f o, s.reach a index sub = .ok (u, f, o) → o.acc = .wo → exec i s = .next (s.answers a c (s, { status := Status.writeOnly }))) ∧
    (∀ e, s.reach a index sub = .error e → exec i s = .next (s.answers a c (s, { status := e })))

section
variable {s : State} {a : Accessor} {index sub u f : Nat} {o : ObjDef}

/-- A read of an object that is not write-only takes what the answer has room for. -/
theorem State.readObject_taken (hreach : s.reach a index sub = .ok (u, f, o)) (hacc : o.acc ≠ .wo) (offset : Nat) :
    let whole := (s.takeObject a u sub f o false).2
    let rest := whole.drop offset
    let last := decide (rest.length ≤ roomOf a)
    s.readObject a index sub offset = ((s.takeObject a u sub f o last).1,
      { data := rest.take (roomOf a), total := if o.ty.isBytes then whole.length else 0, more := !last }) := by
  simp only [State.readObject, hreach, beq_iff_eq, if_neg hacc]

/-- A write-only object is not read. -/
theorem State.readObject_writeOnly (hreach : s.reach a index sub = .ok (u, f, o)) (hacc : o.acc = .wo) (offset : Nat) :
    s.readObject a index sub offset = (s, { status := Status.writeOnly }) := by
  simp only [State.readObject, hreach, hacc, beq_self_eq_true, if_true]

/-- An object that the accessor does not reach is not read. -/
theorem State.readObject_unreached {e : Nat} (hreach : s.reach a index sub = .error e) (offset : Nat) :
    s.readObject a index sub offset = (s, { status := e }) := by
  simp only [State.readObject, hreach]

end

/-- A row of a single object. -/
theorem readsObject_of_dictRead {s : State} {a : Accessor} {i : Instr} {index sub offset : Nat}
    (hi : exec i s = .next (s.dictRead a index sub offset)) : ReadsObject s a i index sub offset := by
  intro hacc
  have hread : exec i s = .next (s.answers a _ (s.readObject a index sub offset)) := hi.trans (congrArg _ (access_ok s a _ _ _ hacc))
  rw [hread]
  refine ⟨fun u f o hreach ho => ?_, fun u f o hreach ho => ?_, fun e hreach => ?_⟩
  · rw [State.readObject_taken hreach ho]
  · rw [State.readObject_writeOnly hreach ho]
  · rw [State.readObject_unreached hreach]

/-- SNAP_READ outside a virtual function's window reads the account of any function. -/
theorem execSnapRead_account {s : State} {a : Accessor} {f : Nat} (hf : f ≤ 512) (ha : ∀ n, a ≠ .vf n) :
    execSnapRead a f s = .next (s.dictRead a (0xA000 + f) 0xB 0) := by
  cases a with
  | vf n => exact absurd rfl (ha n)
  | pf0 => exact next_when (decide_eq_true hf)
  | hdp h => exact next_when (decide_eq_true hf)

/-- SNAP_READ in a virtual function's window reads its own account. -/
theorem execSnapRead_own (s : State) (f : Nat) : execSnapRead (.vf f) f s = .next (s.dictRead (.vf f) 0xB300 0xB 0) :=
  next_when (beq_self_eq_true f)

/-- READ_BLOCK answers its block. -/
theorem execReadBlock_answers {s : State} {a : Accessor} {index sub last : Nat} (hacc : s.accepts a { op := 3, index := index, sub := sub, subLast := last }) :
    execReadBlock a index sub last s = .next (s.answers a { op := 3, index := index, sub := sub, subLast := last } (s.readBlock a index sub last)) :=
  congrArg Host.Outcome.next (access_ok s a _ _ _ hacc)

/-! Writes that fall due (R22, R23). -/

/-- The due write of an object takes effect, unless its rule refuses it by now and leaves a state of its own. -/
theorem execPendingWriteApply_due {s : State} {p : PendingWrite} {k : Nat} {stale : Option State} (hdue : s.dueWrite = some p) (hkey : p.key = k)
    (hstale : (s.withWrites (s.dict.writes.erase p)).staleWrite p = stale) :
    execPendingWriteApply k s = .next (stale.getD ((s.withWrites (s.dict.writes.erase p)).applyWrite p)) := by
  simp only [execPendingWriteApply, hdue, hstale]
  refine next_when_eq (beq_iff_eq.mpr hkey) ?_
  cases stale <;> rfl

/-- Settles O52: every read row is `dictRead` of its object, and the other rows follow from their conditions. -/
theorem dictionaryReads : Obligations.DictionaryReads := by
  intro s a reads
  have single : ∀ {i index sub offset}, exec i s = .next (s.dictRead a index sub offset) → reads i index sub offset := readsObject_of_dictRead
  refine ⟨fun index sub offset => single rfl, single rfl, fun n hn => single (next_when (decide_eq_true hn)),
    fun f hf ha => single (execSnapRead_account hf ha), fun f ha => single (ha ▸ execSnapRead_own s f), fun offset => single rfl, single rfl, single rfl,
    fun index sub last hacc => execReadBlock_answers hacc, fun copy ps hcopy hps => next_when (decide_eq_true ⟨hcopy, hps⟩),
    fun k p hdue hkey => ⟨execPendingWriteApply_due hdue hkey, fun t => execPendingWriteApply_due hdue hkey⟩⟩

end Sys2Proof.Machine

/-! PROOFS. The statements of the family 03_service_classes.md: sync objects by descriptor, preemption and slices, invocations, conductors and the radio
partition. -/

namespace Sys2Proof.Machine

/-! Sync descriptors (R410 to R423). -/

/-- JOB_ENTRY is a field of six bits. -/
theorem syncBodyOf_jobEntry_lt (x : Slot64) : (syncBodyOf x).jobEntry < 64 := Nat.mod_lt _ (by decide)

/-- CREATE does not refuse a kind of R410, of a barrier with its participants in range. -/
theorem SyncBody.create_legal {b : SyncBody} (hkind : b.kind ≤ 2) (hparts : b.kind = 1 → 1 ≤ b.value ∧ b.value ≤ 65535) :
    ¬(3 ≤ b.kind ∨ (b.kind = 1 ∧ (b.value = 0 ∨ 65535 < b.value))) := by omega

/-- PROXY does not refuse a rank of an active job that is bound to the context. -/
theorem State.proxy_legal {u : State} {x : Slot64} {ctx : Nat} (hstate : u.jobState (syncBodyOf x).jobEntry = 2)
    (hbound : (u.job (syncBodyOf x).jobEntry).bound = ctx + 1) (hrank : (syncBodyOf x).remoteRank < u.regN (Reg.jobChips (syncBodyOf x).jobEntry)) :
    ¬(64 ≤ (syncBodyOf x).jobEntry ∨ u.jobState (syncBodyOf x).jobEntry ≠ 2 ∨ (u.job (syncBodyOf x).jobEntry).bound ≠ ctx + 1 ∨
      u.regN (Reg.jobChips (syncBodyOf x).jobEntry) ≤ (syncBodyOf x).remoteRank) := by
  have := syncBodyOf_jobEntry_lt x
  omega

section
variable {s : State} {f r : Nat} {d : Desc} {x : Slot64} (hadm : s.admits f r d x [1, 2]) (hcode : opcodeOf x = 0x08)
include hadm hcode

/-- An admitted sync descriptor runs the meaning of its own SYNC_OP. -/
theorem State.admitSync_own {k : Nat} (act : State → Desc → SyncBody → State) (hop : syncOpOf x = k) :
    s.admitSync f r k act = act (s.takeDesc f r) d (syncBodyOf x) := by
  have hmine : isSync k x = true := by simp [isSync, isOp, hcode, hop]
  rw [State.admitSync, admit_ok s f r d x _ _ _ hadm hmine, if_neg (not_not_intro hop)]

/-- Every sync row refuses a SYNC_OP that R418 does not list. -/
theorem State.admitSync_unlisted {k : Nat} (act : State → Desc → SyncBody → State) (hop : syncOpOf x = 0 ∨ 5 < syncOpOf x) (hk : 1 ≤ k ∧ k ≤ 5) :
    s.admitSync f r k act = (s.takeDesc f r).refuse d 35 := by
  have hunlisted : ¬(1 ≤ syncOpOf x ∧ syncOpOf x ≤ 5) := by omega
  have hother : syncOpOf x ≠ k := by omega
  have hmine : isSync k x = true := by simp [isSync, isOp, hcode, hunlisted]
  rw [State.admitSync, admit_ok s f r d x _ _ _ hadm hmine, if_pos hother]

/-- A row that admits sync descriptors refuses a SYNC_OP that R418 does not list. -/
theorem exec_syncUnlisted {row : Instr} {k : Nat} {act : State → Desc → SyncBody → State} (hop : syncOpOf x = 0 ∨ 5 < syncOpOf x) (hk : 1 ≤ k ∧ k ≤ 5)
    (hrow : exec row s = .next (s.admitSync f r k act)) : exec row s = .next ((s.takeDesc f r).refuse d 35) := by
  rw [hrow, State.admitSync_unlisted hadm hcode act hop hk]

section
variable (hop : syncOpOf x = 1) (hkind : (syncBodyOf x).kind ≤ 2)
  (hparts : (syncBodyOf x).kind = 1 → 1 ≤ (syncBodyOf x).value ∧ (syncBodyOf x).value ≤ 65535)
include hop hkind hparts

/-- A CREATE of a virtual ID that its context does not use makes the object in its found state, where there is room. -/
theorem execCreate_free (hobj : (s.takeDesc f r).objectOf d.context (syncBodyOf x).vid = none) :
    let u := s.takeDesc f r
    let b := syncBodyOf x
    let o : SyncObj := { owner := d.context, vid := b.vid, kind := b.kind, klass := u.ctxClassOf d.context, hold := b.kind == 0 && b.hold
                         initial := if b.kind = 2 then 0 else b.value, value := if b.kind = 0 then b.value else 0 }
    execCreate f r s = .next (if u.objectRoom d.func = true then ((u.setObject u.freeObject o).syncCounts d.func).served d else u.refuse d 31) := by
  rw [execCreate, State.admitSync_own hadm hcode _ hop, if_neg (SyncBody.create_legal hkind hparts), hobj]
  dsimp only
  cases hroom : (s.takeDesc f r).objectRoom d.func <;> rfl

/-- A CREATE of a virtual ID in use is refused. -/
theorem execCreate_used {e : Nat × SyncObj} (hobj : (s.takeDesc f r).objectOf d.context (syncBodyOf x).vid = some e) :
    execCreate f r s = .next ((s.takeDesc f r).refuse d 30) := by
  rw [execCreate, State.admitSync_own hadm hcode _ hop, if_neg (SyncBody.create_legal hkind hparts), hobj]
  rfl

end

/-! An unmapped virtual ID. -/

section
variable (hobj : (s.takeDesc f r).objectOf d.context (syncBodyOf x).vid = none)
include hobj

theorem execDestroy_unmapped (hop : syncOpOf x = 2) : execDestroy f r s = .next ((s.takeDesc f r).refuse d 32) := by
  rw [execDestroy, State.admitSync_own hadm hcode _ hop]
  simp only [hobj]

theorem execSignal_unmapped (hop : syncOpOf x = 3) : execSignal f r s = .next ((s.takeDesc f r).refuse d 32) := by
  rw [execSignal, State.admitSync_own hadm hcode _ hop]
  simp only [hobj]

theorem execEventReset_unmapped (hop : syncOpOf x = 4) : execEventReset f r s = .next ((s.takeDesc f r).refuse d 32) := by
  rw [execEventReset, State.admitSync_own hadm hcode _ hop]
  simp only [hobj]

section
variable (hop : syncOpOf x = 5) (hstate : (s.takeDesc f r).jobState (syncBodyOf x).jobEntry = 2)
  (hbound : ((s.takeDesc f r).job (syncBodyOf x).jobEntry).bound = d.context + 1)
  (hrank : (syncBodyOf x).remoteRank < (s.takeDesc f r).regN (Reg.jobChips (syncBodyOf x).jobEntry))
include hop hstate hbound hrank

/-- A PROXY of an object that its home does not know is refused. -/
theorem execProxy_unmapped : execProxy f r none s = .next ((s.takeDesc f r).refuse d 33) := by
  rw [execProxy, State.admitSync_own hadm hcode _ hop]
  simp only [hobj, Option.isSome_none, Bool.false_eq_true, if_false, if_neg (State.proxy_legal hstate hbound hrank)]

/-- A PROXY of an object of the context's own class stands for it, where there is room. -/
theorem execProxy_granted {id kind klass : Nat} (hclass : klass = d.klass) (hctx : klass = (s.takeDesc f r).ctxClassOf d.context)
    (hroom : (s.takeDesc f r).objectRoom d.func = true) :
    let u := s.takeDesc f r
    let b := syncBodyOf x
    let o : SyncObj := { owner := d.context, vid := b.vid, kind := kind, klass := klass, remoteJob := b.jobEntry + 1
                         homeNode := u.rankNode b.jobEntry b.remoteRank, homeId := id }
    execProxy f r (some (id, kind, klass)) s = .next (((u.setObject u.freeObject o).syncCounts d.func).served d) := by
  have hmine : ¬(klass ≠ d.klass ∨ klass ≠ (s.takeDesc f r).ctxClassOf d.context) := not_or.mpr ⟨not_not_intro hclass, not_not_intro hctx⟩
  rw [execProxy, State.admitSync_own hadm hcode _ hop]
  simp only [hobj, Option.isSome_none, Bool.false_eq_true, if_false, if_neg (State.proxy_legal hstate hbound hrank), if_neg hmine, hroom, Bool.not_true]

end
end

/-! A mapped virtual ID. -/

section
variable {i : Nat} {o : SyncObj} (hobj : (s.takeDesc f r).objectOf d.context (syncBodyOf x).vid = some (i, o))
include hobj

/-- An object with waiters, or with holders while it is not abandoned, is not destroyed. -/
theorem execDestroy_busy (hop : syncOpOf x = 2) (hbusy : o.waiters ≠ [] ∨ (o.holders ≠ [] ∧ o.abandoned = false)) :
    execDestroy f r s = .next ((s.takeDesc f r).refuse d 34) := by
  rw [execDestroy, State.admitSync_own hadm hcode _ hop]
  simp only [hobj]
  rw [if_pos (by simpa using hbusy)]

/-- An object nobody uses is dropped, reported and counted where it is not in its found state. -/
theorem execDestroy_unused (hop : syncOpOf x = 2) (hwaiters : o.waiters = []) (hholders : o.holders = [] ∨ o.abandoned = true) :
    let u := s.takeDesc f r
    let n : Record := { rtype := 3, ctx := d.context, doneLnc := u.lnc % 4294967296, body := o.vid * 2 ^ 116 + o.kind * 2 ^ 114 }
    execDestroy f r s = .next (((if o.abandoned = true ∨ o.found = true ∨ o.remoteJob ≠ 0 then u
      else (u.bump (Reg.sqDirtyCount d.func) 1).writeRecord d.func (u.recordRing d.func d.ring) n).dropObject i d.func).served d) := by
  have hunused : ¬((!o.waiters.isEmpty) = true ∨ (!o.holders.isEmpty) = true ∧ (!o.abandoned) = true) := by
    rcases hholders with h | h <;> simp [hwaiters, h]
  rw [execDestroy, State.admitSync_own hadm hcode _ hop]
  simp only [hobj, if_neg hunused]

/-- An object of another class is not signalled. -/
theorem execSignal_otherClass (hop : syncOpOf x = 3) (hother : ¬(s.takeDesc f r).otherClass o d.context d.klass = false) :
    execSignal f r s = .next ((s.takeDesc f r).refuse d 3) := by
  rw [execSignal, State.admitSync_own hadm hcode _ hop]
  simp only [hobj]
  rw [if_pos (Bool.eq_true_of_not_eq_false hother)]

/-- A SIGNAL of the object's own class with a count that suits its kind: refused where the object is abandoned, else kept for the fence or applied. -/
theorem execSignal_mine (hop : syncOpOf x = 3) (hmine : (s.takeDesc f r).otherClass o d.context d.klass = false)
    (hcount : o.kind = 0 ↔ (syncBodyOf x).value ≠ 0) :
    let u := s.takeDesc f r
    let b := syncBodyOf x
    execSignal f r s = .next (if o.abandoned then u.refuse d 29
      else if b.fence && !(u.outstanding d.context).isEmpty then u.addTask
        { func := d.func, ctx := d.context, ring := d.ring, seq := d.seq, klass := d.klass, quiet := d.quiet, urgent := d.urgent, status := .ended
          signals := [{ op := 2, fence := true, vid := b.vid, count := b.value }] }
      else (u.signalObject i o d.context b.value).served d) := by
  have hsuits : ¬((o.kind = 0 ∧ (syncBodyOf x).value = 0) ∨ (o.kind ≠ 0 ∧ (syncBodyOf x).value ≠ 0)) := by tauto
  rw [execSignal, State.admitSync_own hadm hcode _ hop]
  simp only [hobj, hmine, Bool.false_eq_true, if_false, if_neg hsuits]

/-- An event of this chip that nobody uses becomes UNSET. -/
theorem execEventReset_unused (hop : syncOpOf x = 4) (hmine : (s.takeDesc f r).otherClass o d.context d.klass = false) (hkind : o.kind = 2)
    (hlocal : o.remoteJob = 0) (hkept : o.abandoned = false) (hwaiters : o.waiters = []) (hholders : o.holders = []) :
    execEventReset f r s = .next (((s.takeDesc f r).setObject i { o with value := 0 }).served d) := by
  rw [execEventReset, State.admitSync_own hadm hcode _ hop]
  simp [hobj, hmine, hkind, hlocal, hkept, hwaiters, hholders]

end
end

/-- Settles O49: each row by what its virtual ID names. -/
theorem syncObjects : Obligations.SyncObjects := by
  intro s f r d x hadm hcode
  dsimp only
  refine ⟨fun hop => ?unlisted, fun hop hkind hparts hobj => execCreate_free hadm hcode hop hkind hparts hobj,
    fun hobj => ⟨execDestroy_unmapped hadm hcode hobj, execSignal_unmapped hadm hcode hobj, execEventReset_unmapped hadm hcode hobj⟩,
    fun i o hobj => ⟨fun hop hkind hparts => execCreate_used hadm hcode hop hkind hparts hobj,
      fun hop => ⟨execDestroy_busy hadm hcode hobj hop, execDestroy_unused hadm hcode hobj hop⟩,
      execSignal_otherClass hadm hcode hobj, fun hop hmine hcount => ?signal, execEventReset_unused hadm hcode hobj⟩,
    fun id kind klass hop hobj hstate hbound hrank => ⟨execProxy_granted hadm hcode hobj hop hstate hbound hrank,
      execProxy_unmapped hadm hcode hobj hop hstate hbound hrank⟩⟩
  case unlisted =>
    have refused : ∀ {row k act}, 1 ≤ k ∧ k ≤ 5 → exec row s = .next (s.admitSync f r k act) → exec row s = .next ((s.takeDesc f r).refuse d 35) :=
      exec_syncUnlisted hadm hcode hop
    simp only [List.forall_mem_cons]
    exact ⟨refused (k := 1) (by decide) rfl, refused (k := 2) (by decide) rfl, refused (k := 3) (by decide) rfl, refused (k := 4) (by decide) rfl,
      refused (k := 5) (by decide) rfl, List.forall_mem_nil _⟩
  case signal =>
    have hsignal := execSignal_mine hadm hcode hobj hop hmine hcount
    exact ⟨fun hgone => hsignal.trans (by rw [if_pos hgone]),
      fun hkept hnow => hsignal.trans (by rw [if_neg (by simp [hkept]), if_neg (by rcases hnow with h | h <;> simp [h])]),
      fun hkept hfence hout => hsignal.trans (by rw [if_neg (by simp [hkept]), if_pos (by simp [hfence, hout])])⟩


/-! Conductors and the radio partition (R80, R303, R315, R318, R319, R324). -/

section
variable {s : State} {cluster core : Nat} (hcluster : cluster < 8) (hcore : core < 2)
include hcluster hcore

/-- A core that runs beats every 10 µs. -/
theorem execConductorHeartbeat_due (hrun : s.radio.hung.contains (2 * cluster + core) = false) (hfw : s.fwRestarting cluster core = false)
    (hbeat : s.passed (Table.get 0 s.radio.beats (2 * cluster + core)) 10000 = true) :
    execConductorHeartbeat cluster core s = .next { s with radio := { s.radio with
      beats := Table.put 0 s.radio.beats (2 * cluster + core) s.time.ticks } } :=
  next_when (by rw [decide_eq_true ⟨hcluster, hcore⟩, hrun, hfw, hbeat]; rfl)

/-- In a cluster without cells a hang takes no cell over. -/
theorem execConductorHang_noCells (hrun : s.radio.hung.contains (2 * cluster + core) = false) (hfw : s.fwRestarting cluster core = false)
    (hbeat : s.passed (Table.get 0 s.radio.beats (2 * cluster + core)) 50000 = true) (hcells : s.clusterCells cluster = []) :
    let k := 2 * cluster + core
    execConductorHang cluster core s = .next ({ s with radio := { s.radio with
      hung := s.radio.hung.filter (fun x => x != k) ++ [k], checks := Table.put 0 s.radio.checks k 0 } }.logError
        { klass := 1, unit := 8, code := 7, cluster := cluster, detail := core }) := by
  refine next_when_eq ?_ ?_
  · rw [decide_eq_true ⟨hcluster, hcore⟩, hrun, hfw, hbeat]
    rfl
  · rw [hcells]
    rfl

/-- In a cluster with cells a restarted core that may pass its self-check counts from now on as checked. -/
theorem execConductorSelfcheckPass_cells (hfw : s.fwRestarting cluster core = false) (hhung : s.radio.hung.contains (2 * cluster + core) = true)
    (hcheck : Table.has s.radio.checks (2 * cluster + core) = false)
    (hmay : s.radio.hung.contains (2 * cluster + (1 - core)) = false ∨ Table.has s.radio.checks (2 * cluster + (1 - core)) = true ∨
      s.radio.restarts.contains (2 * cluster + core) = true) (hcells : s.clusterCells cluster ≠ []) :
    let k := 2 * cluster + core
    execConductorSelfcheckPass cluster core s = .next { s with radio := { s.radio with
      checks := Table.put 0 s.radio.checks k (s.lnc + 1), beats := Table.put 0 s.radio.beats k s.time.ticks
      restarts := s.radio.restarts.filter (fun x => x != k) } } := by
  have hmay' : (!s.radio.hung.contains (2 * cluster + (1 - core)) || Table.has s.radio.checks (2 * cluster + (1 - core)) ||
      s.radio.restarts.contains (2 * cluster + core)) = true := by
    simpa only [Bool.or_eq_true, Bool.not_eq_true', or_assoc] using hmay
  have hempty : ¬(s.clusterCells cluster).isEmpty = true := by simpa using hcells
  simp only [execConductorSelfcheckPass, hfw, Bool.and_false, Bool.false_eq_true, if_false, if_neg hempty]
  exact next_when (by rw [decide_eq_true ⟨hcluster, hcore⟩, hhung, hcheck, hmay']; rfl)

end

/-- Of two hung cores chip control restarts the one that hung first. -/
theorem execConductorRestartByControl_first {s : State} {cluster a b : Nat} {rest : List Nat}
    (hhung : s.radio.hung.filter (fun x => x / 2 == cluster && !Table.has s.radio.checks x) = a :: b :: rest) (hfresh : s.radio.restarts.contains a = false) :
    execConductorRestartByControl cluster s = .next { s with radio := { s.radio with restarts := s.radio.restarts ++ [a] } } := by
  simp only [execConductorRestartByControl, hhung]
  exact next_when (by rw [hfresh]; rfl)

/-- While a cell of the cluster has its boundary ahead, a cell that has passed its own goes back without the core counting as restored. -/
theorem execHandback_some {s : State} {c t : Nat}
    (hcell : s.cellSt c ≠ 0) (hhung : s.radio.hung.contains (2 * s.regN (Reg.cellCluster c) + s.backCore c) = true)
    (hback : s.backAt c (2 * s.regN (Reg.cellCluster c) + s.backCore c) = some t) (hdue : t ≤ s.nowNs) (haway : s.regN (Reg.cellConductor c) ≠ s.backCore c)
    (hothers : ∃ y ∈ s.clusterCells (s.regN (Reg.cellCluster c)), ∃ later,
      s.backAt y (2 * s.regN (Reg.cellCluster c) + s.backCore c) = some later ∧ s.nowNs < later) :
    execHandback c s = .next ((s.setReg (Reg.cellConductor c) (s.backCore c)).cellEventNow c 8 (s.backCore c)) := by
  obtain ⟨y, hy, later, hlater, hahead⟩ := hothers
  refine next_when_eq ?_ (if_neg fun hall => ?_)
  · rw [hhung]
    simp [hcell, hback, hdue, haway]
  · have hpassed := List.all_eq_true.mp hall y hy
    simp only [hlater, decide_eq_false (Nat.not_le.mpr hahead), Bool.false_and] at hpassed
    exact absurd hpassed Bool.false_ne_true

/-- A radio task whose run ended with a contained error is launched on its standby tile, its re-run counted and reported. -/
theorem execRadioRerun_due {s : State} {n : Nat} {x : RadioWork} (hradio : (s.task n).radio = some x) (hn : s.hasTask n = true)
    (hdue : (s.task n).rerunDue = true) :
    let q := s.task n
    let u := s.setTask n { q with
      status := .registered, rerunDue := false, tiles := [(s.part q.part).tiles.getD x.standby 0], radio := some { x with reruns := x.reruns + 1 } }
    execRadioRerun n s = .next (((u.bump (Reg.cellReruns x.cell) 1).cellEvent x.cell 6 x.slot (q.vfirst * 65536 + x.standby)).launchRadio n) := by
  simp only [execRadioRerun, hradio]
  exact next_when (by rw [hn, hdue]; rfl)

/-- With no cell left the radio partition shrinks when its time has come. -/
theorem execRadioPartitionShrink_noCells {s : State} {cluster : Nat} (hcluster : cluster < 8) (hset : Table.get 0 s.radio.shrinkAt cluster ≠ 0)
    (hdue : Table.get 0 s.radio.shrinkAt cluster - 1 ≤ s.nowNs) (hcells : s.radio.cells = []) :
    execRadioPartitionShrink cluster s = .next ({ s with radio := { s.radio with
      shrinkAt := Table.put 0 s.radio.shrinkAt cluster 0 } }.radioShrink cluster) := by
  refine next_when_eq (decide_eq_true ⟨hcluster, hset, hdue⟩) ?_
  rw [hcells]
  rfl

/-- Settles O30: each row's conditions hold by the hypotheses, and its effect follows. -/
theorem conductorsAndParts : Obligations.ConductorsAndParts := by
  intro s cluster core hcluster hcore
  dsimp only
  exact ⟨fun hrun hfw => ⟨execConductorHeartbeat_due hcluster hcore hrun hfw, execConductorHang_noCells hcluster hcore hrun hfw⟩,
    execConductorSelfcheckPass_cells hcluster hcore, fun a b rest => execConductorRestartByControl_first,
    fun c t => execHandback_some, fun n x => execRadioRerun_due,
    fun t ht => ht ▸ execRadioPartitionShrink_noCells hcluster⟩

/-! Invocations (R88, R100, R240, R246 to R250, R260). -/

section
variable {s : State} {inv : Nat} (hinv : s.hasInv inv = true)
include hinv

section
variable (hstill : (s.inv inv).running = false) (hwaits : (s.task (s.inv inv).task).status = .waiting) (hrerun : (s.task (s.inv inv).task).rerunDue = false)
  (htarget : (s.task (s.inv inv).task).target ≤ s.lnc) (hlowest : s.lowest = false) (arrived : List (List Byte))
include hstill hwaits hrerun htarget hlowest

/-- A TEMPO invocation whose turn has come starts on the tiles of its partition. -/
theorem execInvocationStart_turn (htempo : (s.task (s.inv inv).task).klass = 0)
    (hfirst : List.any s.models.invs (fun e => e.2.part == (s.inv inv).part && decide (e.1 < inv)) = false)
    (hidle : (s.taskTiles (s.task (s.inv inv).task)).all (fun p => (s.tile p).idle) = true)
    (hawake : (s.taskTiles (s.task (s.inv inv).task)).all s.awake = true) :
    execInvocationStart inv arrived s = .next (s.startInv inv ((s.taskTiles (s.task (s.inv inv).task)).map (fun p => (p, 0))) arrived) := by
  refine next_when_eq ?_ (if_pos hawake)
  rw [hinv, hstill, htempo, hwaits, hrerun, decide_eq_true htarget, hfirst, hlowest, hidle]
  rfl

/-- A BE invocation that no other goes before starts where it is placed. -/
theorem execBeInvocationPlace_turn (hbe : (s.task (s.inv inv).task).klass = 1)
    (hbefore : List.any s.models.invs (fun e => e.1 != inv && e.2.part == 0 && !e.2.running
      && s.beBefore (e.2.task, s.task e.2.task) ((s.inv inv).task, s.task (s.inv inv).task)
      && decide ((s.task e.2.task).target ≤ s.lnc) && (s.task e.2.task).status == .waiting) = false)
    (hplaced : (s.placement inv).length = (s.task (s.inv inv).task).vcount) (hawake : ((s.placement inv).map (fun e => e.1)).all s.awake = true) :
    execBeInvocationPlace inv arrived s = .next (s.startInv inv (s.placement inv) arrived) := by
  refine next_when_eq ?_ (if_pos hawake)
  rw [hinv, hstill, hbe, hwaits, hrerun, decide_eq_true htarget, hbefore, hlowest, beq_iff_eq.mpr hplaced]
  rfl

end

/-- The next wave of an invocation that runs goes out to its tiles, where they have room, and is charged. -/
theorem execWaveIssue_next {index node : Nat} {w : Wave} (hnext : (s.slot (s.inv inv).serving).nextWave (s.inv inv) = some (index, node, w))
    (hrun : (s.inv inv).running = true) (hplaced : s.invPlaced inv = true) (hkept : (s.inv inv).abandoned = false)
    (htiles : (s.task (s.inv inv).task).tiles ≠ []) (hahead : s.wavesAhead inv (s.slot (s.inv inv).serving) < 2)
    (hroom : s.waveRoom inv (s.slot (s.inv inv).serving) w = true)
    (hsound : s.runPoisoned (s.slot (s.inv inv).serving).pages w.offset w.length = false) :
    let v := s.inv inv
    let k := s.task v.task
    execWaveIssue inv s = .next ((((s.deliverWave inv index w (s.runRead (s.slot v.serving).pages w.offset w.length)).setTask v.task k).setInv inv
      { v with waves := v.waves ++ [index] }).chargeBytes k.func 6 w.length) := by
  have htiles' : ¬(s.task (s.inv inv).task).tiles.isEmpty = true := by simpa using htiles
  simp only [execWaveIssue, hnext, if_neg htiles', hsound, Bool.false_eq_true, if_false]
  exact next_when (by rw [hinv, hrun, hplaced, hkept, decide_eq_true hahead, hroom]; rfl)

/-- An invocation whose nodes are all done, and whose outputs are written, ends as served. -/
theorem execInvocationComplete_done {u : State} (htask : s.hasTask (s.inv inv).task = true) (hrunning : (s.task (s.inv inv).task).status = .running)
    (hrun : (s.inv inv).running = true) (hplaced : s.invPlaced inv = true) (hdone : s.invDone (s.inv inv) = true) (hout : s.writeOutputs inv = .done u) :
    execInvocationComplete inv s = .next (u.endInv inv true) := by
  simp only [execInvocationComplete, hrunning, hrun, hplaced, hdone, hout, beq_self_eq_true, Bool.and_self, if_true]
  exact next_when (by rw [hinv, htask]; rfl)

/-- An invocation whose task has faulted ends without its outputs. -/
theorem execInvocationComplete_faulted (htask : s.hasTask (s.inv inv).task = true) (hended : (s.task (s.inv inv).task).status = .ended)
    (hfault : (s.task (s.inv inv).task).fault ≠ 0) : execInvocationComplete inv s = .next (s.endInv inv false) := by
  refine next_when_eq ?_ (if_neg (by simp [hended]))
  simp [hinv, htask, hended, hfault]

end

/-- Settles O25: the two starts by whose turn it is, a wave and the two ends by their conditions. -/
theorem invocations : Obligations.Invocations := by
  intro s inv arrived
  dsimp only
  exact ⟨fun hinv hstill htempo hwaits hrerun htarget hfirst hlowest =>
      execInvocationStart_turn hinv hstill hwaits hrerun htarget hlowest arrived htempo hfirst,
    fun hinv hstill hbe hwaits hrerun htarget hlowest => execBeInvocationPlace_turn hinv hstill hwaits hrerun htarget hlowest arrived hbe,
    fun index node w hnext hinv => execWaveIssue_next hinv hnext, fun u hinv => execInvocationComplete_done hinv, execInvocationComplete_faulted⟩

/-! Preemption (R71 to R83, R195). -/

/-- A task that runs is asked to go on to its preemption point. -/
theorem State.askOff_runs {s : State} {p : Nat} (htask : (s.tile p).task ≠ 0) (hswitch : (s.tile p).switching = 0) :
    s.askOff p = s.setTile p { s.tile p with preempt := true } := by
  simp [State.askOff, htask, hswitch]

/-- A restore is abandoned; the state in the save area stands. -/
theorem State.askOff_restores {s : State} {p : Nat} (htask : (s.tile p).task ≠ 0) (hswitch : (s.tile p).switching = 2) :
    s.askOff p = (s.setTile p (s.tile p).freed).noteSuspended ((s.tile p).task - 1) := by
  simp [State.askOff, htask, hswitch]

/-- A borrower with a radio launch near is asked to leave, unless it is being saved already. -/
theorem execPreemptionRequest_near {s : State} {n : Nat} (hborrower : (s.tile n).borrower ≠ 0) (hholds : (s.tile n).task = (s.tile n).borrower)
    (hswitch : (s.tile n).switching ≠ 1) (hnear : s.radioGap n (s.regN Reg.preemptLead + 1) = false) :
    execPreemptionRequest n s = .next (s.askOff n) :=
  next_when (by rw [decide_eq_true ⟨hborrower, hholds, hswitch⟩, hnear]; rfl)

/-- A restore that has run its time lets the rank go on. -/
theorem execSwitchComplete_restored {s : State} {n : Nat} (hswitch : (s.tile n).switching = 2) (hleft : (s.tile n).switchLeft = 0) :
    let t := s.tile n
    let k := s.task (t.task - 1)
    execSwitchComplete n s = .next
      (((s.setTask (t.task - 1) { k with saves := Table.erase k.saves t.rank }).setTile n { t with switching := 0 }).resumeRemote (t.task - 1) t.rank) :=
  next_when_eq (by simp [hswitch, hleft]) (if_neg (by simp [hswitch]))

/-- A save that has run its time keeps the rank's live state and frees the tile. -/
theorem execSwitchComplete_saved {s : State} {n : Nat} (htask : (s.tile n).task ≠ 0) (hswitch : (s.tile n).switching = 1)
    (hleft : (s.tile n).switchLeft = 0) (hnext : (s.tile n).next = 0) :
    let t := s.tile n
    let k := s.task (t.task - 1)
    let kept := if t.borrower = t.task then s.fillSaveArea n k.stateBytes else s
    let u := (kept.tile n).freed
    execSwitchComplete n s = .next (((kept.setTask (t.task - 1)
      { k with saves := Table.insert k.saves t.rank (t.saveLive k.inv), preempts := k.preempts + 1 }).setTile n
        { u with streamB := u.streamB.filter (fun e => e.owner != k.inv), streamMv := u.streamMv.filter (fun e => e.owner != k.inv) }).noteSuspended
          (t.task - 1)) := by
  refine next_when_eq (by simp [hswitch, hleft]) ?_
  rw [if_pos hswitch, if_pos hnext, Nat.sub_add_cancel (Nat.one_le_iff_ne_zero.mpr htask)]

/-- One launch quantum before the radio launch a task's unfinished save is given up, and it restarts from its beginning. -/
theorem execBorrowerSaveOverrun_task {s : State} {n x : Nat} (hborrower : (s.tile n).borrower ≠ 0) (hholds : (s.tile n).task = (s.tile n).borrower)
    (hleaves : (s.tile n).preempt = true ∨ (s.tile n).switching = 1) (hlaunch : s.nextRadio n = some x) (hnear : x ≤ s.lnc + 1)
    (hinv : (s.task ((s.tile n).task - 1)).inv = 0) :
    let t := s.tile n
    let k := s.task (t.task - 1)
    execBorrowerSaveOverrun n s = .next (((s.setTask (t.task - 1)
      { k with saves := [], started := [], halted := [], replies := [], again := [], status := .suspended, preempts := k.preempts + 1 }).setTile n t.freed).dropRuns
        (t.task - 1)) := by
  have hleaves' : ((s.tile n).preempt || (s.tile n).switching == 1) = true := by simpa using hleaves
  refine next_when_eq ?_ (if_pos hinv)
  rw [decide_eq_true ⟨hborrower, hholds⟩, hleaves', hlaunch]
  exact decide_eq_true hnear

/-- A suspended borrower that may start tries to return with the rank that the tile is for. -/
theorem execBorrowerRestore_open {s : State} {n : Nat} {r : Nat × Nat} (hborrower : (s.tile n).borrower ≠ 0) (hfree : (s.tile n).task = 0)
    (htask : s.hasTask ((s.tile n).borrower - 1) = true) (hstart : s.startable (s.task ((s.tile n).borrower - 1)) = true)
    (hrank : (s.openRanks ((s.tile n).borrower - 1) (s.task ((s.tile n).borrower - 1))).find? (fun r => r.2 == n) = some r) :
    execBorrowerRestore n s = .next (s.tryRank ((s.tile n).borrower - 1) r.1 n) := by
  refine next_when_eq ?_ (by rw [hrank]; rfl)
  rw [decide_eq_true ⟨hborrower, hfree⟩, htask, hstart, hrank]
  rfl

/-- On a tile without a borrower the size of the loan window applies. -/
theorem execLoanWindowResize_free {s : State} {n p : Nat} (hpart : s.partOf n = some p) (hradio : s.isRadio n = true) (hborrower : (s.tile n).borrower = 0) :
    execLoanWindowResize n s = .next (s.setTile n { s.tile n with loan := s.regN (Reg.partLoanPages p) }) := by
  simp only [execLoanWindowResize, hpart]
  exact next_when (by rw [hradio, hborrower]; rfl)

/-- A slice of a pool task that nobody else wants the tile of is followed by another of its own. -/
theorem execBeSliceEnd_alone {s : State} {n : Nat} (htask : (s.markBoosts.tile n).task ≠ 0) (hswitch : (s.markBoosts.tile n).switching = 0)
    (hbe : (s.markBoosts.task ((s.markBoosts.tile n).task - 1)).klass = 1) (hpool : s.markBoosts.partOf n = some 0)
    (hslice : s.markBoosts.passed (s.markBoosts.tile n).sliceStart (s.markBoosts.regN Reg.beSlice) = true) (halone : s.markBoosts.wanting n = []) :
    execBeSliceEnd n s = .next (s.markBoosts.setTile n { s.markBoosts.tile n with sliceStart := s.markBoosts.time.ticks }) := by
  refine next_when_eq ?_ ?_
  · rw [decide_eq_true ⟨htask, hswitch⟩, hbe, hpool, hslice]
    rfl
  · rw [halone]
    exact if_pos rfl

/-- Settles O18: each row's conditions hold by the hypotheses, and its effect follows. -/
theorem preemption : Obligations.Preemption := by
  intro s n
  dsimp only
  refine ⟨fun hborrower hholds hswitch hnear => ?request, fun hborrower hholds hswitch hnear => ?abandoned,
    fun hpreempt htask hswitch hpoint => next_when ?point, execSwitchComplete_restored, execSwitchComplete_saved,
    fun x => execBorrowerSaveOverrun_task, fun r => execBorrowerRestore_open,
    fun b hb hradio hbe hreg hone htarget hready hlendable hborrower hloan hneed htask hswitch hlowest hgap => next_when ?place,
    fun p => execLoanWindowResize_free, execBeSliceEnd_alone,
    fun b hb hbe hrerun hstatus hbegun hlimit hlate => next_when ?expired⟩
  case request =>
    exact (execPreemptionRequest_near hborrower hholds (by omega) hnear).trans (by rw [State.askOff_runs (by omega) hswitch])
  case abandoned =>
    exact (execPreemptionRequest_near hborrower hholds (by omega) hnear).trans (by rw [State.askOff_restores (by omega) hswitch])
  case point => simp [hpreempt, htask, hswitch, hpoint]
  case place =>
    rw [hb, hradio, hbe, hreg, hlendable, hlowest, hgap, decide_eq_true ⟨hone, htarget, hready⟩, decide_eq_true ⟨hborrower, hloan, hneed, htask, hswitch⟩]
    rfl
  case expired => simp [hb, hbe, hrerun, hstatus, hbegun, hlimit, hlate]

end Sys2Proof.Machine

/-! PROOFS. The statements of the family 04_number_formats.md: unpacking of BFP blocks, accumulators, tile moves, matrix and format nodes, stores and
atomics at their home. -/

namespace Sys2Proof.Machine

/-! BFP blocks (R131, R132). -/

/-- A signed field of `w` bits lies in the range of its width. -/
theorem signed_bounds {w : Nat} (hw : 1 ≤ w) (n : Nat) : -(2 ^ (w - 1) : Int) ≤ signed w n ∧ signed w n + 1 ≤ 2 ^ (w - 1) := by
  have hlt : n % 2 ^ w < 2 ^ w := Nat.mod_lt _ (Nat.two_pow_pos w)
  have hhalf : 2 ^ w = 2 * 2 ^ (w - 1) := by rw [← pow_succ', Nat.sub_add_cancel hw]
  have hcast : (2 ^ (w - 1) : Int) = ((2 ^ (w - 1) : Nat) : Int) := by push_cast; rfl
  rw [signed, hcast]
  split <;> omega

/-- The CI16 code of a mantissa of `w` bits fits 16 bits. -/
theorem signed_mul_bounds {w : Nat} (hw : 1 ≤ w) (hw' : w ≤ 16) (n : Nat) :
    -32768 ≤ signed w n * 2 ^ (16 - w) ∧ signed w n * 2 ^ (16 - w) ≤ 32767 := by
  obtain ⟨hlow, hhigh⟩ := signed_bounds hw n
  have hunit : (0 : Int) < 2 ^ (16 - w) := by positivity
  have hrange : (2 ^ (w - 1) : Int) * 2 ^ (16 - w) = 32768 := by
    rw [← pow_add, show w - 1 + (16 - w) = 15 by omega]
    norm_num
  constructor <;> nlinarith

/-- A code and its block exponent stand for the value of the mantissa and the exponent on the wire. -/
theorem bfp_value {w : Nat} (hw : w ≤ 16) (m : Int) (x : Nat) :
    ((m * 2 ^ (16 - w) : Int) : ℚ) * (2 : ℚ) ^ ((x : Int) - (16 - w)) = (m : ℚ) * 2 ^ x := by
  have hexp : ((16 - w : Nat) : Int) + ((x : Int) - (16 - w)) = x := by omega
  push_cast
  rw [mul_assoc, ← zpow_natCast, ← zpow_add₀ two_ne_zero, hexp, zpow_natCast]

/-- What a block unpacks to: 24 codes and the exponent, from a head byte of which four bits count. -/
theorem bfpUnpack_cons (w : Nat) (head : Byte) (body : List Byte) :
    bfpUnpack w (head :: body) = ((List.range 24).map (fun i =>
      signed w (body.foldl (fun n b => n * 256 + b.toNat) 0 / 2 ^ (8 * body.length - w * (i + 1))) * (2 ^ (16 - w) : Nat)),
      ((head.toNat % 16 : Nat) : Int) - (16 - w)) := rfl

/-- Settles O55: each code is a mantissa in range times the unit of the width, and the exponent makes up for the unit. -/
theorem bfpUnpacking : Obligations.BfpUnpacking := by
  intro w head body hw hbody
  have hlegal : 1 ≤ w ∧ w ≤ 16 := by
    simp only [List.mem_cons, List.not_mem_nil, or_false] at hw
    omega
  obtain ⟨hpos, hle⟩ := hlegal
  dsimp only
  simp only [bfpUnpack_cons, hbody, show 8 * (3 * w) = 24 * w by omega]
  refine ⟨by simp, trivial, fun i hi => ⟨?code, ?low, ?high, bfp_value hle _ _⟩, fun other hother => by rw [hother]⟩
  case code => simp [hi]
  case low => exact (signed_mul_bounds hpos hle _).1
  case high => exact (signed_mul_bounds hpos hle _).2

/-! Accumulators (R127, R182, R188). -/

/-- A row that is a legal instruction on the registers changes them and retires. -/
theorem exec_vsRegs {s : State} {n : Nat} {row : Instr} {i : VsCode} {g : Vs → Vs} (hrow : exec row s = .next (vsRun s n i (vsRegs g)))
    (hruns : s.vsRuns n i) : exec row s = .next (s.vsAfter n g) := by
  rw [hrow, vsRun_regs s n i g hruns]

/-- Settles O4: each row is an instruction on the registers. -/
theorem accumulatorResults : Obligations.AccumulatorResults := by
  intro s n f
  exact ⟨exec_vsRegs rfl, exec_vsRegs rfl, exec_vsRegs rfl, exec_vsRegs rfl, exec_vsRegs rfl, exec_vsRegs rfl, exec_vsRegs rfl, exec_vsRegs rfl⟩

/-! Tile moves (R166 to R168, R195). -/

section
variable {s : State} {n : Nat} {op : XOp}

/-- A source in the tile's own SRAM is read at once, from where a save has left it. -/
theorem State.moveRead_own (arrived : List Byte) (hsrc : (moveCmd op.desc).srcVa = false) :
    let t := s.tile n
    let m := moveCmd op.desc
    let k := op.data.length
    s.moveRead n op arrived = (s, .ready, if m.mode = 1 ∨ m.srcBytes = 0 then [] else op.data ++ t.read (m.src + k) (m.srcBytes - k),
      if m.mode = 1 ∨ m.srcBytes = 0 then false else t.poisoned (m.src + k) (m.srcBytes - k)) := by
  simp only [State.moveRead, hsrc, Bool.not_false, if_true]
  split <;> rfl

/-- A destination in the tile's own SRAM sends nothing. -/
theorem State.moveSend_own (bs : List Byte) (hdst : (moveCmd op.desc).dstVa = false) : s.moveSend n op bs = (s, .ready) := by
  simp only [State.moveSend, hdst, Bool.not_false, if_true]

/-- The first move of a tile, between sound places of its own SRAM, keeps what its mode makes of its source. -/
theorem State.moveRun_own {rest : List XOp} {mode : Nat} (arrived : List Byte) (hmoves : (s.tile n).live.moves = op :: rest) (hwritten : op.written = false)
    (hruns : (s.tile n).unitRuns = true) (hsrc : (moveCmd op.desc).srcVa = false) (hdst : (moveCmd op.desc).dstVa = false)
    (hsound : (moveCmd op.desc).mode = 1 ∨
      (s.tile n).poisoned ((moveCmd op.desc).src + op.data.length) ((moveCmd op.desc).srcBytes - op.data.length) = false)
    (hmode : (moveCmd op.desc).mode = mode) :
    let t := s.tile n
    let m := moveCmd op.desc
    let k := op.data.length
    let o := m.transform (if m.mode = 1 ∨ m.srcBytes = 0 then [] else op.data ++ t.read (m.src + k) (m.srcBytes - k))
    s.moveRun n mode arrived = (s.updTile n (fun t => t.moveWritten o.1 o.2)).moveFlag n o.2 := by
  have hguard : ¬((moveCmd op.desc).mode ≠ mode ∨ op.written = true ∨ (!(s.tile n).unitRuns) = true) := by simp [hmode, hwritten, hruns]
  have hpoison : (if (moveCmd op.desc).mode = 1 ∨ (moveCmd op.desc).srcBytes = 0 then false
      else (s.tile n).poisoned ((moveCmd op.desc).src + op.data.length) ((moveCmd op.desc).srcBytes - op.data.length)) = false := by
    rcases hsound with h | h <;> simp [h]
  simp only [State.moveRun, hmoves, if_neg hguard, State.moveRead_own arrived hsrc, hpoison, State.moveSend_own _ hdst, hsrc, hdst, Bool.false_and,
    Bool.false_eq_true, if_false, Nat.add_zero, true_or, if_true]

end

/-- Settles O13: each row is the transfer of the first move under its own mode. -/
theorem tileMoves : Obligations.TileMoves := by
  intro s n arrived op rest t m k o moved hmoves hwritten hruns hsrc hdst hsound
  have run : ∀ {row mode bytes}, exec row s = .next (s.moveRun n mode bytes) → m.mode = mode → exec row s = .next moved :=
    fun hrow hmode => hrow.trans (congrArg _ (State.moveRun_own _ hmoves hwritten hruns hsrc hdst hsound hmode))
  exact ⟨run rfl, run rfl, run rfl, run rfl, run rfl⟩

/-! Matrix nodes (R205, R207, R217). -/

section
variable {s : State} {inv node vt p b : Nat} (harea : s.areaAt inv vt = some (p, b)) (hran : (s.inv inv).ran.contains (node, vt) = false)
include harea hran

/-- A row of one pass leaves what its run leaves; one of the cubes counts as activity of its tile, one of the MV path (family 2) does not. -/
theorem exec_passNode {row : Instr} {family : Nat} {bs : List Byte} (cube : Bool) (run : PassDesc → Tile → Tile × Bool × Bool)
    (hrow : exec row s = .next (s.passNode inv node family vt run)) (hcube : (family == 2) = !cube) (hpass : passOn (s.node_ inv node) vt = some bs) :
    let d := (passDesc (!cube) bs).shifted b
    let t := d.feed (s.tile p) (s.nodeWaves inv node)
    s.nodeReady inv node family = true →
    d.invalid (if d.mv then t.live.mvAcc else t.live.acc) = false ∧ familyShape family d = true ∧ d.owned t t.ctx = true ∧ d.streamed t = true ∧
      d.poisoned t = false →
    exec row s = .next ((((s.begin_ inv node).setTile p (if cube then { (run d t).1 with lastActive := s.time.ticks + 1 } else (run d t).1)).nodeFlags
      inv (run d t).2.1 (run d t).2.2).ranOn inv node vt) := by
  intro d t hready ⟨hvalid, hshape, howned, hstreamed, hsound⟩
  have hdesc : (passDesc (family == 2) bs).shifted b = d := by rw [hcube]
  rw [hrow, passNode_ok s inv node family vt p b bs run d t hready hran hpass harea hdesc rfl hvalid hshape howned hstreamed hsound]
  cases cube <;> rfl

/-- A DFT node runs its stages in order on its tile. -/
theorem execDft_runs {stages : List (List Byte × Bool)} (hop : (s.node_ inv node).op = .dft vt stages) (hready : s.nodeReady inv node 0x05 = true) :
    let ds := stages.map (fun e => ((passDesc false e.1).shifted b, e.2))
    let t := ds.foldl (fun t e => e.1.feed t (s.nodeWaves inv node)) (s.tile p)
    let r := runStages ds t
    dftShape ds = true →
    (∀ e ∈ ds, e.1.invalid t.live.acc = false ∧ e.1.owned t t.ctx = true ∧ e.1.streamed t = true ∧ e.1.poisoned t = false) →
    execDft inv node s = .next ((((s.begin_ inv node).setTile p { r.1 with lastActive := s.time.ticks + 1 }).nodeFlags inv r.2.1 r.2.2).ranOn inv node vt) := by
  intro ds t r hshape hstages
  have hvalid : ds.any (fun e => e.1.invalid t.live.acc) = false := List.any_eq_false.mpr fun e he => by simp [(hstages e he).1]
  have howned : ds.all (fun e => e.1.owned t t.ctx) = true := List.all_eq_true.mpr fun e he => (hstages e he).2.1
  have hstreamed : ds.all (fun e => e.1.streamed t) = true := List.all_eq_true.mpr fun e he => (hstages e he).2.2.1
  have hsound : ds.any (fun e => e.1.poisoned t) = false := List.any_eq_false.mpr fun e he => by simp [(hstages e he).2.2.2]
  simp only [execDft, hop]
  refine next_when_eq (by rw [hready, hran]; rfl) ?_
  simp only [State.dftNode, harea]
  rw [hvalid, howned, hstreamed, hsound, hshape]
  rfl

end

/-- Settles O19: the rows of one pass by its descriptor, and the stages of a DFT. -/
theorem matrixNodes : Obligations.MatrixNodes := by
  intro s inv node vt p b harea hran
  exact ⟨fun bs hpass => ⟨exec_passNode harea hran true (fun d t => d.nodeRun t (s.node_ inv node).split) rfl rfl hpass,
    exec_passNode harea hran false (fun d t => d.nodeRun t 1) rfl rfl hpass,
    exec_passNode harea hran true (fun d t => d.nodeRun t (s.node_ inv node).split) rfl rfl hpass,
    exec_passNode harea hran true PassDesc.complexRun rfl rfl hpass, exec_passNode harea hran true PassDesc.complexRun rfl rfl hpass⟩,
    fun stages => execDft_runs harea hran⟩

/-! Elementwise and QUANT nodes (R113 to R116, R213). -/

section
variable {s : State} {inv node : Nat}

/-- A fresh ELEMENTWISE node with sound operands and an output in place writes its narrowed results. -/
theorem execElementwise_writes {count pa ba pb bb po bo : Nat} {a b out : ETensor} (hop : (s.node_ inv node).op = .element count a b out)
    (ha : s.areaAt inv a.tile = some (pa, ba)) (hb : s.areaAt inv b.tile = some (pb, bb)) (hout : s.areaAt inv out.tile = some (po, bo))
    (hfresh : s.nodeFresh inv node 0x07 = true) :
    let rs := (List.range count).map (fun i =>
      let x := elementOp (s.node_ inv node).function ((s.tile pa).widened a.fmt (a.addr + ba) i) ((s.tile pb).widened b.fmt (b.addr + bb) i)
      x.after (narrowValue out.fmt ((s.tile po).groupExp (out.addr + bo)) x.code))
    let bytes := packValues out.fmt (rs.map (fun r => r.code))
    inSram (out.addr + bo) bytes.length = true → a.fmt ≤ 8 → b.fmt ≤ 8 → out.fmt ≤ 8 →
    (s.tile pa).poisoned (a.addr + ba) (valueBytes a.fmt count) = false → (s.tile pb).poisoned (b.addr + bb) (valueBytes b.fmt count) = false →
    execElementwise inv node s = .next
      (((s.begin_ inv node).updTile po (fun t => t.write (out.addr + bo) bytes)).nodeFlags inv (anyInvalid rs) (anySaturated rs)) := by
  intro rs bytes hplace hfa hfb hfo hsa hsb
  simp only [execElementwise, hop]
  refine next_when_eq hfresh ?_
  simp only [State.elementNode, ha, hb, hout]
  rw [hplace, decide_eq_true ⟨hfa, hfb, hfo⟩, hsa, hsb]
  rfl

/-- A fresh QUANT node with a sound input and its output in place writes its codes and then the scale bytes of its rows. -/
theorem execQuant_writes {x : Tensor} {row fmt outAddr scaleAddr pitch p b : Nat}
    (hop : (s.node_ inv node).op = .quant x row fmt outAddr scaleAddr pitch) (harea : s.areaAt inv x.tile = some (p, b))
    (hfresh : s.nodeFresh inv node 0x0A = true) :
    let n := x.count / row
    let rows := (List.range n).map (fun r => blocks row ((s.tile p).codes (x.addr + b + 4 * r * row) row))
    let rs := rows.flatMap (fun l => l.flatMap (fun c => c.map (quantElem fmt (scaleByte fmt c))))
    let bytes := packRow fmt (rs.map (fun r => r.code))
    let scales := fun (t : Tile) (e : Nat × List (List Nat)) => t.write (scaleAddr + b + e.1 * pitch) (e.2.map (fun c => BitVec.ofNat 8 (scaleByte fmt c)))
    row ≠ 0 → mxFormat fmt = true → inSram (outAddr + b) bytes.length = true → inSram (scaleAddr + b) (n * pitch + ceilDiv row 32) = true →
    (s.tile p).poisoned (x.addr + b) (4 * x.count) = false →
    execQuant inv node s = .next (((s.begin_ inv node).updTile p (fun t => ((List.range n).zip rows).foldl scales (t.write (outAddr + b) bytes))).nodeFlags inv
      (anyInvalid rs) (anySaturated rs)) := by
  intro n rows rs bytes scales hrow hfmt hcodes hscales hsound
  simp only [execQuant, hop]
  refine next_when_eq hfresh ?_
  simp only [State.quantNode, harea]
  rw [hcodes, hscales, hfmt, decide_eq_true hrow, hsound]
  rfl

end

/-- Settles O21: a fresh node whose tensors are sound and in place writes its results. -/
theorem formatNodes : Obligations.FormatNodes := by
  intro s inv node
  exact ⟨fun count a b out pa ba pb bb po bo hop ha hb hout hfresh => execElementwise_writes hop ha hb hout hfresh,
    fun x row fmt outAddr scaleAddr pitch p b hop harea hfresh => execQuant_writes hop harea hfresh⟩

/-! Stores and atomics at their home (R385, R387, R398, R402). -/

/-- A packet for this node from a node that is heard is handled here. -/
theorem State.deliver_heard {s : State} {q : Packet} (hhears : s.hears q = true) : s.deliver q = s.handle q := by
  simp only [State.hears, Bool.and_eq_true, bne_iff_ne, beq_iff_eq, Bool.not_eq_true'] at hhears
  obtain ⟨⟨hnode, hdst⟩, hdead⟩ := hhears
  simp only [State.deliver, hnode, hdead, hdst, Bool.false_eq_true, or_self, if_false, if_true]

/-- A packet with a home context names an active job. -/
theorem State.jobless_of_homeOf {s : State} {q : Packet} {e : Nat × Nat} (hhome : s.homeOf q = some e) : s.jobless q = false := by
  simp only [State.jobless, hhome, Option.isNone_some, Bool.and_false]

/-- The opcodes of the atomics (R387) are handled by the home's atomic. -/
theorem State.handle_atomic {s : State} {q : Packet} (hjob : s.jobless q = false) (hop : 0x08 ≤ q.opcode ∧ q.opcode ≤ 0x10) :
    s.handle q = s.homeAtomic q := by
  simp only [State.handle, hjob, Bool.and_false, Bool.false_eq_true, if_false]
  split
  case h_16 => exact if_pos hop
  all_goals omega

/-- A request that is heard is charged to the owner of its job and served at its home context. -/
theorem State.atHome_served {s : State} {q : Packet} {j c : Nat} (act : State → Nat → Nat → State) (hhears : s.hears q = true)
    (hhome : s.homeOf q = some (j, c)) : s.atHome q act = act (s.chargeBytes (s.regN (Reg.jobOwner j)) 7 (packetBytes q)) j c := by
  simp only [State.atHome, hhears, hhome, Bool.not_true, Bool.false_eq_true, if_false]

/-- A request whose tag is new is applied, once its tag is the highest (R402). -/
theorem State.once_new {s : State} {q : Packet} (op : Nat) (act : State → State) (hnew : (s.replay q).hw = 0 ∨ newer q.tag ((s.replay q).hw - 1) = true) :
    s.once q op act = act (s.setReplay q ((s.replay q).advance q.tag)) := if_pos hnew

/-- A request that none of the held ones repeats is not held. -/
theorem State.isHeld_eq_false {s : State} {q : Packet} (hheld : ∀ h ∈ s.fabric.held, ¬(h.src = q.src ∧ h.job = q.job ∧ h.tag = q.tag)) :
    s.isHeld q = false :=
  List.any_eq_false.mpr fun h hh => by simpa [and_assoc] using hheld h hh

/-- Where no node holds the line shared or has yet to drop it, a store or an atomic is applied at once (R398). -/
theorem State.writeShared_free {s : State} {q : Packet} (j : Nat) {c : Nat} (hshared : s.sharersOf (lineKey (c - 1) q.offset) = [])
    (hdropping : s.droppingOf (lineKey (c - 1) q.offset) = []) : s.writeShared q j c = s.applyRequest q c := by
  simp only [State.writeShared, hshared, hdropping, List.isEmpty_nil, and_self, or_true, if_true]

/-- A store that its home context takes is recorded and acknowledged. -/
theorem State.applyRequest_store {s s' : State} {q : Packet} {c : Nat} (hop : q.opcode = 0x02) (hc : c ≠ 0)
    (hwrite : s.writeLocal (c - 1) q.offset q.data = some s') : s.applyRequest q c = (s'.record q 0 0).respond q 0x21 0 0 [] := by
  simp only [State.applyRequest, State.applyStore, hop, hc, hwrite, if_true, if_false]

/-- An atomic on sound bytes that its home context reads and writes is recorded with its old value, 0 for NORET, and answered with it. -/
theorem State.applyRequest_atomic {s s' : State} {q : Packet} {c : Nat} {bs : List Byte} (hop : q.opcode ≠ 0x02) (hc : c ≠ 0)
    (hread : s.readLocal (c - 1) q.offset (atomicBits q / 8) = some bs) (hsound : s.localPoisoned (c - 1) q.offset (atomicBits q / 8) = false)
    (hwrite : s.writeLocal (c - 1) q.offset
      (bytesOf (atomicBits q / 8) (atomicValue q.opcode (atomicBits q) (natOf bs) q.operand q.compare)) = some s') :
    let result := if q.noret = true then 0 else natOf bs
    s.applyRequest q c = (s'.record q 0 result).respond q 0x22 0 result [] := by
  have hhome : s.homeRead c q.offset (atomicBits q / 8) = (0, bs) := by
    simp only [State.homeRead, hc, hread, hsound, Bool.false_eq_true, if_false]
  have hat : s.atomicAt q c = (s', 0, if q.noret = true then 0 else natOf bs) := by
    simp only [State.atomicAt, hhome, hwrite, ne_eq, not_true_eq_false, if_false]
  simp only [State.applyRequest, State.applyAtomic, hop, hat, if_false]

/-- The state in which the home begins with request `q` of job entry `j`: charged, its tag the highest of its source (R402). -/
def State.requestBegun (s : State) (q : Packet) (j : Nat) : State :=
  let v := s.chargeBytes (s.regN (Reg.jobOwner j)) 7 (packetBytes q)
  v.setReplay q ((v.replay q).advance q.tag)

/-- Request `q` is new under R402, no held request repeats it, and no node holds its line shared (R398). -/
structure State.RequestFree (s : State) (q : Packet) (j c : Nat) : Prop where
  new : let v := s.chargeBytes (s.regN (Reg.jobOwner j)) 7 (packetBytes q)
    (v.replay q).hw = 0 ∨ newer q.tag ((v.replay q).hw - 1) = true
  unheld : ∀ h ∈ s.fabric.held, ¬(h.src = q.src ∧ h.job = q.job ∧ h.tag = q.tag)
  unshared : (s.requestBegun q j).sharersOf (lineKey (c - 1) q.offset) = []
  undropped : (s.requestBegun q j).droppingOf (lineKey (c - 1) q.offset) = []

section
variable {s : State} {q : Packet} {j c : Nat} (hhears : s.hears q = true) (hhome : s.homeOf q = some (j, c)) (hfree : s.RequestFree q j c)
include hhears hhome hfree

/-- A new STORE is applied at its home. -/
theorem State.deliver_store (hop : q.opcode = 0x02) : s.deliver q = (s.requestBegun q j).applyRequest q c := by
  have hrow : s.handle q = s.homeStore q := by
    simp only [State.handle, State.jobless_of_homeOf hhome, hop, Bool.and_false, Bool.false_eq_true, if_false]
  rw [State.deliver_heard hhears, hrow, State.homeStore, State.atHome_served _ hhears hhome]
  rw [State.isHeld_eq_false (by exact hfree.unheld), if_neg Bool.false_ne_true, State.once_new _ _ hfree.new]
  exact State.writeShared_free j hfree.unshared hfree.undropped

/-- A new atomic is applied at its home, but for one that the determinism mode forbids (R230). -/
theorem State.deliver_atomic (hop : 0x08 ≤ q.opcode ∧ q.opcode ≤ 0x10) :
    let u := s.requestBegun q j
    s.deliver q = if u.reg Reg.determinismMode = 1 ∧ atomicForbidden q.opcode q.noret = true then
      ((u.bump Reg.forbiddenRefusals 1).record q 4 0).respond q 0x22 4 0 [] else u.applyRequest q c := by
  rw [State.deliver_heard hhears, State.handle_atomic (State.jobless_of_homeOf hhome) hop, State.homeAtomic, State.atHome_served _ hhears hhome]
  rw [State.isHeld_eq_false (by exact hfree.unheld), if_neg Bool.false_ne_true, State.once_new _ _ hfree.new]
  exact if_congr Iff.rfl rfl (State.writeShared_free j hfree.unshared hfree.undropped)

end

/-- The F32 atomic adds the operand's low 32 bits. -/
theorem atomicValue_faddF32 (old x y : Nat) : atomicValue 0x0F 32 old x y = (fp32Add old (x % 2 ^ 32)).code := by simp only [atomicValue]

/-- The F64 atomic adds the operand's low 64 bits. -/
theorem atomicValue_faddF64 (old x y : Nat) : atomicValue 0x10 64 old x y = (fp64Add old (x % 2 ^ 64)).code := by simp only [atomicValue]

/-- Settles O32: a request that is new and free is applied by `applyRequest`, an atomic with the function of its opcode. -/
theorem atomicsAtHome : Obligations.AtomicsAtHome := by
  intro s p j c hhears hhome hc w x start new k free applies
  have fresh : ∀ op, new op → free op → s.RequestFree { p with opcode := op } j c :=
    fun op hnew ⟨hunheld, hunshared, hundropped⟩ => ⟨hnew, hunheld, hunshared, hundropped⟩
  have atomic : ∀ {row : Packet → Instr} {op w : Nat} (value : Nat → Nat), exec (row p) s = .next (s.arrives p op) → 0x08 ≤ op ∧ op ≤ 0x10 →
      atomicBits { p with opcode := op } = w → (∀ old, atomicValue op w old p.operand p.compare = value old) → applies row op w value := by
    intro row op w value hrow hop hbits hvalue
    have deliver := fun hnew hfree => State.deliver_atomic (q := { p with opcode := op }) hhears hhome (fresh op hnew hfree) hop
    refine ⟨fun bs u' hnew hfree hmode hread hsound hwrite => ?applied, fun hnew hfree hmode hforbidden => ?forbidden⟩
    case applied =>
      subst hbits
      rw [hrow, State.arrives, deliver hnew hfree]
      refine congrArg _ ((if_neg fun h => hmode h.1).trans (State.applyRequest_atomic (by dsimp only; omega) hc hread hsound ?_))
      rw [hvalue]
      exact hwrite
    case forbidden =>
      rw [hrow, State.arrives, deliver hnew hfree]
      exact congrArg _ (if_pos ⟨hmode, hforbidden⟩)
  have store : ∀ u', new 0x02 → free 0x02 → (start 0x02).writeLocal (c - 1) p.offset p.data = some u' →
      exec (.store p) s = .next ((u'.record { p with opcode := 0x02 } 0 0).respond { p with opcode := 0x02 } 0x21 0 0 []) := by
    intro u' hnew hfree hwrite
    have deliver := State.deliver_store (q := { p with opcode := 0x02 }) hhears hhome (fresh 0x02 hnew hfree) rfl
    exact congrArg _ (deliver.trans (State.applyRequest_store rfl hc hwrite))
  exact ⟨atomic _ rfl (by decide) rfl fun _ => rfl, atomic _ rfl (by decide) rfl fun _ => rfl, atomic _ rfl (by decide) rfl fun _ => rfl,
    atomic _ rfl (by decide) rfl fun _ => rfl, atomic _ rfl (by decide) rfl fun _ => rfl, atomic _ rfl (by decide) rfl fun _ => rfl,
    atomic _ rfl (by decide) rfl fun _ => rfl, atomic (fun old => (fp32Add old (x % 2 ^ 32)).code) rfl (by decide) rfl fun old => atomicValue_faddF32 old _ _,
    atomic (fun old => (fp64Add old (x % 2 ^ 64)).code) rfl (by decide) rfl fun old => atomicValue_faddF64 old _ _, store⟩

end Sys2Proof.Machine

/-! PROOFS. The statements of the family 05_tiles_and_cubes.md: what ends an X operation, the end of a move, nodes that steer a graph, and sleep with
its wake. -/

namespace Sys2Proof.Machine

/-! X operations (R139, R143, R157, R189, R190, R195, R197). -/

/-- Taking waves from the stage does not touch what lets the units of the tile run. -/
theorem PassDesc.feed_unitRuns (d : PassDesc) (t : Tile) (own : Staged → Bool) : (d.feed t own).unitRuns = t.unitRuns := by
  rw [PassDesc.feed]
  split
  · rfl
  · split <;> rfl

section
variable {s : State} {n : Nat}

/-- A stalled X instruction whose unit has room hands its operation over and retires. -/
theorem execXIssueAccepted_room {kind a sync : Nat} {t' : Tile} (hwait : (s.tile n).wait = .unit kind a sync) (hfree : (s.tile n).unitFree kind = true)
    (htask : (s.tile n).task ≠ 0) (hswitch : (s.tile n).switching = 0) (hsleep : (s.tile n).sleep = 0)
    (hstart : (s.tile n).start kind a sync s.time.ticks (s.moveOverlaps n (s.tile n).ctx) = .ok t') :
    execXIssueAccepted n s = .next (s.setTile n t'.unpause.retire) := by
  simp only [execXIssueAccepted, hwait, hstart]
  exact next_when (by rw [hfree, decide_eq_true htask, hswitch, hsleep]; rfl)

section
variable {op : XOp} (hruns : (s.tile n).unitRuns = true)
include hruns

/-- A cube pass with all of its stream and sound operands leaves its results, which counts as activity of its tile, and signals. -/
theorem execPassComplete_streamed (hpass : (s.tile n).live.pass = some op) :
    let p := passDesc false op.desc
    let u := p.feed (s.tile n) (s.ownWaves (s.tile n))
    p.streamed u = true → p.poisoned u = false →
    execPassComplete n s = .next ((s.setTile n ({ p.finish u with
      live := { (p.finish u).live with pass := none }, lastActive := s.time.ticks + 1 }.signal op.sync)).rankEnd n) := by
  intro p u hstreamed hsound
  simp only [execPassComplete, hpass]
  refine next_when_eq ((PassDesc.feed_unitRuns p _ _).trans hruns) ?_
  rw [if_neg (by simpa using hstreamed), if_neg (by simpa using hsound)]

/-- An MV pass with all of its stream and sound operands leaves its results and signals. -/
theorem execMvPassComplete_streamed (hpass : (s.tile n).live.mv = some op) :
    let p := passDesc true op.desc
    let u := p.feed (s.tile n) (s.ownWaves (s.tile n))
    p.streamed u = true → p.poisoned u = false →
    execMvPassComplete n s = .next ((s.setTile n ({ p.finish u with live := { (p.finish u).live with mv := none } }.signal op.sync)).rankEnd n) := by
  intro p u hstreamed hsound
  simp only [execMvPassComplete, hpass]
  refine next_when_eq ((PassDesc.feed_unitRuns p _ _).trans hruns) ?_
  rw [if_neg (by simpa using hstreamed), if_neg (by simpa using hsound)]

end

/-- A borrowable task more than 256 tile cycles past its last preemption point faults. -/
theorem execPreemptBound_past {cycles : Nat} (hbounded : s.bounded (s.tile n) = true) (hpoint : (s.tile n).atPoint = false) (hpast : 256 < cycles)
    (hsince : (s.tile n).sincePoint ≤ cycles) (hclock : 10 * cycles ≤ (s.tile n).tenths - (s.tile n).pointAt + tickSpan)
    (hswitch : (s.tile n).switching = 0) : execPreemptBound n cycles s = .next (s.vsFault n 7) :=
  next_when (by rw [hbounded, hpoint, decide_eq_true ⟨hpast, hsince, hclock⟩, hswitch]; rfl)

end

/-- Settles O12: an accepted instruction, the two kinds of pass, which take from the stage first, and the bound on cycles without a preemption point. -/
theorem unitCompletion : Obligations.UnitCompletion := by
  intro s n
  exact ⟨fun kind a sync t' => execXIssueAccepted_room, fun op hpass hruns => execPassComplete_streamed hruns hpass,
    fun op hpass hruns => execMvPassComplete_streamed hruns hpass, fun cycles => execPreemptBound_past⟩

/-! The end of a move (R164, R166, R191, R385). -/

section
variable {s : State} {n : Nat} {op : XOp}

/-- What a move brings to the tile's own SRAM is written there. -/
theorem State.moveLand_own (hdst : (moveCmd op.desc).dstVa = false) :
    s.moveLand n op = (s.updTile n (fun t => t.write (moveCmd op.desc).dst op.data), .ready) := by
  simp only [State.moveLand, hdst, Bool.not_false, if_true]

/-- A move that has been carried out and has no remote line open ends once its bytes stand in this chip's memory. -/
theorem execMoveComplete_landed {rest : List XOp} {u : State} (hmoves : (s.tile n).live.moves = op :: rest) (hwritten : op.written = true)
    (hruns : (s.tile n).unitRuns = true) (hclosed : op.id = 0 ∨ s.moveOpen op.id = false) (hland : s.moveLand n op = (u, .ready)) :
    execMoveComplete n s = .next (u.moveEnds n) := by
  simp only [execMoveComplete, hmoves, hland]
  exact next_when (by simpa [hwritten, hruns] using hclosed)

end

/-- Settles O14: a move whose bytes land ends, and into the tile's own SRAM they always land. -/
theorem moveCompletes : Obligations.MoveCompletes := by
  intro s n op rest hmoves hwritten hruns hclosed
  have landed : ∀ u, s.moveLand n op = (u, .ready) → exec (.moveComplete n) s = .next (u.moveEnds n) :=
    fun u hland => execMoveComplete_landed hmoves hwritten hruns hclosed hland
  exact ⟨landed, fun hdst => landed _ (State.moveLand_own hdst)⟩

/-! MOVE, BRANCH, EXIT and ATOMIC nodes, and the completion of a node (R168, R205, R224, R226, R257, R386). -/

section
variable {s : State} {inv node : Nat}

/-- A MOVE node hands its commands to a move unit that has room for them and accepts them. -/
theorem execMoveNode_taken {vt p b : Nat} {l : List (Nat × List (List Byte))} {cmds : List (List Byte)} {u : Tile}
    (hop : (s.node_ inv node).op = .moves l) (hcmds : assoc l vt = some cmds) (harea : s.areaAt inv vt = some (p, b))
    (hready : s.nodeReady inv node 0x0D = true) (hran : (s.inv inv).ran.contains (node, vt) = false)
    (hroom : (s.tile p).live.moves.length + cmds.length ≤ 8)
    (htake : (s.tile p).takeMoves (cmds.map (shiftedMove b)) (s.moveOverlaps p (s.tile p).ctx) = .ok u) :
    execMoveNode inv node vt s = .next (((s.begin_ inv node).setTile p u).ranOn inv node vt) := by
  simp only [execMoveNode, hop, hcmds]
  refine next_when_eq (by rw [hready, hran]; rfl) ?_
  simp only [State.moveNode, harea, htake]
  exact State.when_of _ _ _ (decide_eq_true hroom)

/-- A BRANCH whose predicate can be read decides. -/
theorem execBranch_decides (hfresh : s.nodeFresh inv node 0x0E = true) (hsound : s.predicatePoisoned inv (s.node_ inv node) = false) :
    execBranch inv node s = .next (s.decide_ inv node) :=
  next_when_eq hfresh (if_neg (by simp [hsound]))

/-- An EXIT whose predicate can be read ends the graph where the predicate is not zero. -/
theorem execExit_decides (hfresh : s.nodeFresh inv node 0x0F = true) (hsound : s.predicatePoisoned inv (s.node_ inv node) = false) :
    execExit inv node s = .next (if s.predicate inv (s.node_ inv node) = 0 then s.begin_ inv node
      else (s.begin_ inv node).setInv inv { (s.begin_ inv node).inv inv with exit := node + 1 }) :=
  next_when_eq hfresh (if_neg (by simp [hsound]))

/-- An ATOMIC node whose list lies in SRAM begins to issue it, unless a list of its rank is open. -/
theorem execAtomic_issues {vt addr count p b : Nat} (hop : (s.node_ inv node).op = .atomic vt addr count) (harea : s.areaAt inv vt = some (p, b))
    (hfresh : s.nodeFresh inv node 0x10 = true) (hclosed : Table.has s.fabric.atomics (runKey (s.inv inv).task vt) = false)
    (hsram : inSram (addr + b) (32 * count) = true) :
    let v := s.inv inv
    let run : AtomicRun := { addr := addr + b, count := count, ctx := (s.task v.task).ctx, task := v.task + 1, node := node }
    let s1 := s.begin_ inv node
    execAtomic inv node s = .next
      ((issueEntries 64 { s1 with fabric := { s1.fabric with atomics := Table.insert s1.fabric.atomics (runKey v.task vt) run } } (runKey v.task vt)).noteRemote
        v.task) := by
  simp only [execAtomic, hop]
  refine next_when_eq hfresh ?_
  simp only [State.atomicNode, harea]
  rw [if_neg (by simp [hsram]), State.when_of _ _ _ (by rw [hclosed]; rfl)]

/-- A node without a checkpoint whose work is done is measured from its start and completed. -/
theorem execNodeComplete_done {at0 : Nat} (hinv : s.hasInv inv = true) (hplaced : s.invPlaced inv = true) (hbegun : (s.inv inv).hasBegun node = true)
    (hopen : (s.inv inv).done.contains node = false) (hidle : s.nodeBusy inv node = false) (hpoint : (s.node_ inv node).checkpoint = 0)
    (hstart : (s.inv inv).begun.find? (fun e => e.1 == node) = some (node, at0)) :
    let v := s.inv inv
    let r := s.node_ inv node
    let s0 : State := match r.op with
      | .atomic vt _ _ => { s with fabric := { s.fabric with atomics := Table.erase s.fabric.atomics (runKey v.task vt) } }
      | _ => s
    execNodeComplete inv node s = .next (((s0.measureNode v.serving node (nsOfTicks (s.time.ticks - at0))).setInv inv
      { v with done := node :: v.done, stateWritten := v.stateWritten || r.writesState }).fallBack inv) := by
  refine next_when_eq (by rw [hinv, hplaced, hbegun, hopen, hidle]; rfl) ?_
  rw [hstart]
  exact congrArg (State.fallBack · inv) (if_pos (Or.inl hpoint))

end

/-- Settles O23: each node's conditions hold, and its effect follows. -/
theorem graphNodes : Obligations.GraphNodes := by
  intro s inv node
  exact ⟨fun vt l cmds p b u => execMoveNode_taken, execBranch_decides, execExit_decides,
    fun vt addr count p b hop harea => execAtomic_issues hop harea, fun at0 => execNodeComplete_done⟩

/-! A wake during the entry (R58, R173, R175). -/

/-- A wake that starts while the tile is still entering its state, with its cluster's PLL locked, begins when the entry completes. -/
theorem State.startWake_entering {s : State} {p : Nat} (hsleep : 1 < (s.tile p).sleep) (hwake : (s.tile p).wakeAt = 0)
    (hentering : s.time.ticks ≤ (s.tile p).asleepAt) (hpll : s.pllOn (clusterOf p) = true) (hlocked : Table.get 0 s.plls (clusterOf p) ≤ s.time.ticks) :
    s.startWake p = s.setTile p { s.tile p with wakeAt := (s.tile p).asleepAt + ticksOf (sleepTimes (s.tile p).sleep).2 + 1 } := by
  have hstart : max (max s.time.ticks (s.tile p).asleepAt) (Table.get 0 s.plls (clusterOf p)) = (s.tile p).asleepAt := by omega
  rw [State.startWake, if_neg (by omega)]
  simp only [hpll, if_true, hstart]

/-- The launch unit starts the one tile of a registered task at the target less the wake lead. -/
theorem execWakeLeadStart_single {s : State} {n p : Nat} (hn : s.hasTask n = true) (hreg : (s.task n).status = .registered)
    (htiles : s.taskTiles (s.task n) = [p]) (htarget : (s.task n).target ≤ s.lnc + s.wakeLead [p]) :
    execWakeLeadStart n s = .next (s.startWake p) := by
  simp only [execWakeLeadStart, htiles]
  exact next_when (by rw [hn, hreg, decide_eq_true htarget]; rfl)

/-- The tile that a wake which has run its time leaves (R175, R176): at T1, from T4 with SRAM that reads zero, no word of it poisoned. -/
def Tile.woken (t : Tile) : Tile :=
  { t with sleep := 1, wakeAt := 0, asleepAt := 0, mem := if t.sleep = 4 then [] else t.mem, poison := if t.sleep = 4 then [] else t.poison }

@[simp] theorem Tile.woken_sleep (t : Tile) : t.woken.sleep = 1 := rfl

/-- A wake whose time is up completes. -/
theorem execTileWakeComplete_woken {s : State} {n at' : Nat} (hwake : (s.tile n).wakeAt = at' + 1) (hdue : at' ≤ s.time.ticks) :
    execTileWakeComplete n s = .next (s.setTile n (s.tile n).woken) :=
  next_when (decide_eq_true (by omega))

/-- A wake does not complete before its time is up. -/
theorem execTileWakeComplete_early {s : State} {n at' : Nat} (hwake : (s.tile n).wakeAt = at' + 1) (hearly : s.time.ticks < at') :
    execTileWakeComplete n s = .next s := by
  have hguard : ¬((s.tile n).wakeAt ≠ 0 ∧ (s.tile n).wakeAt - 1 ≤ s.time.ticks) := by omega
  exact congrArg _ (State.when_not s _ _ (decide_eq_false hguard))

/-- Settles O56: the wake is counted from the end of the entry, and nothing but the passing of its time completes it. -/
theorem wakeDuringEntry : Obligations.WakeDuringEntry := by
  intro s n p depth full hstate t wakes waking hsleep hwake hentering hpll hlocked hn hreg htiles htarget
  have hdeep : 1 < depth ∧ (sleepTimes depth).2 = full := by
    simp only [List.mem_cons, Prod.mk.injEq, List.not_mem_nil, or_false] at hstate
    obtain ⟨rfl, rfl⟩ | ⟨rfl, rfl⟩ | ⟨rfl, rfl⟩ := hstate <;> decide
  obtain ⟨hdepth, hfull⟩ := hdeep
  have hstart : s.startWake p = s.setTile p waking := by
    rw [State.startWake_entering (lt_of_lt_of_eq hdepth hsleep.symm) hwake hentering.le hpll hlocked, hsleep, hfull]
    rfl
  refine ⟨(execWakeLeadStart_single hn hreg htiles htarget).trans (congrArg _ hstart), fun u hu => ?wakes⟩
  have hwakes : (u.tile p).wakeAt = wakes + 1 := by rw [hu]
  have hwoken : (u.tile p).woken = { t with
      sleep := 1, wakeAt := 0, asleepAt := 0, mem := if depth = 4 then [] else t.mem, poison := if depth = 4 then [] else t.poison } := by
    rw [hu, ← hsleep]
    rfl
  exact ⟨execTileWakeComplete_early hwakes, fun hdue => hwoken ▸ execTileWakeComplete_woken hwakes hdue⟩

/-! SRAM and patrol scrub across a sleep (R173, R176). -/

/-- The tile that enters a state deeper than T1, until tick `done` (R174): at T4 without its SRAM. -/
def Tile.fallAsleep (t : Tile) (depth done : Nat) : Tile :=
  let deep := { t with sleep := depth, asleepAt := done }
  if depth = 4 then { deep with mem := [], poison := [], code := [] } else deep

@[simp] theorem Tile.fallAsleep_sleep (t : Tile) (depth done : Nat) : (t.fallAsleep depth done).sleep = depth := by
  rw [Tile.fallAsleep]
  split <;> rfl

/-- Above T4 the SRAM stays as it was. -/
theorem Tile.fallAsleep_sram (t : Tile) {depth : Nat} (done : Nat) (h : depth ≠ 4) :
    (t.fallAsleep depth done).mem = t.mem ∧ (t.fallAsleep depth done).poison = t.poison := by
  rw [Tile.fallAsleep, if_neg h]
  exact ⟨rfl, rfl⟩

/-- From T4 a tile wakes with SRAM that reads zero. -/
theorem Tile.woken_sram_cleared {t : Tile} (h : t.sleep = 4) : (∀ addr, t.woken.byte addr = 0) ∧ t.woken.poison = [] := by
  have hmem : t.woken.mem = [] := if_pos h
  exact ⟨fun addr => by rw [Tile.byte, hmem]; rfl, if_pos h⟩

/-- From another state a tile wakes with its SRAM. -/
theorem Tile.woken_sram_kept {t : Tile} (h : t.sleep ≠ 4) : t.woken.mem = t.mem ∧ t.woken.poison = t.poison := ⟨if_neg h, if_neg h⟩

/-- No scrub acts on a tile in T3 or T4. -/
theorem execPatrolScrub_asleep {s : State} {tile : Nat} (word kind : Nat) (hsleep : 3 ≤ (s.tile tile).sleep) :
    execPatrolScrub false tile word kind s = .next s := by
  have hguard : ¬(tile < 512 ∧ word < 8388608 ∧ (s.tile tile).sleep < 3) := by omega
  exact congrArg _ (State.when_not s _ _ (decide_eq_false hguard))

/-- A word of a tile that is not in T3 or T4 with an error that stays after the write-back retires the tile. -/
theorem execPatrolScrub_persistent {s : State} {tile word : Nat} (htile : tile < 512) (hword : word < 8388608) (hsleep : (s.tile tile).sleep < 3) :
    execPatrolScrub false tile word 2 s = .next (s.retireTile tile 1) :=
  next_when (patrolScrub_tile_guard htile hword hsleep)

/-- Settles O57: the entry loses the SRAM at T4 alone, the wake clears it from T4 alone, and a scrub acts by the sleep state. -/
theorem sramAcrossSleep : Obligations.SramAcrossSleep := by
  intro s n depth t hdeeper htask hswitch hwake hn hlive hahead hradio hpages hdepth
  have hentry : exec (.tileSleepEntry n depth) s = .next (s.setTile n (t.fallAsleep depth (s.time.ticks + ticksOf (sleepTimes depth).1))) :=
    execTileSleepEntry_deeper hdeeper (by omega) htask hswitch hwake hn hlive hahead hpages (by simp [hradio])
  generalize hasleep : t.fallAsleep depth (s.time.ticks + ticksOf (sleepTimes depth).1) = asleep at hentry
  have hsleep : asleep.sleep = depth := by rw [← hasleep, Tile.fallAsleep_sleep]
  refine ⟨asleep, hentry, hsleep, fun a word kind ha => execPatrolScrub_asleep word kind ha.ge, fun u at' hu hdue => ⟨asleep.woken, ?wakes, asleep.woken_sleep, ?t4, ?t3,
    fun b word hb hword => execPatrolScrub_persistent hn hword (by simp [hb])⟩⟩
  case wakes => exact (execTileWakeComplete_woken (by rw [hu]) hdue).trans (by rw [hu]; rfl)
  case t4 => exact fun h4 => Tile.woken_sram_cleared (hsleep.trans h4)
  case t3 =>
    intro h3
    have hne : depth ≠ 4 := by omega
    obtain ⟨hmem, hpoison⟩ := t.fallAsleep_sram (s.time.ticks + ticksOf (sleepTimes depth).1) hne
    obtain ⟨hmem', hpoison'⟩ := Tile.woken_sram_kept (t := asleep) (hsleep.trans_ne hne)
    rw [hasleep] at hmem hpoison
    exact ⟨fun addr => by rw [Tile.byte, hmem', hmem]; rfl, hpoison'.trans hpoison⟩

end Sys2Proof.Machine

/-! PROOFS. The statements of the family 06_tile_sequencer.md: results and frames of the sequencer's instructions, branches and repeats, loads and
stores, illegal words, the issue to the units, and kernels and tasks. -/

namespace Sys2Proof.Machine

/-! Instructions that run, and those that change registers alone (R177, R180, R181, R183, R188, R200). -/

section
variable {s : State} {n : Nat} {row : Instr} {i : VsCode}

/-- A row that runs an operation which succeeds sets its tile alone. -/
theorem exec_vsRun {op : Tile → Except Nat Tile} {t' : Tile} (hrow : exec row s = .next (vsRun s n i op)) (hruns : s.vsRuns n i)
    (hop : op (s.tile n) = .ok t') : exec row s = .next (s.setTile n t') := by
  rw [hrow, vsRun_ok s n i op t' hruns hop]

/-- A row that changes registers and retires, with its result written in another way. -/
theorem exec_vsRegs_eq {g g' : Vs → Vs} (hrow : exec row s = .next (vsRun s n i (vsRegs g))) (hg : ∀ x, g x = g' x) (hruns : s.vsRuns n i) :
    exec row s = .next (s.vsAfter n g') :=
  funext hg ▸ exec_vsRegs hrow hruns

end

/-- Settles O1: every row is `vsRegs` of its result. -/
theorem scalarResults : Obligations.ScalarResults := by
  intro s n f
  refine ⟨exec_vsRegs rfl, exec_vsRegs rfl, exec_vsRegs rfl, exec_vsRegs rfl, exec_vsRegs rfl, exec_vsRegs rfl, exec_vsRegs rfl, exec_vsRegs rfl,
    exec_vsRegs_eq rfl fun x => ?slt, exec_vsRegs rfl, exec_vsRegs rfl, exec_vsRegs rfl, exec_vsRegs rfl⟩
  case slt => simp only [BitVec.slt_iff_toInt_lt]

/-- ASET by the kind of register that RD names. -/
theorem vsAset_eq (f : MFields) (x : Vs) :
    vsAset f x =
      let v := x.getS (f.imm32 % 16)
      let i := f.rd % 8
      if f.rd / 8 % 4 = 0 then x.setP i (v.setWidth 32) else if f.rd / 8 % 4 = 1 then x.setQ i (v.setWidth 16)
      else if f.rd / 8 % 4 = 2 then x.setB i (v.setWidth 32) else x.setN i (v.setWidth 16) := by
  rw [vsAset]
  obtain _ | _ | _ | kind := f.rd / 8 % 4 <;> rfl

/-- AGET by the kind of register that RD names. -/
theorem vsAget_eq (f : MFields) (x : Vs) :
    vsAget f x =
      let i := f.rd % 8
      x.setS (f.imm32 % 16) (if f.rd / 8 % 4 = 0 then (x.getP i).setWidth 64 else if f.rd / 8 % 4 = 1 then (x.getQ i).setWidth 64
        else if f.rd / 8 % 4 = 2 then (x.getB i).setWidth 64 else (x.getN i).setWidth 64) := by
  rw [vsAget]
  obtain _ | _ | _ | kind := f.rd / 8 % 4 <;> rfl

/-- Settles O2: every row is `vsRegs` of its result. -/
theorem immediateResults : Obligations.ImmediateResults := by
  intro s n f
  exact ⟨exec_vsRegs rfl, exec_vsRegs rfl, exec_vsRegs_eq rfl (vsAset_eq f), exec_vsRegs_eq rfl (vsAget_eq f), exec_vsRegs rfl⟩

/-- Settles O3: every row is `vsRegs` of its lane operation. -/
theorem vectorResults : Obligations.VectorResults := by
  intro s n f
  exact ⟨exec_vsRegs rfl, exec_vsRegs rfl, exec_vsRegs rfl, exec_vsRegs rfl, exec_vsRegs rfl, exec_vsRegs rfl, exec_vsRegs rfl, exec_vsRegs rfl,
    exec_vsRegs rfl, exec_vsRegs rfl, exec_vsRegs rfl, exec_vsRegs rfl, exec_vsRegs rfl, exec_vsRegs rfl, exec_vsRegs rfl, exec_vsRegs rfl,
    exec_vsRegs rfl, exec_vsRegs rfl, exec_vsRegs rfl⟩

/-! Branches, repeats and HALT (R192, R193). -/

/-- Outside delay slots and repeats a control instruction acts. -/
theorem vsControl_outside {t : Tile} (g : Tile → Tile) (hslots : t.live.vs.slots = 0) (hloops : t.live.vs.loops = []) : vsControl g t = .ok (g t) := by
  simp [vsControl, hslots, hloops]

/-- Outside delay slots and repeats a repeat with a count opens the one loop. -/
theorem vsRepeatOp_outermost {t : Tile} {count : Nat} (body : Nat) (yield : Bool) (hslots : t.live.vs.slots = 0) (hloops : t.live.vs.loops = [])
    (hcount : count ≠ 0) :
    vsRepeatOp body count yield t = .ok { t with
      live := { t.live with vs := { t.live.vs with pc := t.live.vs.pc + 1, loops := [⟨t.live.vs.pc + 1, body, count - 1, yield⟩] } }
      atPoint := false, sincePoint := t.sincePoint + 1 } := by
  simp [vsRepeatOp, hslots, hloops, hcount]

/-- HALT of a rank that has no X operation left ends the rank. -/
theorem execHalt_idle {s : State} {n : Nat} {f : CFields} (hruns : s.vsRuns n (cCode 0x3F f)) (hslots : (s.tile n).live.vs.slots = 0)
    (hloops : (s.tile n).live.vs.loops = []) (hpass : (s.tile n).live.pass = none) (hmv : (s.tile n).live.mv = none)
    (hmoves : (s.tile n).live.moves = []) :
    execHalt n f s = .next ((s.setTile n ((s.tile n).pause .halted)).rankEnd n) := by
  have hidle : vsHalt (s.tile n) = (s.tile n).pause .halted := by simp [vsHalt, hpass, hmv, hmoves]
  have hop : vsControl vsHalt (s.tile n) = .ok ((s.tile n).pause .halted) := by rw [vsControl_outside vsHalt hslots hloops, hidle]
  obtain ⟨⟨hready, hfetch, -, -⟩, -⟩ := id hruns
  rw [execHalt, hready, hfetch, Bool.and_self, if_pos rfl, vsRun_ok s n _ _ _ hruns hop]

/-- Settles O5: outside delay slots and repeats each row acts. -/
theorem controlResults : Obligations.ControlResults := by
  intro s n f hslots hloops x rel go
  have control : ∀ {row : Instr} {i : VsCode} {g : Tile → Tile} {t' : Tile}, exec row s = .next (vsRun s n i (vsControl g)) → g (s.tile n) = t' →
      s.vsRuns n i → exec row s = .next (s.setTile n t') :=
    fun hrow ht hruns => ht ▸ exec_vsRun hrow hruns (vsControl_outside _ hslots hloops)
  exact ⟨control rfl rfl, control rfl rfl, control rfl rfl, control rfl rfl, control rfl rfl, control rfl rfl,
    fun hruns hcount => ⟨_, exec_vsRun rfl hruns (vsRepeatOp_outermost (f.body + 1) f.yield hslots hloops hcount), rfl⟩,
    fun hruns hcount => ⟨_, exec_vsRun rfl hruns (vsRepeatOp_outermost (f.body + 1) f.yield hslots hloops hcount), rfl⟩,
    fun hruns => execHalt_idle hruns hslots hloops⟩

/-- An ended iteration of a loop that has iterations left starts again. -/
theorem loopNext_again {l : Loop} (r : List Loop) (hleft : l.left ≠ 0) :
    loopNext (l :: r) (l.start + l.len) = ({ l with left := l.left - 1 } :: r, l.start, true) := by
  rw [loopNext, if_pos rfl, if_neg hleft]

/-- After its last iteration a loop ends, and the loop around it decides. -/
theorem loopNext_done {l : Loop} (r : List Loop) (hleft : l.left = 0) : loopNext (l :: r) (l.start + l.len) = loopNext r (l.start + l.len) := by
  rw [loopNext, if_pos rfl, if_pos hleft]

/-- After the last delay slot outside loops execution goes on at the target. -/
theorem Tile.retire_lastSlot {t : Tile} (hslots : t.live.vs.slots = 1) (hloops : t.live.vs.loops = []) :
    t.retire.live.vs.pc = t.live.vs.slotTarget ∧ t.retire.live.vs.slots = 0 := by
  rw [Tile.retire, if_neg (by omega), if_pos hslots, Tile.goTo, hloops]
  exact ⟨rfl, rfl⟩

/-- Settles O6: the retirement by the delay slots that are left, and the end of an iteration by the iterations that are left. -/
theorem delaySlotsAndLoops : Obligations.DelaySlotsAndLoops := by
  intro t target hloops b
  obtain ⟨hpc, hslots⟩ := Tile.retire_lastSlot (t := b) rfl hloops
  exact ⟨rfl, rfl, hpc, hslots, fun l => loopNext_again, fun l => loopNext_done⟩

/-! Loads and stores (R183, R185). -/

/-- What an access does to the address registers: nothing, its pointer, or in the row mode its row start and pointer. -/
theorem accessUpdate_cases (x : Vs) (f : MFields) :
    accessUpdate x f = x ∨ (∃ p, accessUpdate x f = x.setP (f.pk % 8) p) ∨
      (f.amode = 4 ∧ ∃ p b, accessUpdate x f = (x.setB (f.pk % 8) b).setP (f.pk % 8) p) := by
  rw [accessUpdate]
  dsimp only
  split
  case isTrue => exact .inl rfl
  case isFalse =>
    split
    case h_1 => exact .inl rfl
    case h_2 => exact .inr (.inl ⟨_, rfl⟩)
    case h_3 => exact .inr (.inl ⟨_, rfl⟩)
    case h_4 hrow =>
      split
      · exact .inr (.inr ⟨hrow, _, _, rfl⟩)
      · exact .inr (.inl ⟨_, rfl⟩)
    case h_5 => exact .inr (.inl ⟨_, rfl⟩)

theorem Vs.getS_setS_ne (x : Vs) {i j : Nat} (v : Word64) (hj : j % 16 ≠ i % 16) : (x.setS i v).getS j = x.getS j := Table.get_put_ne 0 0 x.s _ _ v hj
theorem Vs.getP_setP_ne (x : Vs) {i j : Nat} (v : Word32) (hj : j % 8 ≠ i % 8) : (x.setP i v).getP j = x.getP j := Table.get_put_ne 0 0 x.p _ _ v hj
theorem Vs.getB_setB_ne (x : Vs) {i j : Nat} (v : Word32) (hj : j % 8 ≠ i % 8) : (x.setB i v).getB j = x.getB j := Table.get_put_ne 0 0 x.b _ _ v hj

/-- An access leaves the registers that are no address registers, the flags, and the registers Q and N. -/
theorem accessUpdate_keeps (x : Vs) (f : MFields) :
    (accessUpdate x f).v = x.v ∧ (accessUpdate x f).a = x.a ∧ (accessUpdate x f).s = x.s ∧ (accessUpdate x f).invalid = x.invalid ∧
      (accessUpdate x f).saturated = x.saturated ∧ (accessUpdate x f).q = x.q ∧ (accessUpdate x f).n = x.n := by
  obtain h | ⟨p, h⟩ | ⟨-, p, b, h⟩ := accessUpdate_cases x f <;> rw [h] <;> exact ⟨rfl, rfl, rfl, rfl, rfl, rfl, rfl⟩

/-- An access leaves the pointers and row starts but its own. -/
theorem accessUpdate_getP_getB_ne (x : Vs) (f : MFields) {j : Nat} (hj : j % 8 ≠ f.pk % 8) :
    (accessUpdate x f).getP j = x.getP j ∧ (accessUpdate x f).getB j = x.getB j := by
  have hj' : j % 8 ≠ f.pk % 8 % 8 := by omega
  obtain h | ⟨p, h⟩ | ⟨-, p, b, h⟩ := accessUpdate_cases x f <;> rw [h]
  · exact ⟨rfl, rfl⟩
  · exact ⟨Vs.getP_setP_ne x p hj', rfl⟩
  · exact ⟨Vs.getP_setP_ne _ p hj', Vs.getB_setB_ne x b hj'⟩

/-- Outside the row mode an access leaves every row start. -/
theorem accessUpdate_b (x : Vs) {f : MFields} (hrow : f.amode ≠ 4) : (accessUpdate x f).b = x.b := by
  obtain h | ⟨p, h⟩ | ⟨h, -⟩ := accessUpdate_cases x f
  · rw [h]
  · rw [h]; rfl
  · exact absurd h hrow

/-- A byte at none of the listed addresses stays. -/
theorem Tile.byte_scatter_ne (t : Tile) (w : List (Nat × Byte)) {a : Nat} (ha : ∀ e ∈ w, a ≠ e.1) : (t.scatter w).byte a = t.byte a := by
  rw [Tile.byte, Tile.byte, Tile.scatter]
  dsimp only
  generalize t.mem = m
  induction w generalizing m with
  | nil => rfl
  | cons e w ih =>
    obtain ⟨he, hw⟩ := List.forall_mem_cons.mp ha
    rw [List.foldl_cons, ih hw, Table.get_put_ne _ _ _ _ _ _ he]

/-- The tile after a store of `bs` at the addresses `l`, retired. -/
def Tile.stored (t : Tile) (f : MFields) (l : List Nat) (bs : List Byte) : Tile :=
  ({ t.scatter (l.zip bs) with live := { t.live with vs := accessUpdate t.live.vs f } } : Tile).retire

/-- A store whose addresses are its context's writes there and retires. -/
theorem vsStore_ok {t : Tile} {f : MFields} {size : Nat} {l : List Nat} (hl : checkedAddrs t t.ctx f size = .ok l) (v : Vs → Nat) :
    vsStore f size v t = .ok (t.stored f l (bytesOf size (v t.live.vs))) := by
  simp only [vsStore, hl]
  rfl

/-- A store's memory is that of its writes. -/
theorem Tile.stored_mem (t : Tile) (f : MFields) (l : List Nat) (bs : List Byte) : (t.stored f l bs).mem = (t.scatter (l.zip bs)).mem := by
  obtain ⟨hmem, -⟩ := Tile.retire_keeps ({ t.scatter (l.zip bs) with live := { t.live with vs := accessUpdate t.live.vs f } } : Tile)
  exact hmem

/-- A store leaves the bytes outside its addresses. -/
theorem Tile.byte_stored_ne (t : Tile) (f : MFields) {l : List Nat} (bs : List Byte) {a : Nat} (ha : a ∉ l) : (t.stored f l bs).byte a = t.byte a := by
  rw [Tile.byte, Tile.stored_mem, ← Tile.byte]
  exact Tile.byte_scatter_ne t _ fun e he heq => ha (heq ▸ (List.of_mem_zip he).1)

/-- What a store of addresses `l` under the operand `f` leaves of its tile `t`, of which it makes `T` (R185). -/
structure StoreKeeps (f : MFields) (l : List Nat) (t T : Tile) : Prop where
  byte : ∀ a, a ∉ l → T.byte a = t.byte a
  regs : T.live.vs.v = t.live.vs.v ∧ T.live.vs.a = t.live.vs.a ∧ T.live.vs.s = t.live.vs.s ∧ T.live.vs.invalid = t.live.vs.invalid ∧
    T.live.vs.saturated = t.live.vs.saturated ∧ T.live.vs.q = t.live.vs.q ∧ T.live.vs.n = t.live.vs.n
  others : ∀ j, j % 8 ≠ f.pk % 8 → T.live.vs.getP j = t.live.vs.getP j ∧ T.live.vs.getB j = t.live.vs.getB j
  rows : f.amode ≠ 4 → T.live.vs.b = t.live.vs.b

/-- The frame of a store: those of its writes, of the update of its address registers and of its retirement. -/
theorem Tile.stored_keeps (t : Tile) (f : MFields) (l : List Nat) (bs : List Byte) : StoreKeeps f l t (t.stored f l bs) := by
  obtain ⟨-, hv, ha, hs, hp, hq, hb, hn, hi, hsat⟩ :=
    Tile.retire_keeps ({ t.scatter (l.zip bs) with live := { t.live with vs := accessUpdate t.live.vs f } } : Tile)
  obtain ⟨uv, ua, us, ui, usat, uq, un⟩ := accessUpdate_keeps t.live.vs f
  refine ⟨fun a => Tile.byte_stored_ne t f bs, ⟨hv.trans uv, ha.trans ua, hs.trans us, hi.trans ui, hsat.trans usat, hq.trans uq, hn.trans un⟩,
    fun j hj => ?_, fun hrow => hb.trans (accessUpdate_b t.live.vs hrow)⟩
  obtain ⟨hPj, hBj⟩ := accessUpdate_getP_getB_ne t.live.vs f hj
  exact ⟨(congrArg (Table.get 0 · (j % 8)) hp).trans hPj, (congrArg (Table.get 0 · (j % 8)) hb).trans hBj⟩

section
variable {s : State} {n : Nat} {f : MFields} {l : List Nat} {row : Instr} {i : VsCode} {size : Nat} (hruns : s.vsRuns n i)
  (hl : checkedAddrs (s.tile n) (s.tile n).ctx f size = .ok l)
include hruns hl

/-- A row that is a store leaves the stored tile. -/
theorem exec_vsStore {v : Vs → Nat} (hrow : exec row s = .next (vsRun s n i (vsStore f size v))) :
    exec row s = .next (s.setTile n ((s.tile n).stored f l (bytesOf size (v (s.tile n).live.vs)))) :=
  exec_vsRun hrow hruns (vsStore_ok hl v)

/-- A row that is a load of sound bytes reads them into the registers and retires. -/
theorem exec_vsLoadRun {g : Vs → Nat → Vs} (hsound : ∀ a ∈ l, a / 8 ∉ (s.tile n).poison)
    (hrow : exec row s = .next (vsLoadRun s n i f size g)) :
    exec row s = .next (s.vsAfter n (fun x => accessUpdate (g x (natOf (l.map (s.tile n).byte))) f)) := by
  have hclean : l.any (fun a => (s.tile n).poison.contains (a / 8)) = false := by simpa using hsound
  have hload : vsLoad f size g (s.tile n) =
      .ok ({ s.tile n with live := { (s.tile n).live with vs := accessUpdate (g (s.tile n).live.vs (natOf (l.map (s.tile n).byte))) f } } : Tile).retire := by
    simp only [vsLoad, hl]
  rw [hrow, vsLoadRun]
  simp only [hl, hclean, Bool.and_false, Bool.false_eq_true, if_false, vsRun_ok s n i _ _ hruns hload, State.vsAfter]

end

/-- Settles O7: a load reads and a store writes at its checked addresses. -/
theorem memoryAccess : Obligations.MemoryAccess := by
  intro s n f t
  exact ⟨fun l hruns hl hsound => exec_vsLoadRun (g := fun x v => x.setV f.rd (BitVec.ofNat 1024 v)) hruns hl hsound rfl,
    fun l hruns hl hsound => exec_vsLoadRun (g := fun x v => x.setS f.rd (BitVec.ofNat 64 v)) hruns hl hsound rfl,
    fun l hruns hl => ⟨_, exec_vsStore hruns hl rfl, _, rfl, Tile.stored_mem t f l _⟩,
    fun l hruns hl => ⟨_, exec_vsStore hruns hl rfl, _, rfl, Tile.stored_mem t f l _⟩⟩

/-- Settles O8: the two stores leave what `StoreKeeps` says. -/
theorem storeFrame : Obligations.StoreFrame := by
  intro s n f l t keeps
  have framed : ∀ {row : Instr} {bs : List Byte}, exec row s = .next (s.setTile n (t.stored f l bs)) → keeps row := by
    intro row bs hrow
    obtain ⟨hbyte, ⟨hv, ha, hs, hinvalid, hsaturated, hq, hn⟩, hothers, hrows⟩ := Tile.stored_keeps t f l bs
    exact ⟨_, hrow, _, rfl, hbyte, hv, ha, hs, hinvalid, hsaturated, hq, hn, hothers, hrows⟩
  exact ⟨fun hruns hl => framed (exec_vsStore hruns hl rfl), fun hruns hl => framed (exec_vsStore hruns hl rfl)⟩

/-- Settles O9: a row of O1 writes one scalar register and retires. -/
theorem scalarFrame : Obligations.ScalarFrame := by
  intro s n f t keeps
  have framed : ∀ {row : Instr} {g : Vs → Word64}, exec row s = .next (s.vsAfter n (fun x => x.setS f.sd (g x))) → keeps row := by
    intro row g hrow
    obtain ⟨hmem, hv, ha, hs, hp, hq, hb, hn, hinvalid, hsaturated⟩ :=
      Tile.retire_keeps ({ t with live := { t.live with vs := t.live.vs.setS f.sd (g t.live.vs) } } : Tile)
    exact ⟨_, hrow, _, rfl, hmem, hv, ha, hp, hq, hb, hn, hinvalid, hsaturated,
      fun j hj => (congrArg (Table.get 0 · (j % 16)) hs).trans (Vs.getS_setS_ne t.live.vs (g t.live.vs) hj)⟩
  obtain ⟨hadd, hsub, hmul, hand, hor, hxor, hshl, hsra, hslt, haddi, hflg, hlnc, hcyc⟩ := scalarResults s n f
  exact ⟨framed ∘ hadd, framed ∘ hsub, framed ∘ hmul, framed ∘ hand, framed ∘ hor, framed ∘ hxor, framed ∘ hshl, framed ∘ hsra, framed ∘ hslt,
    framed ∘ haddi, framed ∘ hflg, framed ∘ hlnc, framed ∘ hcyc⟩

/-! Illegal words (R186, R198). -/

/-- Freeing tiles leaves the tasks. -/
@[simp] theorem State.freeTiles_tasks (s : State) (n : Nat) (tiles : List Nat) : (s.freeTiles n tiles).tasks = s.tasks := by
  rw [State.freeTiles]
  induction tiles generalizing s with
  | nil => rfl
  | cons p tiles ih =>
    rw [List.foldl_cons, ih]
    split
    · exact State.updTile_tasks s p Tile.freed
    · rfl

/-- The task that a fault of tile `n`'s sequencer ends has its code as FAULT and the program counter as INFO. -/
theorem State.vsFault_task (s : State) (n code : Nat) :
    let k := (s.vsFault n code).task ((s.tile n).task - 1)
    k.fault = code ∧ k.status = .ended ∧ k.info = (s.tile n).live.vs.pc := by
  simp only [State.vsFault]
  rw [State.task, State.freeTiles_tasks, ← State.task, State.task_setTask_self]
  exact ⟨rfl, rfl, rfl⟩

/-- Settles O10: an illegal word of any row that `vsRun` runs faults with 1. -/
theorem illegalWords : Obligations.IllegalWords := by
  intro s n hready _ ends
  have illegal : ∀ {row : Instr} {i : VsCode} {op : Tile → Except Nat Tile}, exec row s = .next (vsRun s n i op) → s.fetches n i = true →
      i.legal = false → ends row := by
    intro row i op hrow hfetch hlegal
    obtain ⟨hfault, hended, hinfo⟩ := s.vsFault_task n 1
    exact ⟨s.vsFault n 1, by rw [hrow, vsRun_illegal s n i op hready hfetch hlegal], hfault, hended, hinfo⟩
  exact ⟨fun f => illegal rfl, fun f => illegal rfl, fun f => illegal rfl, fun f => illegal rfl, fun f => illegal rfl⟩

/-! Issue to the units (R189, R190). The address of a descriptor is taken modulo 2³² (log entry 152). -/

section
variable {t : Tile} {kind : Nat} {f : XFields} (tick : Nat) (meets : MoveCmd → Bool)
  (haligned : (((t.live.vs.getP f.pk).toNat + f.imm32) % 2 ^ 32) % (if kind = 2 then 32 else 64) = 0)
  (howned : t.ownsRange t.ctx (((t.live.vs.getP f.pk).toNat + f.imm32) % 2 ^ 32) (if kind = 2 then 32 else 64) = true)
include haligned howned

/-- An X instruction whose unit has room and starts its operation retires. -/
theorem vsIssue_room {t' : Tile} (hfree : t.unitFree kind = true)
    (hstart : t.start kind (((t.live.vs.getP f.pk).toNat + f.imm32) % 2 ^ 32) (f.sync % 8) tick meets = .ok t') :
    vsIssue kind f tick meets t = .ok t'.retire := by
  simp only [Nat.reducePow] at haligned howned hstart
  simp only [vsIssue]
  rw [if_neg (not_not_intro haligned), if_neg (by simp [howned]), if_neg (by simp [hfree]), hstart]

/-- An X instruction whose unit is busy waits for it. -/
theorem vsIssue_busy (hbusy : t.unitFree kind = false) :
    vsIssue kind f tick meets t = .ok (t.pause (.unit kind (((t.live.vs.getP f.pk).toNat + f.imm32) % 2 ^ 32) (f.sync % 8))) := by
  simp only [Nat.reducePow] at haligned howned ⊢
  simp only [vsIssue]
  rw [if_neg (not_not_intro haligned), if_neg (by simp [howned]), if_pos (by simp [hbusy])]

end

/-- XWAIT clears the channels that it waits for, once all are signalled, and retires. -/
theorem vsWaitOp_signalled {t : Tile} {mask : Nat} (h : t.live.channels &&& mask = mask) :
    vsWaitOp mask t = .ok ({ t with live := t.live.clear mask, wait := .none } : Tile).retire :=
  if_pos (beq_iff_eq.mpr h)

/-- XWAIT waits while a channel of its mask is not signalled. -/
theorem vsWaitOp_waits {t : Tile} {mask : Nat} (h : t.live.channels &&& mask ≠ mask) : vsWaitOp mask t = .ok (t.pause (.channels mask)) :=
  if_neg fun hsignalled => h (beq_iff_eq.mp hsignalled)

/-- Settles O11: an X instruction by the room of its unit, XWAIT by its channels. -/
theorem unitIssue : Obligations.UnitIssue := by
  intro s n f t a ready
  refine ⟨fun t' hruns ⟨haligned, howned⟩ hfree hstart => ?pass, fun t' hruns ⟨haligned, howned⟩ hfree hstart => ?mv,
    fun t' hruns ⟨haligned, howned⟩ hfree hstart => ?move, fun hruns ⟨haligned, howned⟩ hbusy => ?busy,
    fun hruns hsignalled => exec_vsRun rfl hruns (vsWaitOp_signalled hsignalled), fun hruns hopen => exec_vsRun rfl hruns (vsWaitOp_waits hopen)⟩
  case pass => exact exec_vsRun rfl hruns (vsIssue_room _ _ haligned howned (Option.isNone_iff_eq_none.mpr hfree) hstart)
  case mv => exact exec_vsRun rfl hruns (vsIssue_room _ _ haligned howned (Option.isNone_iff_eq_none.mpr hfree) hstart)
  case move => exact exec_vsRun rfl hruns (vsIssue_room _ _ haligned howned (decide_eq_true hfree) hstart)
  case busy => exact exec_vsRun rfl hruns (vsIssue_busy _ _ haligned howned (Bool.eq_false_iff.mpr fun h => hbusy (Option.isNone_iff_eq_none.mp h)))

/-! Kernels (R202, R203, R442), tasks (R443) and their end (R416, R448). -/

section
variable {s : State} {f r : Nat} {d : Desc} {x : Slot64} (hadm : s.admits f r d x [1, 2])
include hadm

/-- A package that can be read and passes R202 is measured and gets the lowest free handle (log entry 23). -/
theorem execKernelLoad_valid {package bs : List Byte} {p : List Nat × List Nat × Bool} (hop : isOp 0x06 x = true)
    (hbs : (s.takeDesc f r).vaRead d.context (mapBits x 447 384) (mapBits x 511 480) package = .ok (bs, false))
    (hp : checkPackage bs bs.length ((s.takeDesc f r).reg Reg.determinismMode == 1) = .ok p) (hroom : (s.takeDesc f r).measured d.func < 256) :
    let u := s.takeDesc f r
    let k : Kernel := { func := d.func, borrowable := p.2.2, entries := p.1, code := p.2.1 }
    execKernelLoad f r package s = .next ((({ u with kernels := Table.insert u.kernels u.freeHandle k } : State).measure d.func
      (Config.sha512 (bs.take (128 + 8 * p.2.1.length)))).served d u.freeHandle) := by
  rw [execKernelLoad, admit_ok s f r d x _ _ _ hadm hop]
  simp only [State.descRead_ok _ hbs, hp, if_neg (Nat.not_le.mpr hroom)]

/-- A kernel of the function that nothing uses is freed. -/
theorem execKernelFree_unused {k : Kernel} (hop : isOp 0x07 x = true)
    (hk : Table.find? (s.takeDesc f r).kernels (mapBits x 511 496) = some k) (hfunc : k.func = d.func) (hslot : k.slot = 0)
    (hfree : (s.takeDesc f r).kernelUsed (mapBits x 511 496) = false) :
    execKernelFree f r s = .next (((s.takeDesc f r).dropKernel (mapBits x 511 496)).served d) := by
  rw [execKernelFree, admit_ok s f r d x _ _ _ hadm hop]
  simp only [hk, if_neg (not_not_intro hfunc)]
  rw [if_neg (by simp [hslot, hfree])]

/-- A task that no reason refuses is listed with its argument blocks. -/
theorem execTask_admitted {args bs : List Byte} (hop : isOp 0x01 x = true) (hreason : (s.takeDesc f r).taskReason d (taskBodyOf x []) = none)
    (hbs : (s.takeDesc f r).vaRead d.context (taskBodyOf x []).argAddr (64 * (taskBodyOf x []).vcount) args = .ok (bs, false)) :
    execTask f r args s = .next ((s.takeDesc f r).addTask ((s.takeDesc f r).taskOf d (taskBodyOf x bs))) := by
  rw [execTask, admit_ok s f r d x _ _ _ hadm hop]
  simp only [hreason, State.descRead_ok _ hbs]

end

/-- No signal entry is applied where none is left. -/
theorem applySignals_none {s : State} {n : Nat} (fuel : Nat) (h : (s.task n).signals = []) : applySignals fuel s n = s := by
  cases fuel with
  | zero => rfl
  | succ fuel => simp only [applySignals, h]

/-- An ended task that faulted, or has no signal entry and no fence left, leaves its record and goes. -/
theorem execTaskComplete_ended {s : State} {n : Nat} (hradio : (s.task n).radio = none) (hn : s.hasTask n = true) (hended : (s.task n).status = .ended)
    (hinv : (s.task n).inv = 0)
    (hdone : (s.task n).fault ≠ 0 ∨ ((s.task n).signals = [] ∧ s.fabric.fences.any (fun x => x.task == n + 1) = false)) :
    execTaskComplete n s = .next (s.completeTask n) := by
  simp only [execTaskComplete, hradio]
  refine next_when_eq (by rw [hn, hended, hinv]; rfl) ?_
  obtain hfault | ⟨hsignals, hfences⟩ := hdone
  · rw [if_neg hfault, if_neg fun h => hfault h.1]
  · rw [applySignals_none 3 hsignals, ite_self, if_neg (by simp [hsignals, hfences])]

/-- Settles O15: an admitted descriptor that nothing stops takes effect, and an ended task leaves its record. -/
theorem kernelsAndTasks : Obligations.KernelsAndTasks := by
  exact ⟨fun s f r d x hadm =>
      ⟨fun package bs p => execKernelLoad_valid hadm, fun k => execKernelFree_unused hadm, fun args bs => execTask_admitted hadm⟩,
    fun s n => execTaskComplete_ended⟩

end Sys2Proof.Machine

/-! PROOFS. The statements of the family 07_operation_catalogue.md: nodes that map rows, reduce and route, and the descriptors and events of model
slots. -/

namespace Sys2Proof.Machine

/-! Nodes that map rows of FP32 codes (R205, R210 to R212). The codes of the functions are log entry 147. -/

/-- Settles O20: each row runs one map of rows, of length 1 or of the node's own, in place and sound by the hypotheses. -/
theorem rowNodes : Obligations.RowNodes := by
  intro s inv node x y gain beta row eps px bx py by' r hop hx hy hin hout hsound results leaves
  have writes : ∀ {n : Nat} (f : List Nat → List Res), n ≠ 0 → s.rowNode inv node x y n f = leaves n f :=
    fun f hn => rowNode_ok s inv node x y _ f px bx py by' hx hy hn hin hout hsound
  have element : ∀ {i : Instr} {fn : Nat} {f : Nat → Res}, exec i s = .next (s.nonlinear inv node fn f) → s.nodeFresh inv node 0x08 = true →
      r.function = fn → exec i s = .next (leaves 1 (List.map f)) := by
    intro i fn f hrow hfresh hfn
    rw [hrow, nonlinear_ok s inv node fn f x y gain beta row eps hop hfresh hfn, writes _ Nat.one_ne_zero]
  have norm : ∀ {i : Instr} {fn : Nat} (f : List Nat → List Nat → Nat → List Nat → List Res), exec i s = .next (s.normNode inv node fn f) →
      s.nodeFresh inv node 0x09 = true → row ≠ 0 → r.function = fn →
      exec i s = .next (leaves row (f (s.constRow inv gain row) (s.constRow inv beta row) eps.toNat)) := by
    intro i fn f hrow hfresh hlength hfn
    rw [hrow, normNode_ok s inv node fn f x y gain beta row eps hop hfresh hfn, writes _ hlength]
  exact ⟨fun hfresh => ⟨element rfl hfresh, element rfl hfresh, element rfl hfresh, element rfl hfresh, element rfl hfresh, element rfl hfresh,
      element rfl hfresh, element rfl hfresh⟩,
    fun hfresh hlength => ⟨norm (fun _ _ _ l => softmaxRow l) rfl hfresh hlength, norm (fun g _ e l => rmsRow l g e) rfl hfresh hlength,
      norm (fun g b e l => layerRow l g b e) rfl hfresh hlength⟩⟩

/-! Reductions and GATE nodes (R208, R253 to R255). -/

section
variable {s : State} {inv node : Nat}

/-- A fresh REDUCE node of the order asked for starts. -/
theorem State.reduceNode_starts {ordered int : Bool} {out : Tensor} {ranks : Nat} {sources : List (Nat × Nat × Nat)}
    (hop : (s.node_ inv node).op = .reduce out int ranks sources) (hfresh : s.nodeFresh inv node 0x0B = true)
    (horder : (s.node_ inv node).arrival = !ordered) :
    s.reduceNode inv node ordered = s.startReduce inv node ordered out int ranks sources := by
  simp only [State.reduceNode, hop]
  exact State.when_of _ _ _ (by rw [hfresh, horder, beq_self_eq_true]; rfl)

/-- A reduction whose partials here are sound and whose result lies in SRAM adds them, in ascending rank, to zeros. -/
theorem State.startReduce_sound {int : Bool} {out : Tensor} {ranks p b : Nat} {sources : List (Nat × Nat × Nat)} (ordered : Bool)
    (harea : s.areaAt inv out.tile = some (p, b)) (hplace : inSram (out.addr + b) (4 * out.count) = true)
    (hsound : ∀ e ∈ s.localPartials inv out.count sources, (s.tile e.2.1).poisoned e.2.2.1 (4 * out.count) = false) :
    let x := ((s.localPartials inv out.count sources).filter (fun e => decide (e.1 < ranks))).foldl (fun (a : Reduction × Bool × Bool) e =>
      ((a.1.arrive e.1 e.2.2.2).1, a.2.1 || (a.1.arrive e.1 e.2.2.2).2.1, a.2.2 || (a.1.arrive e.1 e.2.2.2).2.2))
        ({ ordered := ordered, int := int, ranks := ranks, out := out, acc := List.replicate out.count 0 }, false, false)
    s.startReduce inv node ordered out int ranks sources = ((s.begin_ inv node).keepReduction inv node x.1).nodeFlags inv x.2.1 x.2.2 := by
  have hclean : (s.localPartials inv out.count sources).find? (fun e => (s.tile e.2.1).poisoned e.2.2.1 (4 * out.count)) = none :=
    List.find?_eq_none.mpr fun e he => by simp [hsound e he]
  simp only [State.startReduce, hclean, harea, Option.getD_some, hplace, Bool.not_true, Bool.false_eq_true, if_false]

/-- The first partial of another rank is taken by its reduction. -/
theorem execReducePartialArrival_new {rank : Nat} {data : List Word32} {x : Reduction}
    (hx : Table.find? s.models.reductions (reduceKey inv node) = some x) (hready : s.nodeReady inv node 0x0B = true) (hrank : rank < x.ranks)
    (hlength : data.length = x.out.count) (hnew : x.arrived.contains rank = false) :
    execReducePartialArrival inv node rank data s = .next ((s.keepReduction inv node (x.arrive rank data).1).nodeFlags inv
      (x.arrive rank data).2.1 (x.arrive rank data).2.2) := by
  simp only [execReducePartialArrival, hx]
  exact next_when (by rw [hready, decide_eq_true ⟨hrank, hlength⟩, hnew]; rfl)

section
variable {g : GateNode} (hop : (s.node_ inv node).op = .gate g) (hready : s.nodeReady inv node 0x0C = true)
include hop hready

/-- A GATE node that has not begun routes under its own policy. -/
theorem State.gateNode_routes (hfresh : (s.inv inv).hasBegun node = false) {policy : Nat} (arrivals : List (Nat × Nat)) (hpolicy : g.policy = policy) :
    s.gateNode inv node policy arrivals = s.gateRoute inv node g arrivals := by
  simp only [State.gateNode, hop]
  rw [if_neg (by simp [hpolicy, hready]), if_pos (by simp [hfresh])]

/-- A GATE node that has routed sums, once, when the nodes that it waits for are done or skipped. -/
theorem State.gateNode_sums (hbegun : (s.inv inv).hasBegun node = true) (hopen : (s.inv inv).summed.contains node = false) (hcount : g.sumCount ≠ 0)
    (hafter : ∀ n ∈ g.sumAfter, (s.inv inv).done.contains n = true ∨ (s.inv inv).skipped.contains n = true) {policy : Nat} (arrivals : List (Nat × Nat))
    (hpolicy : g.policy = policy) : s.gateNode inv node policy arrivals = s.gateSum inv node g := by
  have hran : g.sumAfter.all (fun n => (s.inv inv).done.contains n || (s.inv inv).skipped.contains n) = true :=
    List.all_eq_true.mpr fun n hn => Bool.or_eq_true_iff.mpr (hafter n hn)
  simp only [State.gateNode, hop]
  rw [if_neg (by simp [hpolicy, hready]), if_neg (by simp [hbegun])]
  exact State.when_of _ _ _ (by rw [hopen, decide_eq_true hcount, hran]; rfl)

end

/-- A GATE node whose scores and rows are sound, and whose table has its place, writes what its filling gives: the table, its counts and kept
assignments, and the experts' rows. -/
theorem State.gateRoute_sound {g : GateNode} {p b q c : Nat} (arrivals : List (Nat × Nat)) (harea : s.areaAt inv g.tile = some (p, b))
    (hrows : s.areaAt inv g.rowTile = some (q, c)) (hok : gateOk g = true)
    (hscores : (s.tile p).poisoned (g.scoreAddr + b) (4 * g.experts * g.tokens) = false)
    (hsound : (s.tile q).poisoned (g.rowAddr + c) (g.rowBytes * g.tokens) = false) :
    let scores := (List.range g.tokens).map (fun n => ((s.tile p).codes (g.scoreAddr + b + 4 * g.experts * n) g.experts).map (BitVec.ofNat 32))
    let f := gateFill g scores arrivals s.free
    let x := gateResult g scores s.free f
    let m := (s.inv inv).serving
    let written := ((({ s with free := s.free + g.tokens }).begin_ inv node).updTile p (fun t => t.write (g.outAddr + b) x.1)).nodeFlags inv x.2.2.1 x.2.2.2
    let counted := (written.bump (Reg.slotGateDropped m) f.dropped).bump (Reg.slotGateRerouted m) f.rerouted
    let kept := counted.setInv inv { counted.inv inv with gates := Table.insert (counted.inv inv).gates node x.2.1 }
    inSram (g.outAddr + b) x.1.length = true →
    s.gateRoute inv node g arrivals = ((List.range g.inputs.length).zip g.inputs).foldl (fun (u : State) (e : Nat × GateInput) =>
      u.giveRows inv (s.task (s.inv inv).task) e.2
        ((tokensOf x.2.1 g.tokens e.1).flatMap (fun n => (s.tile q).read (g.rowAddr + c + n * g.rowBytes) g.rowBytes))) kept := by
  intro scores f x m written counted kept hplace
  simp only [State.gateRoute, harea, hrows]
  rw [hplace, hok, hscores, hsound]
  rfl

end

/-- Settles O22: each order starts its reduction, a new partial is taken, and a GATE node of each policy routes and then sums. -/
theorem reduceAndGate : Obligations.ReduceAndGate := by
  intro s inv node v r
  refine ⟨?reduces, fun rank data x => execReducePartialArrival_new, ?routes, ?sums⟩
  case reduces =>
    intro out int ranks sources p b hop hfresh harea hplace l hsound start
    have starts : ∀ ordered, r.arrival = (!ordered) → (.next (s.reduceNode inv node ordered) : Out) = .next (start ordered) :=
      fun ordered horder => congrArg _ ((State.reduceNode_starts hop hfresh horder).trans (State.startReduce_sound ordered harea hplace hsound))
    exact ⟨starts true, starts false⟩
  case routes =>
    intro g p b q c hop hready hfresh harea hrows hok hscores hsound scores routed fits
    have routes : ∀ {policy : Nat} (arrivals), g.policy = policy → fits arrivals →
        (.next (s.gateNode inv node policy arrivals) : Out) = .next (routed arrivals) :=
      fun arrivals hpolicy hfits => congrArg _
        ((State.gateNode_routes hop hready hfresh arrivals hpolicy).trans (State.gateRoute_sound arrivals harea hrows hok hscores hsound hfits))
    exact ⟨routes [], routes [], fun arrivals => routes arrivals⟩
  case sums =>
    intro g arrivals hop hready hbegun hopen hcount hafter
    have sums : ∀ {policy : Nat} (arrivals), g.policy = policy → (.next (s.gateNode inv node policy arrivals) : Out) = .next (s.gateSum inv node g) :=
      fun arrivals hpolicy => congrArg _ (State.gateNode_sums hop hready hbegun hopen hcount hafter arrivals hpolicy)
    exact ⟨sums [], sums [], sums arrivals⟩

/-! Model slots (R219, R222, R234 to R239, R243, R358). -/

section
variable {s : State} {f r : Nat} {d : Desc} {x : Slot64} (hadm : s.admits f r d x [1, 2])
include hadm

/-- A container that can be read and that no reason refuses occupies its slot. -/
theorem execModelLoad_accepted {container bs : List Byte} (hop : isOp 0x03 x = true)
    (hbs : (s.takeDesc f r).vaRead d.context (mapBits x 447 384) (mapBits x 479 448) container = .ok (bs, false))
    (hreason : (s.takeDesc f r).loadReason d (mapBits x 511 504) (mapBits x 503 496) bs.length bs = none) :
    execModelLoad f r container s = .next ((s.takeDesc f r).loadSlot d (mapBits x 511 504) (mapBits x 503 496) bs) := by
  rw [execModelLoad, admit_ok s f r d x _ _ _ hadm hop]
  simp only [State.descRead_ok _ hbs, hreason]

/-- A slot of the function that is READY or STALE, and that no invocation uses, begins to unload. -/
theorem execModelUnload_unused (hop : isOp 0x04 x = true) :
    let u := s.takeDesc f r
    let slot := mapBits x 511 504
    slot < 256 → u.regN (Reg.slotOwner slot) = d.func → (u.reg (Reg.slotState slot) = 2 ∨ u.reg (Reg.slotState slot) = 3) → u.slotUsed slot = false →
    execModelUnload f r s = .next (u.unloadSlot slot (some d)) := by
  intro u slot hslot howner hloaded hfree
  have haccepted : ¬(256 ≤ slot ∨ u.regN (Reg.slotOwner slot) ≠ d.func ∨ (u.reg (Reg.slotState slot) ≠ 2 ∧ u.reg (Reg.slotState slot) ≠ 3)) := by
    omega
  rw [execModelUnload, admit_ok s f r d x _ _ _ hadm hop]
  exact congrArg _ ((if_neg haccepted).trans (if_neg (Bool.eq_false_iff.mp hfree)))

/-- An INVOKE whose I/O table can be read and that no reason refuses becomes an invocation. -/
theorem execInvoke_accepted {io : List (Nat × Nat)} {bs : List Byte} (hop : isOp 0x02 x = true)
    (hbs : (s.takeDesc f r).vaRead d.context (mapBits x 447 384) 1 [] = .ok (bs, false))
    (hreason : (s.takeDesc f r).invokeReason d (invokeBodyOf x io) = none) :
    execInvoke f r io s = .next ((s.takeDesc f r).admitInv d (invokeBodyOf x io)) := by
  rw [execInvoke, admit_ok s f r d x _ _ _ hadm hop]
  simp only [State.descRead_ok _ hbs, hreason]

/-- A state handle in range, free or of a slot of the function, is unbound and its pages freed. -/
theorem execStateFree_owned (hop : isOp 0x05 x = true) :
    let u := s.takeDesc f r
    let part := mapBits x 511 504
    let handle := mapBits x 503 488
    let h := u.stateHandle part handle
    u.usesPart d part = true → handle ≠ 0 → handle ≤ 1024 → (h.slot = 0 ∨ u.regN (Reg.slotOwner (h.slot - 1)) = d.func) →
    execStateFree f r s = .next (((u.freePages h.pages).setStateHandle part handle {}).served d) := by
  intro u part handle h hpart hhandle hrange howner
  have hpartition : ¬(!u.usesPart d part) = true := by simp [hpart]
  have hmismatch : ¬(handle = 0 ∨ 1024 < handle ∨ (h.slot ≠ 0 ∧ u.regN (Reg.slotOwner (h.slot - 1)) ≠ d.func)) := by omega
  rw [execStateFree, admit_ok s f r d x _ _ _ hadm hop]
  exact congrArg _ ((if_neg hpartition).trans (if_neg hmismatch))

end

section
variable {s : State} {d : Desc} {slot : Nat} (hdesc : (s.slot slot).desc = some d)
include hdesc

/-- A load ends with the weights in the slot's pages: READY, or STALE where its partition has another size by now (log entry 103). -/
theorem execModelLoadComplete_loading (hloading : s.reg (Reg.slotState slot) = 1) :
    let x := s.slot slot
    let s1 := ((s.loadKernels slot d.func x.packages).runWrite (x.pages.length + 1) x.pages 0 x.weights).chargeBytes d.func 6 x.weights.length
    let p := s.regN (Reg.slotPartition slot)
    execModelLoadComplete slot s = .next ((((s1.setSlot slot { s1.slot slot with desc := none, packages := [], weights := [] }).setReg (Reg.slotState slot)
      (if p = 0 ∨ s.regN (Reg.slotTiles slot) = (s.part p).tiles.length then 2 else 3)).bindFallbacks).served d) := by
  simp only [execModelLoadComplete, hdesc]
  refine next_when_eq (beq_iff_eq.mpr hloading) ?_
  simp only [Bool.or_eq_true, beq_iff_eq]

/-- An unload ends with the slot EMPTY. -/
theorem execModelUnloadComplete_unloading (hunloading : s.reg (Reg.slotState slot) = 4) :
    execModelUnloadComplete slot s = .next (((s.clearSlot slot).bindFallbacks).served d) :=
  next_when_eq (beq_iff_eq.mpr hunloading) (by simp only [hdesc])

end

/-- Settles O24: each admitted descriptor that nothing refuses takes effect, and a load and an unload complete. -/
theorem modelSlots : Obligations.ModelSlots := by
  refine ⟨fun s f r d x hadm => ?descriptors, fun s d slot hdesc => ⟨execModelLoadComplete_loading hdesc, execModelUnloadComplete_unloading hdesc⟩⟩
  exact ⟨fun container bs => execModelLoad_accepted hadm, execModelUnload_unused hadm, fun io bs => execInvoke_accepted hadm, execStateFree_owned hadm⟩

end Sys2Proof.Machine

/-! PROOFS. The statements of the family 09_radio_phy.md: the life of a cell from its start over its frame boundaries, and the coding of an order's
PDUs with their result batches. -/

namespace Sys2Proof.Table

/-- A key that is listed reads its listed value. -/
theorem get_of_find? {α : Type} (d : α) {t : Table α} {k : Nat} {v : α} (h : find? t k = some v) : get d t k = v := by
  induction t with
  | nil => cases h
  | cons p r ih =>
    obtain ⟨i, w⟩ := p
    by_cases hi : i = k
    · simpa [find?, get, hi] using h
    · simpa [find?, get, hi] using ih (by simpa [find?, hi] using h)

end Sys2Proof.Table

namespace Sys2Proof.Machine

/-! The start of a cell (R274, R297, R302). -/

section
variable {s : State} {c : Nat} {encoded : Bool} (hstarting : s.cellSt c = 1)
include hstarting

/-- From 25 ms before its first frame on, a starting cell takes its part of the radio partition with empty buffers. -/
theorem execStartResize_due (hsize : (s.cell c).resized = false) (hdue : (s.cell c).startAt ≤ s.nowNs + 25000001) :
    execStartResize c s = .next ((s.radioGrow (s.regN (Reg.cellCluster c))).updCell c (fun x => { x with
      resized := true, soft := [], softOrder := [], spilled := [], kept := [], estimates := [] })) :=
  next_when (by rw [hstarting, hsize, decide_eq_true hdue]; rfl)

/-- From 20 ms before its first frame on, a resized cell takes its hold source, or its start ends where the source is not encoded or not valid. -/
theorem execHoldSourceCheck_due (hsize : (s.cell c).resized = true) (hopen : (s.cell c).encoded = false)
    (hdue : (s.cell c).startAt ≤ s.nowNs + 20000001) :
    let bs := s.blob (Reg.cellHoldSource c)
    execHoldSourceCheck c encoded s = .next (if encoded = true ∧ s.holdValid c bs = true
      then s.updCell c (fun x => { x with encoded := true, holdSource := bs, holdNext := none })
      else (((s.cellEventNow c 14 1).shrinkAfter c s.nowNs).stopCell c).updCell c (fun x => { x with slots := [] })) :=
  next_when_eq (by rw [hstarting, hsize, hopen, decide_eq_true hdue]; rfl) (if_congr Bool.and_eq_true_iff rfl rfl)

/-- At its first frame a cell with its hold source begins, and reports it. -/
theorem execStartFrameReached_due (hencoded : (s.cell c).encoded = true) (hfirst : (s.cell c).firstEnd = 0)
    (hdue : (s.cell c).startAt ≤ s.nowNs + 1) :
    let x := s.cell c
    execStartFrameReached c s = .next (((s.updCell c (fun x => { x with firstEnd := x.startAt + 10000000 })).startNormalise c (x.startAt - 1)).cellEvent c 1
      (s.slotAt c (x.startAt - 1)) 0) :=
  next_when (by rw [hstarting, hencoded, decide_eq_true ⟨hfirst, hdue⟩]; rfl)

/-- At the end of its first frame the cell is ON_AIR. -/
theorem execFirstFrameEnd_due (hfirst : (s.cell c).firstEnd ≠ 0) (hdue : (s.cell c).firstEnd ≤ s.nowNs + 1) :
    execFirstFrameEnd c s = .next ((((s.updCell c (fun x => { x with startAt := 0, firstEnd := 0, missed := 0 })).setCellSt c 2).cmdDone c 1).cellEventNow
      c 2 0) :=
  next_when (by rw [hstarting, decide_eq_true ⟨hfirst, hdue⟩]; rfl)

end

/-! Frame boundaries that commands name (R297, R303, R311, R312), and the switch of the hold source (R309). -/

section
variable {s : State} {c t : Nat}

/-- The boundary that a command waits for is at the instant listed for it. -/
theorem State.boundaryNs_waiting {k : Nat} (hwait : Table.find? (s.cell c).waiting k = some t) : s.boundaryNs c k = t := Table.get_of_find? 0 hwait

section
variable (hdue : t ≤ s.nowNs)
include hdue

/-- A boundary whose instant has come is due. -/
theorem State.boundaryDue_waiting {k : Nat} (hwait : Table.find? (s.cell c).waiting k = some t) : s.boundaryDue c k = true := by
  simp only [State.boundaryDue, hwait]
  exact decide_eq_true hdue

/-- At its stop frame a cell that is in service stops, and its radio partition shrinks after it. -/
theorem execStopFrameReached_inService (hwait : Table.find? (s.cell c).waiting 2 = some t) (hstarted : 1 ≤ s.cellSt c) (hservice : s.cellSt c ≤ 3) :
    execStopFrameReached c s = .next ((((s.cmdDone c 2).cellEvent c 3 (s.slotAt c t) 0).shrinkAfter c t).stopCell c) :=
  next_when_eq (State.boundaryDue_waiting hdue hwait) (by rw [if_pos ⟨hstarted, hservice⟩, State.boundaryNs_waiting hwait])

/-- At its hold frame a cell ON_AIR, or in HOLD by then (log entry 126), is held by command. -/
theorem execHoldFrameReached_onAir (hwait : Table.find? (s.cell c).waiting 3 = some t) (hair : s.cellSt c = 2 ∨ s.cellSt c = 3) :
    execHoldFrameReached c s = .next (((s.updCell c (fun x => { x with
      heldBy := 1, missed := 0, waiting := Table.erase (Table.erase x.waiting 3) 4 })).setCellSt c 3).cmdDone c 3) :=
  next_when_eq (State.boundaryDue_waiting hdue hwait) (if_pos hair)

/-- At its resume frame a cell in HOLD is ON_AIR again. -/
theorem execResumeFrameReached_held (hwait : Table.find? (s.cell c).waiting 4 = some t) (hheld : s.cellSt c = 3) :
    execResumeFrameReached c s = .next ((((s.updCell c (fun x => { x with
      waiting := Table.erase x.waiting 4, heldBy := 0, missed := 0 })).setCellSt c 2).startNormalise c t).cmdDone c 4) :=
  next_when_eq (State.boundaryDue_waiting hdue hwait) (by rw [if_pos hheld, State.boundaryNs_waiting hwait])

/-- At its reset frame a cell clears what it keeps of its HARQ processes, and a HOLD that RESET entered ends. -/
theorem execResetFrameReached_due (hwait : Table.find? (s.cell c).waiting 5 = some t) :
    let x := s.cell c
    let u := s.updCell c (fun x => { x with waiting := Table.erase x.waiting 5, missed := 0, soft := [], softOrder := [], spilled := [], kept := []
                                            estimates := [], heldBy := if x.heldBy = 3 then 0 else x.heldBy })
    execResetFrameReached c s = .next ((((if x.heldBy = 3 ∧ s.cellSt c = 3 then u.setCellSt c 2 else u).startNormalise c t).cmdDone c 5).cellEventNow c 9 0) :=
  next_when_eq (State.boundaryDue_waiting hdue hwait) (by rw [State.boundaryNs_waiting hwait])

/-- At its boundary the next hold source takes the place of the former. -/
theorem execHoldSourceSwitch_due {b : List Byte} (hnext : (s.cell c).holdNext = some (b, t)) :
    execHoldSourceSwitch c s = .next (s.updCell c (fun x => { x with holdSource := b, holdNext := none })) := by
  simp only [execHoldSourceSwitch, hnext]
  exact next_when (decide_eq_true hdue)

end
end

/-- Settles O27: each row of the start by how far it has come, and each boundary by the instant that waits. That a cell already in HOLD
is held by command is log entry 126; when a command reads DONE and which events are reported are log entries 109 and 110. -/
theorem cellLife : Obligations.CellLife := by
  intro s c
  exact ⟨execStartResize_due, fun encoded => execHoldSourceCheck_due, execStartFrameReached_due, execFirstFrameEnd_due, fun t hdue =>
    ⟨execStopFrameReached_inService hdue, execHoldFrameReached_onAir hdue, execResumeFrameReached_held hdue, execResetFrameReached_due hdue,
      fun b => execHoldSourceSwitch_due hdue⟩⟩

/-! Coding (R266 to R272). Each block of a PDU is coded once. -/

/-- A block that no entry of a list names is not found there. -/
theorem any_block_eq_false {α : Type} {l : List (Nat × Nat × α)} {pdu index : Nat} (h : ∀ e ∈ l, ¬ (e.1 = pdu ∧ e.2.1 = index)) :
    l.any (fun e => e.1 == pdu && e.2.1 == index) = false :=
  List.any_eq_false.mpr fun e he => by simpa only [Bool.and_eq_true, beq_iff_eq] using h e he

section
variable {s : State} {c slot pdu index : Nat} (hcut : (s.slotWork c slot).cut = true) (hheld : (s.slotWork c slot).held = 0)
  (hnew : ∀ e ∈ (s.slotWork c slot).coded, ¬ (e.1 = pdu ∧ e.2.1 = index))
include hcut hheld hnew

/-- A coded block of a slot that is served is kept where it is not kept yet. -/
theorem State.addCoded_new (bs : List Bool) :
    s.addCoded c slot pdu index bs = s.setSlotWork c slot { s.slotWork c slot with coded := (s.slotWork c slot).coded ++ [(pdu, index, bs)] } := by
  refine if_neg ?_
  rintro (hopen | hholds | hkept)
  · simp [hcut] at hopen
  · exact hholds hheld
  · obtain ⟨e, he, hsame⟩ := List.any_eq_true.mp hkept
    exact hnew e he (of_decide_eq_true hsame)

/-- A code block of a served PDSCH PDU is encoded from the PDU's staged transport blocks. -/
theorem execLdpcEncode_served {o : OrderIn} {p : Pdu} {graph zc h : Nat} (hdl : (s.slotWork c slot).dl = some o) (hpdu : o.pdu 1 pdu = some p)
    (hblock : p.coding[index]? = some (graph, zc, h)) :
    let w := s.slotWork c slot
    let blocks := (w.staged.filter (fun e => e.1 == pdu)).map (fun e => e.2.2)
    execLdpcEncode c slot pdu index s = .next (s.setSlotWork c slot
      { w with coded := w.coded ++ [(pdu, index, Config.ldpcEncode graph zc (Config.codeBlock p.coding blocks index))] }) := by
  intro w blocks
  have hencode : execLdpcEncode c slot pdu index s =
      .next (s.addCoded c slot pdu index (Config.ldpcEncode graph zc (Config.codeBlock p.coding blocks index))) := by
    simp only [execLdpcEncode, hdl, hpdu, hblock, SlotWork.blocksOf, blocks, w]
  rw [hencode, State.addCoded_new hcut hheld hnew]

/-- A DCI of a served PDCCH PDU is encoded, of the DL_TTI or, from 1,024 on, of the UL_DCI. -/
theorem execPolarEncode_served {o : OrderIn} {p : Pdu} {bits : List Bool}
    (hpdu : (pdu < 1024 ∧ (s.slotWork c slot).dl = some o ∧ o.pdu 0 pdu = some p) ∨
      (1024 ≤ pdu ∧ (s.slotWork c slot).dci = some o ∧ o.pdu 0 (pdu - 1024) = some p))
    (hdci : p.dcis[index]? = some bits) :
    let w := s.slotWork c slot
    execPolarEncode c slot pdu index s = .next (s.setSlotWork c slot { w with coded := w.coded ++ [(pdu, index, Config.polarEncode bits.length bits)] }) := by
  have hencode : execPolarEncode c slot pdu index s = .next (s.addCoded c slot pdu index (Config.polarEncode bits.length bits)) := by
    obtain ⟨hdown, horder, hserved⟩ | ⟨hup, horder, hserved⟩ := hpdu
    case inl => simp only [execPolarEncode, if_pos hdown, horder, hserved, hdci]
    case inr => simp only [execPolarEncode, if_neg (Nat.not_lt.mpr hup), horder, hserved, hdci]
  rw [hencode, State.addCoded_new hcut hheld hnew]

end

section
variable {s : State} {c : Nat} {o : OrderIn} {p : Pdu}

/-- The UCI of a served PUSCH or PUCCH PDU is decoded once. -/
theorem execPolarDecode_served {slot pdu info : Nat} {llrs : List Int} (hul : (s.slotWork c slot).ul = some o)
    (hpdu : (s.slotWork c slot).ulPdu o 1 pdu = some p ∨ (s.slotWork c slot).ulPdu o 3 pdu = some p) (hdone : (s.slotWork c slot).uplinkDone = true)
    (hnew : ∀ e ∈ (s.slotWork c slot).decoded, ¬ (e.1 = pdu ∧ e.2.1 = 4096)) :
    let w := s.slotWork c slot
    let r := Config.polarDecode info (llrs.map softClamp)
    execPolarDecode c slot pdu info llrs s = .next (s.setSlotWork c slot { w with decoded := w.decoded ++ [(pdu, 4096, 1, r.isSome, r.getD [])] }) := by
  have hserved : (((s.slotWork c slot).ulPdu o 1 pdu).isSome || ((s.slotWork c slot).ulPdu o 3 pdu).isSome) = true :=
    Bool.or_eq_true_iff.mpr (hpdu.imp Option.isSome_of_eq_some Option.isSome_of_eq_some)
  simp only [execPolarDecode, hul]
  exact next_when (by rw [hserved, hdone, any_block_eq_false hnew]; rfl)

/-- A new transmission clears its process with the first block that is decoded of its PDU. -/
theorem clearHarq_firstBlock (x : Cell) (w : SlotWork) (b : CodeBlock) :
    (if (b.newData && !w.decoded.any (fun e => e.1 == b.pdu)) = true then x.clearHarq b.harq else x) =
      if b.newData = true ∧ ∀ e ∈ w.decoded, e.1 ≠ b.pdu then x.clearHarq b.harq else x :=
  if_congr (by simp only [Bool.and_eq_true, Bool.not_eq_true', List.any_eq_false, beq_iff_eq, ne_eq]) rfl rfl

/-- A code block of a served PUSCH PDU, as the PDU names it, is combined with the soft buffer of its process, cleared first for a new transmission, is
decoded, and its buffer written back. -/
theorem execLdpcDecode_served {b : CodeBlock} (hul : (s.slotWork c b.slot).ul = some o) (hpdu : (s.slotWork c b.slot).ulPdu o 1 b.pdu = some p)
    (hdone : (s.slotWork c b.slot).uplinkDone = true) (hblock : p.coding[b.index]? = some (b.graph, b.zc, b.h)) (hharq : b.harq = p.harq)
    (hdata : b.newData = p.newData) (hiter : b.maxIter = p.maxIter) (hruns : 1 ≤ b.maxIter)
    (hnew : ∀ e ∈ (s.slotWork c b.slot).decoded, ¬ (e.1 = b.pdu ∧ e.2.1 = b.index)) :
    let w := s.slotWork c b.slot
    let x0 := s.cell c
    let x1 : Cell := if b.newData = true ∧ (∀ e ∈ w.decoded, e.1 ≠ b.pdu) then x0.clearHarq b.harq else x0
    let k := softKey b.harq b.index
    let llrs := holdFillers b.fillers (combine (Table.get [] x1.soft k) b.llrs)
    let rows := Config.ldpcRows b.graph b.zc (codingRows (b.graph, b.zc, b.h))
    let r := decodeIter rows b.maxIter 0 [] (decodeStart (Config.ldpcPunctured b.graph b.zc) rows llrs)
    let bs := hardBits r.2
    let x2 := x1.writeSoft k llrs
    let y : Cell := { x2 with kept := x2.kept.filter (fun i => i != k) ++ (if p.spill = 2 then [k] else []) }
    let x3 : Cell := if p.spill = 1 then { y with spilled := k :: y.spilled } else spillTo y (65536 * s.regN (Reg.cellSoftbufPages c)) y.spillOrder
    execLdpcDecode c b s = .next (((s.setCell c x3).setSlotWork c b.slot
      { w with decoded := w.decoded ++ [(b.pdu, b.index, r.1, Config.cbCrcOk bs, bs)] }).softWritten c k) := by
  have htaken : ((s.slotWork c b.slot).uplinkDone && (decide (b.harq = p.harq ∧ b.newData = p.newData ∧ b.maxIter = p.maxIter ∧ 1 ≤ b.maxIter) &&
      p.coding[b.index]? == some (b.graph, b.zc, b.h)) && !(s.slotWork c b.slot).decoded.any (fun e => e.1 == b.pdu && e.2.1 == b.index)) = true := by
    rw [hdone, decide_eq_true ⟨hharq, hdata, hiter, hruns⟩, hblock, any_block_eq_false hnew, beq_self_eq_true]
    rfl
  simp only [execLdpcDecode, hul, hpdu, clearHarq_firstBlock]
  exact next_when htaken

end

/-! Results (R289 to R294). -/

section
variable {s : State} {c slot otype : Nat} {o : OrderIn} (horder : (s.slotWork c slot).order otype = some o)
include horder

/-- After the cut-off the errors of an order are written as one batch. -/
theorem execResultBatchWrite_errors (entries : List (Nat × Nat × List Byte)) (hlo : 1 ≤ otype) (hhi : otype ≤ 4)
    (hcut : (s.slotWork c slot).cut = true) (herrors : o.errors ≠ []) (hnew : o.batches.contains 4 = false) :
    execResultBatchWrite c slot otype 4 entries s = .next (s.writeBatch c slot otype 4 o (o.errors.map (errorBytes o))) := by
  have hsome : o.errors.isEmpty = false := by simpa using herrors
  simp only [execResultBatchWrite, horder, if_true]
  exact next_when (by rw [decide_eq_true ⟨hlo, hhi⟩, hcut, hsome, hnew]; rfl)

/-- A batch of results is written with the entries of the PDUs that are served; the estimates of an SRS batch are retained. -/
theorem execResultBatchWrite_results {btype : Nat} {entries : List (Nat × Nat × List Byte)} (hul : otype = 2) (hlo : 1 ≤ btype) (hhi : btype ≤ 3)
    (hdone : (s.slotWork c slot).uplinkDone = true) (hnew : o.batches.contains btype = false) :
    let w := s.slotWork c slot
    let good := entries.filter (fun e => batchTakes btype e.1 && !(o.errors.map (fun x => x.1)).contains e.2.1 && !w.failed.contains e.2.1)
    w.batchOk o good = true →
    let u := s.writeBatch c slot otype btype o (good.filterMap (s.entryBytes c w o))
    execResultBatchWrite c slot otype btype entries s = .next (if btype = 3 then u.retain c slot o good else u) := by
  intro w good hgood u
  have hresults : btype ≠ 4 := by omega
  simp only [execResultBatchWrite, horder, if_neg hresults]
  exact next_when (by rw [beq_iff_eq.mpr hul, decide_eq_true ⟨hlo, hhi⟩, hdone, hnew, hgood]; rfl)

end

/-- A retained estimate goes when its time has passed. -/
theorem execSrsEstimateExpiry_due {s : State} {c handle t : Nat} (hestimate : Table.find? (s.cell c).estimates handle = some t) (hdue : t ≤ s.nowNs) :
    execSrsEstimateExpiry c handle s = .next (s.updCell c (fun x => { x with estimates := Table.erase x.estimates handle })) := by
  simp only [execSrsEstimateExpiry, hestimate]
  exact next_when (decide_eq_true hdue)

/-- Settles O29: a block of a served PDU that is not coded yet is coded, a batch not written yet is written, and an estimate expires. The numbering of
the PDUs of an UL_DCI from 1,024 on is log entry 41. -/
theorem codingAndResults : Obligations.CodingAndResults := by
  intro s c slot
  refine ⟨fun o p index graph zc h hdl pdu hpdu hblock hcut hheld hnew => execLdpcEncode_served hcut hheld hnew hdl hpdu hblock,
    fun o p bits pdu index hcut hheld hnew => execPolarEncode_served hcut hheld hnew,
    fun o p pdu info llrs => execPolarDecode_served, ?decode,
    fun o otype entries horder => ⟨execResultBatchWrite_errors horder entries, fun btype => execResultBatchWrite_results horder⟩,
    fun handle t => execSrsEstimateExpiry_due⟩
  case decode =>
    intro o p b hslot
    subst hslot
    exact execLdpcDecode_served

end Sys2Proof.Machine

/-! PROOFS. The statements of the family 10_cells_in_service.md: the steps of a cell's move, rings and the release of slots, and the writes that carry
commands, segments and blocks. -/

namespace Sys2Proof.Machine

/-! The steps of a move (R320 to R324). -/

/-- A step runs on the move of a MOVING cell that satisfies its condition. -/
theorem State.moveStep_runs {s : State} {c : Nat} {m : MoveRun} (hmove : (s.cell c).move = some m) (hmoving : s.cellSt c = 4) {p : MoveRun → Bool}
    (hp : p m = true) (f : MoveRun → State) : s.moveStep c p f = f m := by
  simp only [State.moveStep, hmove, hmoving, hp, decide_true, Bool.and_true, if_true]

section
variable {s : State} {c : Nat} {m : MoveRun} (hmove : (s.cell c).move = some m) (hmoving : s.cellSt c = 4)
include hmove hmoving

/-- From H − 1 s on the target takes its part of the radio partition with empty buffers. -/
theorem execMoveTargetPrepare_due (htarget : m.source = false) (hopen : m.prepared = false) (hdue : m.h ≤ s.nowNs + 1000000000) :
    execMoveTargetPrepare c s = .next (((s.radioGrow (s.regN (Reg.cellCluster c))).updCell c (fun x => { x with
      encoded := true, resized := true, soft := [], softOrder := [], spilled := [], kept := [], estimates := [] })).updMove c (fun m => { m with prepared := true })) :=
  congrArg _ (State.moveStep_runs hmove hmoving (by rw [htarget, hopen, decide_eq_true hdue]; rfl) _)

section
variable {bufs : List (Nat × List Int)} {ests : List (Nat × Nat)}

section
variable (hdue : m.h ≤ s.nowNs + 1000000000) (hahead : s.nowNs < m.h)
include hdue hahead

/-- Until H − 60 ms the source sends its configuration and context once. -/
theorem execMoveBulkCopy_source (hsource : m.source = true) (hopen : m.copied = false) (hearly : s.nowNs + 60000000 ≤ m.h) :
    execMoveBulkCopy c bufs ests s = .next (((s.sendConfig c m).sendContext c m ((s.cell c).soft.map (fun e => e.1))).updMove c
      (fun m => { m with copied := true })) := by
  rw [execMoveBulkCopy, State.moveStep_runs hmove hmoving (by rw [hsource, hopen, decide_eq_true ⟨hdue, hahead⟩, decide_eq_true hearly]; rfl)]
  simp only [hsource, if_true]

/-- Until H the prepared target takes what arrives and reports READY (message 22, log entry 161). -/
theorem execMoveBulkCopy_target (htarget : m.source = false) (hprepared : m.prepared = true) :
    execMoveBulkCopy c bufs ests s = .next (((s.takeContext c bufs ests).emit (.message m.peer 22 [m.peerCell])).updMove c
      (fun m => { m with copied := true })) := by
  rw [execMoveBulkCopy, State.moveStep_runs hmove hmoving (by rw [htarget, hprepared, decide_eq_true ⟨hdue, hahead⟩]; rfl)]
  simp only [htarget, Bool.false_eq_true, if_false]

end

/-- After the handover the source sends what was decoded last, and the target keeps what arrives and acknowledges it (message 23, log entry 161). -/
theorem execMoveFinalCopy_handed (hhanded : m.handed = true) (hleft : m.finalSent = false ∨ m.late ≠ []) :
    execMoveFinalCopy c bufs ests s = .next ((if m.source = true then s.sendContext c m m.late
      else (s.takeContext c bufs ests).emit (.message m.peer 23 [m.peerCell])).updMove c (fun m => { m with finalSent := true, late := [] })) := by
  have hruns : (m.handed && (!m.finalSent || !m.late.isEmpty)) = true := by simpa [hhanded] using hleft
  exact congrArg _ (State.moveStep_runs hmove hmoving hruns _)

end

/-- At H − 50 ms the move commits, or aborts because the peer is dead, a chip is not LOCKED, or a side is not ready. -/
theorem execMoveCommitPoint_due {peerReady peerLocked : Bool} (hopen : m.committed = false) (hdue : m.h ≤ s.nowNs + 50000000) :
    execMoveCommitPoint c peerReady peerLocked s = .next (
      if s.fabric.dead.contains m.peer = true then s.abortMove c 3
      else if s.reg Reg.timeState ≠ 2 ∨ peerLocked = false then s.abortMove c 4
      else if m.copied = false ∨ peerReady = false then s.abortMove c 2
      else (s.updMove c (fun m => { m with committed := true })).cellEventNow c 10 m.peer) := by
  rw [execMoveCommitPoint, State.moveStep_runs hmove hmoving (by rw [hopen, decide_eq_true hdue]; rfl)]
  simp only [Bool.not_eq_true']

/-- From H − 10 ms on both chips receive, until H + 10 ms. -/
theorem execDualRxOpen_due (hcommitted : m.committed = true) (hclosed : m.dualRx = false) (hdue : m.h ≤ s.nowNs + 10000000)
    (hwindow : s.nowNs < m.h + 10000000) : execDualRxOpen c s = .next (s.updMove c (fun m => { m with dualRx := true })) :=
  congrArg _ (State.moveStep_runs hmove hmoving (by rw [hcommitted, hclosed, decide_eq_true ⟨hdue, hwindow⟩]; rfl) _)

/-- From H on the target serves the slots, and the source's partition is to shrink. -/
theorem execMoveHandover_due (hcommitted : m.committed = true) (hopen : m.handed = false) (hdue : m.h ≤ s.nowNs) :
    let u := s.updMove c (fun m => { m with handed := true })
    execMoveHandover c s = .next (if m.source = true then u.shrinkAfter c m.h else u.startNormalise c m.h) :=
  congrArg _ (State.moveStep_runs hmove hmoving (by rw [hcommitted, hopen, decide_eq_true hdue]; rfl) _)

/-- The acknowledgement of the whole final copy ends the move on the source, and marks it done on the target. -/
theorem execMoveFinalAck_due (hsent : m.finalSent = true) (hlate : m.late = []) (hopen : m.done = false) (hdue : m.h ≤ s.nowNs) :
    let u := s.cellEventNow c 11 m.peer
    execMoveFinalAck c s = .next (if m.source = true then ((u.cmdDone c 6).stopCell c).updCell c (fun x => { x with quietUntil := m.h + 10000001 })
      else u.updMove c (fun m => { m with done := true })) :=
  congrArg _ (State.moveStep_runs hmove hmoving (by rw [hsent, hlate, hopen, decide_eq_true hdue]; rfl) _)

/-- At H + 10 ms the double reception ends, and the target's cell is ON_AIR. -/
theorem execDualRxClose_due (hcommitted : m.committed = true) (hdue : m.h + 10000000 ≤ s.nowNs) :
    execDualRxClose c s = .next (if m.source = true then s.updMove c (fun m => { m with dualRx := false })
      else (((s.updCell c (fun x => { x with move := none, startAt := 0 })).setCellSt c 2).cmdDone c 6)) :=
  congrArg _ (State.moveStep_runs hmove hmoving (by rw [hcommitted, decide_eq_true hdue]; rfl) _)

end

/-- Settles O28: every step is a `moveStep` of the MOVING cell, whose condition its hypotheses give. The codes of the control messages 22 and 23 are log
entry 161. -/
theorem cellMoves : Obligations.CellMoves := by
  intro s c m hmove hmoving
  exact ⟨execMoveTargetPrepare_due hmove hmoving,
    fun bufs ests hdue hahead => ⟨execMoveBulkCopy_source hmove hmoving hdue hahead, execMoveBulkCopy_target hmove hmoving hdue hahead⟩,
    fun peerReady peerLocked => execMoveCommitPoint_due hmove hmoving, execDualRxOpen_due hmove hmoving, execMoveHandover_due hmove hmoving,
    fun bufs ests => execMoveFinalCopy_handed hmove hmoving, execMoveFinalAck_due hmove hmoving, execDualRxClose_due hmove hmoving⟩

/-! Rings (R435 to R438, R445, R451, R452, R459). -/

section
variable {s : State} {f r : Nat}

/-- An enabled ring takes its indices from its header, and is at fault where the header cannot be read. -/
theorem execRingEnable_written (hkind : s.reg (Reg.ringKind f r) ≠ 0) (hstopped : s.reg (Reg.ringStatus f r) = 0) (hfunc : s.reg (Reg.functionState f) = 1) :
    execRingEnable f r none s = .next (s.setReg (Reg.ringStatus f r) 17) ∧
    (∀ b : Slot64, let h := ringHeaderOf b
      let start : Ring := { cons := h.cons, prod := h.cons, hostCons := h.cons, ack := h.fetchReq, fallback := if s.reg (Reg.ringFetchPeriod f r) = 0 then s.lnc + 1 + 1 else 0 }
      execRingEnable f r (some b) s = .next (((s.setRing f r start).setReg (Reg.ringStatus f r) 1).emit (.header f r 2 h.fetchReq))) := by
  have henabled : (s.reg (Reg.ringKind f r) != 0 && s.reg (Reg.ringStatus f r) == 0 && s.reg (Reg.functionState f) == 1) = true := by
    rw [bne_iff_ne.mpr hkind, hstopped, hfunc]
    rfl
  exact ⟨next_when henabled, fun b => next_when henabled⟩

section
variable {h : Option Slot64} {slots : List Slot64} (hfetch : s.fetchable f r = true)
include hfetch

/-- A periodic fetch that is due runs. -/
theorem execRingFetch_due (hdue : s.periodicDue f r = true) : execRingFetch f r h slots s = .next (s.fetch f r h slots) :=
  next_when (by rw [hfetch, hdue]; rfl)

/-- An extra fetch runs once the instant of a request has come. -/
theorem execRingExtraFetch_due (hdue : ∃ x ∈ (s.ring f r).extra, x ≤ s.lnc) : execRingExtraFetch f r h slots s = .next (s.fetch f r h slots) := by
  have hany : (s.ring f r).extra.any (fun x => decide (x ≤ s.lnc)) = true := by simpa using hdue
  exact next_when (by rw [hfetch, hany]; rfl)

/-- A ring without a period is fetched when its fallback instant has come. -/
theorem execRingFallbackFetch_due (hperiod : s.reg (Reg.ringFetchPeriod f r) = 0) (hset : (s.ring f r).fallback ≠ 0)
    (hdue : (s.ring f r).fallback - 1 ≤ s.lnc) : execRingFallbackFetch f r h slots s = .next (s.fetch f r h slots) :=
  next_when (by rw [hfetch, hperiod, decide_eq_true ⟨hset, hdue⟩]; rfl)

end

section
variable {d : Desc} {x : Slot64}

/-- An admitted NOP is served. -/
theorem execNopDescriptor_admitted (hadm : s.admits f r d x [1, 2]) (hop : isOp 0x00 x = true) :
    execNopDescriptor f r s = .next ((s.takeDesc f r).served d) := by
  rw [execNopDescriptor, admit_ok s f r d x _ _ _ hadm hop]

/-- An admitted buffer is kept, while the ring keeps fewer than 256. -/
theorem execFrameRxBuf_admitted (hadm : s.admits f r d x [4]) (hop : isOp 0x19 x = true) (hroom : (s.ring f r).buffers.length < 256) :
    let u := s.takeDesc f r
    execFrameRxBuf f r s = .next (u.setRing f r { u.ring f r with buffers := (u.ring f r).buffers ++ [mapBits x 447 384] }) :=
  next_when_eq (decide_eq_true hroom) (admit_ok s f r d x _ _ _ hadm hop)

end

/-- CONS of a full completion ring is read again, at most once per µs, and the held records that fit are written. -/
theorem execCompletionConsReread_full (cons : Nat) (hkind : s.reg (Reg.ringKind f r) = 3) (hfunc : s.reg (Reg.functionState f) = 1)
    (hfull : s.ringFull f r = true) (hpaced : (s.ring f r).consReadAt = 0 ∨ (s.ring f r).consReadAt - 1 + 20 ≤ s.lnc) :
    execCompletionConsReread f r cons s = .next (flushHeld (s.setRing f r { s.ring f r with hostCons := cons, consReadAt := s.lnc + 1 }) f r (s.ring f r).held) :=
  next_when (by rw [hkind, hfunc, hfull, decide_eq_true hpaced]; rfl)

/-- The time limit of the moderation raises the vector of a ring with records that no interrupt has told of. -/
theorem execModTimeExpiry_due (hfunc : s.reg (Reg.functionState f) = 1) (hcount : (s.ring f r).irqPending ≠ 0)
    (hdue : s.passed (s.ring f r).irqFirst (s.regN (Reg.ringModTime f r)) = true) : execModTimeExpiry f r s = .next (s.raiseRing f r) :=
  next_when (by rw [hfunc, decide_eq_true hcount, hdue]; rfl)

end

/-! The release of slots (R304, R308, R337 to R340). -/

section
variable {s : State} {c slot : Nat}

section
variable (hc : c < 256) (hserves : s.serves c slot = true) (hopen : (s.slotWork c slot).released = 0)
include hc hserves hopen

/-- The release point sends a slot that is ready and that no cause holds, and what is held otherwise. -/
theorem execReleasePoint_due (hdue : s.releaseNs c slot ≤ s.nowNs) (hair : s.nowNs < s.airNs c slot + s.slotLen c) :
    let w := s.slotWork c slot
    execReleasePoint c slot s = .next (if w.ready = true ∧ s.holdCause c slot = 0 then (s.setSlotWork c slot { w with released := 1 }).sendControl c slot
      (if Config.tddDownlink c slot = true then s.dlStreams c else 0) (if Config.tddUplink c slot = true then s.ulStreams c else 0) (s.slotKey c slot [])
      else s.sendHeld c slot (s.releaseCause c slot)) := by
  refine next_when_eq (by rw [decide_eq_true hc, hserves, hopen, decide_eq_true ⟨hdue, hair⟩]; rfl) (if_congr ?_ rfl rfl)
  rw [Bool.and_eq_true, beq_iff_eq]

/-- The standing hold launch of a slot with an entry of HOLD_SOURCE runs at its downlink launch LNC, with 45 % of the budget (log entry 44). -/
theorem execHoldLaunch_due (hhas : s.holdHas c slot = true) (hunsent : (s.slotWork c slot).holdSent = false) (hdue : s.launchDl c slot / 50 ≤ s.lnc) :
    let work : RadioPiece := { vtile := 0, nominalNs := s.budgetDl c * 9 / 20, uplink := false, rxBase := 0, rxLength := 0, moves := [], pdus := [] }
    let x := (s.setSlotWork c slot { s.slotWork c slot with holdSent := true }).addRadioTask c slot work (s.launchDl c slot) (s.budgetDl c) true
    execHoldLaunch c slot s = .next (x.1.launchRadio x.2.1) :=
  next_when (by rw [decide_eq_true hc, hserves, hhas, hunsent, hopen, decide_eq_true hdue]; rfl)

end

section
variable {k : Nat} (hk : k < 14)
include hk

/-- The U-plane frames of a symbol of a computed slot or a hold pattern are queued once. -/
theorem execSymbolRelease_due (hdue : s.symbolNs c slot k + s.regN (Reg.bindTcpAdvDl c) ≤ s.nowNs + s.regN (Reg.cellT1aMax c))
    (hcarries : (s.slotWork c slot).released = 1 ∨ ((s.slotWork c slot).released = 2 ∧ s.holdHas c slot = true))
    (hnew : (s.slotWork c slot).symbols.contains k = false) :
    let w := s.slotWork c slot
    let key := s.slotKey c slot (if w.released = 2 then (s.cell c).holdSource else [])
    execSymbolRelease c slot k s = .next ((List.range (s.dlStreams c)).foldl (fun (s : State) i =>
      s.sendRadio c slot k 2 (512 + i) (frameBytes (Config.sectionBytes key 2 k i)) (s.regN (Reg.bindT1aMinUp c)))
      (s.setSlotWork c slot { w with symbols := k :: w.symbols })) := by
  have hsent : (decide ((s.slotWork c slot).released = 1) || (decide ((s.slotWork c slot).released = 2) && s.holdHas c slot)) = true := by
    simpa using hcarries
  exact next_when (by rw [decide_eq_true ⟨hk, hdue⟩, hsent, hnew]; rfl)

/-- At the close of a symbol's window its late frames leave both queues. -/
theorem execSymbolWindowClose_due (hdue : s.symbolNs c slot k ≤ s.nowNs + s.regN (Reg.bindT1aMinUp c)) :
    let p := s.regN (Reg.bindFhPort c)
    execSymbolWindowClose c slot k s = .next ((s.dropLate p 13 c slot k).dropLate p 14 c slot k) :=
  next_when (decide_eq_true ⟨hk, hdue⟩)

end
end

/-- Settles O41: each row of a ring or a slot acts when its conditions hold; unmasking a vector and an invalidation act at once. The nominal work
of a standing hold launch is log entry 44, the order of the C-plane log entry 43; that a vector starts masked is log entry 17, that an invalidation
shows only its completion log entry 18. -/
theorem ringsAndRelease : Obligations.RingsAndRelease := by
  intro s f r
  refine ⟨execRingEnable_written, fun h slots hfetch => ⟨execRingFetch_due hfetch, execRingExtraFetch_due hfetch, execRingFallbackFetch_due hfetch⟩,
    fun d x => ⟨execNopDescriptor_admitted, execFrameRxBuf_admitted⟩, execCompletionConsReread_full, execModTimeExpiry_due, fun v => rfl,
    fun pasid va => rfl, fun c slot => ?slots⟩
  case slots =>
    exact ⟨execReleasePoint_due, fun k => execSymbolRelease_due, fun k => execSymbolWindowClose_due,
      fun hc hserves hhas hunsent hopen => execHoldLaunch_due hc hserves hopen hhas hunsent⟩

/-! Written commands, segments and blocks (R467, R484). -/

/-- Instruction `i` writes the whole of one object and ends with `after`: an accepted request is enacted, or answered with the status that a check
gives. -/
def WritesWhole (s : State) (i : Instr) (w : Wr) (index sub : Nat) (info : WInfo) (after : State → State) : Prop :=
  let c := wrControl w index sub
  s.accepts w.acc c →
    (∀ p u, s.checkWrite w.acc index sub w.data w.lnc info [] = .ok p → s.commitPlans [p] w.commitOk = (Status.ok, u) →
      exec i s = .next (after (s.answers w.acc c (u.enact (Accessor.holder w.acc) info p, {})))) ∧
    (∀ e u, s.checkWrite w.acc index sub w.data w.lnc info [] = .error (e, u) → exec i s = .next (after (s.answers w.acc c (u, { status := e }))))

/-- A row that answers an accepted request with the outcome of `writeObject` writes the whole object. -/
theorem writesWhole_of_writeObject {s : State} {i : Instr} {w : Wr} {index sub : Nat} {info : WInfo} {after : State → State}
    (hi : s.accepts w.acc (wrControl w index sub) →
      let r := s.writeObject w.acc index sub w.data w.lnc w.commitOk info
      exec i s = .next (after (s.answers w.acc (wrControl w index sub) (r.2, { status := r.1 })))) : WritesWhole s i w index sub info after := by
  intro hacc
  rw [hi hacc]
  refine ⟨fun p u hp hu => ?_, fun e u he => ?_⟩
  · rw [State.writeObject_enacted hp hu]
    rfl
  · rw [State.writeObject_refused w.commitOk he]

/-- A row of a single object writes it. -/
theorem writesWhole_of_dictWrite {s : State} {i : Instr} {w : Wr} {index sub : Nat} {info : WInfo} {after : State → State}
    (hi : exec i s = .next (after (s.dictWrite w index sub info))) : WritesWhole s i w index sub info after :=
  writesWhole_of_writeObject fun hacc => by rw [hi, State.dictWrite_answers hacc info]

/-- A row that takes place under a condition writes its object where the condition holds. -/
theorem writesWhole_of_when {s : State} {i : Instr} {w : Wr} {index sub : Nat} {info : WInfo} {q : Prop} [Decidable q]
    (hi : exec i s = .next (s.when (decide q) (s.dictWrite w index sub info))) (hq : q) : WritesWhole s i w index sub info id :=
  writesWhole_of_dictWrite (hi.trans (next_when (decide_eq_true hq)))

/-- An accepted request whose values are free is answered with what its run gives. -/
theorem next_fresh_access {s : State} {a : Accessor} {w : Window} {early : Bool} {run : State → State × Reply} {r : State × Reply} (hacc : s.accepts a w)
    (hrun : run s = r) : (.next (s.access a w early run).fresh : Out) = .next (s.answers a w r).fresh := by
  rw [access_ok s a w early run hacc, hrun]

/-- The control block of a DICT_WRITE at an offset, with more to follow or not (R479). -/
def segmentControl (w : Wr) (index sub offset : Nat) (more : Bool) : Window :=
  { wrControl w index sub with flags := (if w.lnc.isSome then 4 else 0) + (if more then 2 else 0), offset := offset }

section
variable {s : State} {h k offset : Nat}

section
variable (bs : List Byte) (hst : assoc s.dict.stages h = none)
include hst

/-- A block in one segment is whole. -/
theorem State.segment_single : s.segment h k 0 false bs = (s, .ok bs) := by
  simp [State.segment, hst]

/-- The first segment of a block, with more to come, is kept. -/
theorem State.segment_first :
    s.segment h k 0 true bs = (s.setStage h (some { key := k, bytes := bs, last := s.time.ticks }), .error Status.ok) := by
  simp [State.segment, hst]

end

section
variable {x : Stage} (bs : List Byte) (hst : assoc s.dict.stages h = some x) (hkey : x.key = k)
include hst hkey

/-- A segment that follows the staged ones, with more to come, is kept with them. -/
theorem State.segment_next :
    s.segment h k x.bytes.length true bs = (s.setStage h (some { key := k, bytes := x.bytes ++ bs, last := s.time.ticks }), .error Status.ok) := by
  simp [State.segment, hst, hkey]

/-- The last segment completes the staged ones. -/
theorem State.segment_last : s.segment h k x.bytes.length false bs = (s.setStage h none, .ok (x.bytes ++ bs)) := by
  simp [State.segment, hst, hkey]

end
end

section
variable {s : State} {w : Wr} {index sub : Nat}

/-- A number in one segment, or bytes where nothing is staged, is a write of the whole object. -/
theorem execDictWrite_whole (hwhole : assoc s.dict.stages (Accessor.holder w.acc) = none ∨ ∃ size v, w.data = .num size v)
    (hacc : s.accepts w.acc (wrControl w index sub)) :
    let r := s.writeObject w.acc index sub w.data w.lnc w.commitOk (s.factsOf w.acc index sub)
    execDictWrite w index sub 0 false s = .next (s.answers w.acc (wrControl w index sub) (r.2, { status := r.1 })).fresh := by
  refine next_fresh_access hacc ?_
  cases hdata : w.data with
  | num size v => rfl
  | bytes bs =>
    have hnone : assoc s.dict.stages (Accessor.holder w.acc) = none := hwhole.resolve_right (by simp [hdata])
    simp only [State.segment_single _ hnone]
    rfl

section
variable {bs : List Byte} {offset : Nat} {more : Bool} (hdata : w.data = .bytes bs) (hacc : s.accepts w.acc (segmentControl w index sub offset more))
include hdata hacc

/-- A segment that completes no block leaves what `State.segment` leaves, and is answered with its status. -/
theorem execDictWrite_staged {t : State} {e : Nat}
    (hseg : s.segment (Accessor.holder w.acc) (key index sub) offset more bs = (t, .error e)) :
    execDictWrite w index sub offset more s = .next (s.answers w.acc (segmentControl w index sub offset more) (t, { status := e })).fresh :=
  next_fresh_access hacc (by simp only [hdata, dataBytes, hseg])

/-- A segment that completes a block writes the whole of it. -/
theorem execDictWrite_completed {t : State} {all : List Byte}
    (hseg : s.segment (Accessor.holder w.acc) (key index sub) offset more bs = (t, .ok all)) :
    let r := t.writeObject w.acc index sub (.bytes all) w.lnc w.commitOk (t.factsOf w.acc index sub)
    execDictWrite w index sub offset more s = .next (s.answers w.acc (segmentControl w index sub offset more) (r.2, { status := r.1 })).fresh :=
  next_fresh_access hacc (by simp only [hdata, dataBytes, hseg])

end
end

/-- A WRITE_BLOCK writes the items that tile its data, and is TYPE_MISMATCH where none do. -/
theorem execWriteBlock_answers {s : State} {acc : Accessor} {index : Nat} {data : List Byte} {lnc : Option Nat} (commitOk : Bool) :
    let c : Window := { op := 4, flags := if lnc.isSome then 4 else 0, index := index, lnc := lnc.getD 0, length := data.length, buffer := data.take 3840 }
    s.accepts acc c →
    (∀ items, itemsOf data.length data = some items → execWriteBlock acc index data lnc commitOk s = .next
      (s.answers acc c (s.writeBlock acc index items lnc commitOk (s.factsOf acc index))).fresh) ∧
    (itemsOf data.length data = none →
      execWriteBlock acc index data lnc commitOk s = .next (s.answers acc c (s, { status := Status.typeMismatch })).fresh) := by
  intro c hacc
  exact ⟨fun items hitems => next_fresh_access hacc (by rw [hitems]), fun hitems => next_fresh_access hacc (by rw [hitems])⟩

/-- Settles O54: a command is `dictWrite` of its object under the bound of its family or the OP of its bytes; a DICT_WRITE goes by what
`State.segment` makes of its segment; a block by its items. What a bare write means where its object has a row of its own is log entry 62; the status
of a block that its items do not tile is log entry 12. -/
theorem commandWrites : Obligations.CommandWrites := by
  intro s w whole cell owner
  have single : ∀ {i w index sub info} {after : State → State}, exec i s = .next (after (s.dictWrite w index sub info)) →
      whole i w index sub info after := writesWhole_of_dictWrite
  have cellRow : ∀ {i c cmd peer}, exec i s = .next (s.cellWrite w c cmd peer) → cell i c cmd peer := writesWhole_of_when
  have ownerRow : ∀ {i op}, exec i s = .next (s.ownerWrite w op) → owner i op := writesWhole_of_when
  refine ⟨fun c peer => ⟨cellRow rfl, cellRow rfl, cellRow rfl, cellRow rfl, cellRow rfl, cellRow rfl, cellRow rfl⟩,
    ownerRow rfl, ownerRow rfl, ownerRow rfl, ownerRow rfl, single rfl,
    fun index sub => ⟨single rfl, fun hwhole => writesWhole_of_writeObject (execDictWrite_whole hwhole), ?segments⟩,
    fun index data => execWriteBlock_answers w.commitOk⟩
  case segments =>
    intro bs st offset more hdata hst c hacc before kept
    cases st with
    | none =>
      refine ⟨fun _ hoffset hmore => ?_, fun hsome => absurd rfl hsome⟩
      subst hoffset hmore
      exact execDictWrite_staged hdata hacc (State.segment_first bs hst)
    | some x =>
      refine ⟨fun hkey hoffset hmore => ?_, fun _ hkey hoffset hmore => ?_⟩
      · subst hoffset hmore
        exact execDictWrite_staged hdata hacc (State.segment_next bs hst hkey)
      · subst hoffset hmore
        exact execDictWrite_completed hdata hacc (State.segment_last bs hst hkey)

end Sys2Proof.Machine

/-! PROOFS. The statements of the family 11_fronthaul_ports.md: flits, training and frames of the fabric links, and the frames that the ports receive,
queue and send. -/

namespace Sys2Proof.Machine

/-! Flits, training and frames of the fabric links (R343, R377 to R382, R395). -/

section
variable {s : State} {link : Nat} {f : Flit} (hup : s.linkUp link = true) (hzfl : s.linkZfl link = true) (hserving : (s.link link).retrainAt = 0)
include hup hzfl hserving

/-- A ZFL link that is up and not retraining takes flits. -/
theorem flitReceive_guard : (s.linkUp link && s.linkZfl link && decide ((s.link link).retrainAt = 0)) = true := by
  rw [hup, hzfl, decide_eq_true hserving]
  rfl

/-- The flit that is awaited is taken with its ACK, NAK and credits, and its packets are delivered. -/
theorem execFlitReceive_taken (hcrc : f.crcOk = true) (hseq : f.seq = (s.link link).rxNext) :
    let x := s.link link
    let s1 := (s.setLink link { x with
      rxNext := (x.rxNext + 1) % 65536, used := Table.put 0 x.used f.cvc (Table.get 0 x.used f.cvc - f.credits) }).emit (.flit link 0 f.seq)
    execFlitReceive link f s = .next ((f.packets.foldl State.deliver (s1.acknowledge link f.ack f.nak)).returnCredits link f.packets) :=
  next_when_eq (flitReceive_guard hup hzfl hserving) (if_pos ⟨hcrc, hseq⟩)

/-- Any other flit is answered with a NAK of the last good one. -/
theorem execFlitReceive_nak (hbad : f.crcOk = false ∨ f.seq ≠ (s.link link).rxNext) :
    execFlitReceive link f s = .next (s.emit (.flit link 1 (((s.link link).rxNext + 65535) % 65536))) := by
  have hother : ¬(f.crcOk = true ∧ f.seq = (s.link link).rxNext) := by
    rwa [not_and_or, Bool.not_eq_true]
  exact next_when_eq (flitReceive_guard hup hzfl hserving) (if_neg hother)

end

/-- A link with a mode that is not yet up comes up with its peer. -/
theorem execFabricLinkUp_trained {s : State} {link : Nat} (peer : Nat) (hmode : s.reg (Reg.linkMode link) ≠ 0) (hdown : (s.link link).up ≤ 1) :
    execFabricLinkUp link peer s = .next (((s.setLink link (s.link link).cleared).setLinkUp link 2).setReg (Reg.linkPeer link)
      (if s.linkZfl link = true then (peer : Int) else 65535)) :=
  next_when (by rw [decide_eq_true hmode, decide_eq_true hdown]; rfl)

section
variable {s : State} {link e : Nat} (packets : List Packet) (priorities : List Nat) (m : PtpMsg)

/-- A frame with an FCS error is lost. -/
theorem execFabricFrameReceive_badFcs : execFabricFrameReceive link e packets priorities (some m) false s = .next s := by
  rw [execFabricFrameReceive, State.when_not _ _ _ (Bool.and_false _)]

variable (hup : s.linkUp link = true) (hmode : 5 ≤ s.reg (Reg.linkMode link))
include hup hmode

/-- A link in a switched mode that is up takes frames with a good FCS. -/
theorem fabricFrameReceive_guard : (s.linkUp link && decide (5 ≤ s.reg (Reg.linkMode link)) && true) = true := by
  rw [hup, decide_eq_true hmode]
  rfl

/-- A frame of FABRIC_ETHERTYPE delivers its packets. -/
theorem execFabricFrameReceive_packets (htype : e = s.regN Reg.fabricEthertype) :
    execFabricFrameReceive link e packets priorities (some m) true s = .next (packets.foldl State.deliver s) :=
  next_when_eq (fabricFrameReceive_guard hup hmode) (if_pos htype)

variable (hother : e ≠ s.regN Reg.fabricEthertype)
include hother

/-- A PTP frame is heard. -/
theorem execFabricFrameReceive_ptp (htype : e = 0x88F7) : execFabricFrameReceive link e packets priorities (some m) true s = .next (s.ptpHear link m) := by
  refine next_when_eq (fabricFrameReceive_guard hup hmode) ?_
  rw [if_neg hother, if_pos htype]

/-- A PFC frame pauses the virtual channels of the priorities that it names, and no others. -/
theorem execFabricFrameReceive_pause (htype : e = 0x8808) :
    let x := s.link link
    execFabricFrameReceive link e packets priorities (some m) true s =
      .next (pump x.queue.length (s.setLink link { x with paused := (List.range 7).filter (fun v => priorities.contains (s.pcpOf v)) }) link) := by
  have hptp : e ≠ 0x88F7 := by omega
  refine next_when_eq (fabricFrameReceive_guard hup hmode) ?_
  rw [if_neg hother, if_neg hptp, if_pos htype]

end

/-- Settles O35: each row acts under its own condition, a flit by its CRC and sequence number, a frame by its EtherType. That flits and packets are
given by their fields, and one Ethernet frame by the packets that its operand lists, is log entry 159. -/
theorem fabricLinks : Obligations.FabricLinks := by
  intro s link
  exact ⟨fun f hup hzfl hserving => ⟨execFlitReceive_taken hup hzfl hserving, execFlitReceive_nak hup hzfl hserving⟩,
    fun hretrains => ⟨next_when (decide_eq_true hretrains), next_when (decide_eq_true hretrains)⟩,
    fun hlinked => next_when (decide_eq_true hlinked), execFabricLinkUp_trained,
    fun e packets priorities m hup hmode => ⟨execFabricFrameReceive_packets packets priorities m hup hmode,
      execFabricFrameReceive_ptp packets priorities m hup hmode, execFabricFrameReceive_pause packets priorities m hup hmode,
      execFabricFrameReceive_badFcs packets priorities m⟩⟩

/-! Frames that a port receives (R329, R331, R334, R342). -/

/-- A port with a mode that is not yet up comes up while the input is there. -/
theorem execPortLinkUp_trained {s : State} {p : Nat} (hp : p < 64) (hmode : s.reg (Reg.portMode p) ≠ 0) (hdown : (s.port p).up ≤ 1)
    (hinput : s.power.inputOff = false) :
    execPortLinkUp p s = .next (((s.portSync p).setPort p { (s.portSync p).port p with credit := [] }).setPortUp p 2) :=
  next_when (by rw [decide_eq_true hp, bne_iff_ne.mpr hmode, decide_eq_true hdown, hinput]; rfl)

/-- A frame within the limits with a good FCS, not of flow control, is not bad. -/
theorem RxFrame.wellFormed {f : RxFrame} (hmin : 64 ≤ f.length) (hmax : f.length ≤ 9216) (hfcs : f.fcsOk = true) (hflow : f.flowControl = false) :
    ¬(f.length < 64 ∨ 9216 < f.length ∨ (!f.fcsOk) = true ∨ f.flowControl = true) := by
  simp [hmin, hmax, hfcs, hflow]

/-- Where an eCPRI frame goes (R331): by its message type to its uplink stream or its delay measurement, else to the count of bad frames. -/
def State.ecpriFrame (s : State) (p : Nat) (f : RxFrame) : State :=
  match f.ecpri with
  | none => s.rxBad p
  | some e =>
    if e.mtype = 0 then
      match s.uplinkStream p (frameVlan f) e.eaxc with
      | some y => s.radioFrame p f e y.1 y.2
      | none => s.rxBad p
    else if e.mtype = 5 ∧ f.dst = s.regN (Reg.portMacAddr p) then s.delayFrame p f e
    else s.rxBad p

section
variable {s : State} {p : Nat} {f : RxFrame}

/-- Without an eCPRI header it counts as bad. -/
theorem State.ecpriFrame_headless (hecpri : f.ecpri = none) : s.ecpriFrame p f = s.rxBad p := by
  simp only [State.ecpriFrame, hecpri]

/-- IQ data goes to the uplink stream that its VLAN and eAxC name. -/
theorem State.ecpriFrame_iqData (e : Ecpri) (y : Nat × Nat) (hecpri : f.ecpri = some e) (hmtype : e.mtype = 0)
    (hstream : s.uplinkStream p (frameVlan f) e.eaxc = some y) : s.ecpriFrame p f = s.radioFrame p f e y.1 y.2 := by
  simp only [State.ecpriFrame, hecpri, if_pos hmtype, hstream]

/-- A delay measurement for the port's own address is one. -/
theorem State.ecpriFrame_delay (e : Ecpri) (hecpri : f.ecpri = some e) (hmtype : e.mtype = 5) (hdst : f.dst = s.regN (Reg.portMacAddr p)) :
    s.ecpriFrame p f = s.delayFrame p f e := by
  have hdata : e.mtype ≠ 0 := by omega
  simp only [State.ecpriFrame, hecpri, if_neg hdata, if_pos (And.intro hmtype hdst)]

end

section
variable {s : State} {p : Nat} {f : RxFrame} (hup : s.portUp p = true)
include hup

/-- A frame of a length that R329 does not allow, with an FCS error or of flow control counts as bad. -/
theorem execFrameReceive_malformed (hbad : f.length < 64 ∨ 9216 < f.length ∨ f.fcsOk = false ∨ f.flowControl = true) :
    execFrameReceive p f s = .next (s.rxBad p) :=
  next_when_eq hup (if_pos (by rwa [Bool.not_eq_true']))

variable (hmin : 64 ≤ f.length) (hmax : f.length ≤ 9216) (hfcs : f.fcsOk = true) (hflow : f.flowControl = false)
include hmin hmax hfcs hflow

/-- A frame with two tags or more is for the host. -/
theorem execFrameReceive_tagged (htags : 2 ≤ f.tags) : execFrameReceive p f s = .next (s.hostFrame p f true) := by
  refine next_when_eq hup ?_
  rw [if_neg (RxFrame.wellFormed hmin hmax hfcs hflow), if_pos htags]

variable (htags : f.tags < 2)
include htags

/-- A PTP frame. -/
theorem execFrameReceive_ptp (htype : f.etherType = 0x88F7) : execFrameReceive p f s = .next (s.ptpFrame p f) := by
  refine next_when_eq hup ?_
  rw [if_neg (RxFrame.wellFormed hmin hmax hfcs hflow), if_neg htags.not_ge, if_pos htype]

/-- A frame that is neither PTP nor eCPRI is for the host. -/
theorem execFrameReceive_other (hptp : f.etherType ≠ 0x88F7) (hecpri : f.etherType ≠ 0xAEFE) :
    execFrameReceive p f s = .next (s.hostFrame p f false) := by
  refine next_when_eq hup ?_
  rw [if_neg (RxFrame.wellFormed hmin hmax hfcs hflow), if_neg htags.not_ge, if_neg hptp, if_neg hecpri]

/-- An eCPRI frame. -/
theorem execFrameReceive_ecpri (htype : f.etherType = 0xAEFE) : execFrameReceive p f s = .next (s.ecpriFrame p f) := by
  have hptp : f.etherType ≠ 0x88F7 := by omega
  refine next_when_eq hup ?_
  rw [if_neg (RxFrame.wellFormed hmin hmax hfcs hflow), if_neg htags.not_ge, if_neg hptp, if_pos htype]
  rfl

end

/-! Frames that a port sends (R340, R344 to R347, R351, R439, R444). -/

/-- The state in which the scheduler of a free port chooses: brought up to now, without radio frames that are late (R340, R346). -/
def State.egressReady (s : State) (p : Nat) : State :=
  [14, 13].foldl (fun (s : State) q => dropHeads ((s.port p).queue q).length s p q) ((s.portSync p).setPort p { (s.portSync p).port p with sending := 0 })

section
variable {s : State} {p : Nat} (hup : s.portUp p = true) (hfree : (s.port p).busyUntil ≤ s.time.ticks)
include hup hfree

/-- A port that is up and has sent its frame is free to begin the next. -/
theorem egressFrameStart_guard : (s.portUp p && decide ((s.port p).busyUntil ≤ s.time.ticks)) = true := by
  rw [hup, decide_eq_true hfree]
  rfl

/-- A free port begins the frame of the queue that its scheduler chooses. -/
theorem execEgressFrameStart_chosen {q : Nat} (hchoice : ((s.egressReady p).egressChoice p).2 = some q) :
    execEgressFrameStart p s = .next (((s.egressReady p).setPort p ((s.egressReady p).egressChoice p).1).beginFrame p q) := by
  refine next_when_eq (egressFrameStart_guard hup hfree) ?_
  rw [← State.egressReady, hchoice]

/-- With no queue chosen a free port keeps the turn as the scheduler leaves it. -/
theorem execEgressFrameStart_idle (hchoice : ((s.egressReady p).egressChoice p).2 = none) :
    execEgressFrameStart p s = .next ((s.egressReady p).setPort p ((s.egressReady p).egressChoice p).1) := by
  refine next_when_eq (egressFrameStart_guard hup hfree) ?_
  rw [← State.egressReady, hchoice]

end

/-- A bound cell in service asks for a delay measurement when its period has passed. -/
theorem execDelayMeasRequestTx_due {s : State} {c : Nat} (hc : c < 256) (hperiod : s.regN (Reg.bindDelayMeasPeriod c) ≠ 0) (hcell : s.cellSt c ≠ 0)
    (hdue : (s.cell c).measuredAt = 0 ∨ s.passed ((s.cell c).measuredAt - 1) (1000000 * s.regN (Reg.bindDelayMeasPeriod c)) = true) :
    execDelayMeasRequestTx c s = .next ((s.setCell c { s.cell c with measuredAt := s.time.ticks + 1 }).enqueue (s.regN (Reg.bindFhPort c)) 12
      { kind := 3, length := 64, cell := c, content := [0] }) := by
  refine next_when ?_
  rw [decide_eq_true (⟨hc, hperiod⟩ : c < 256 ∧ s.regN (Reg.bindDelayMeasPeriod c) ≠ 0), bne_iff_ne.mpr hcell, Bool.true_and, Bool.true_and, Bool.or_eq_true,
    beq_iff_eq]
  exact hdue

/-- An admitted FRAME_TX with the body `b`: refused for its length, then for its queue (log entry 12), else queued and complete (log entry 53). -/
def State.sendFrame (s : State) (d : Desc) (b : FrameTxBody) (content : List Byte) : State :=
  if b.length < 60 ∨ 9212 < b.length then s.refuse d 39
  else if (d.klass = 0 ∧ ¬(8 ≤ b.queue ∧ b.queue ≤ 11)) ∨ (d.klass = 1 ∧ 7 < b.queue) then s.refuse d 3
  else s.descRead d b.bufAddr b.length content (fun bytes => (s.enqueue b.port b.queue (Machine.hostFrame d b bytes)).served d)

/-- An admitted FRAME_TX acts once its frame fits the host queues of its port. -/
theorem execFrameTx_admitted {s : State} {f r : Nat} {d : Desc} {x : Slot64} (content : List Byte) (hadm : s.admits f r d x [1, 2])
    (hop : isOp 0x18 x = true) (hroom : s.hostDepth (frameBodyOf x []).port + (frameBodyOf x []).length + 4 ≤ 1048576) :
    execFrameTx f r content s = .next ((s.takeDesc f r).sendFrame d (frameBodyOf x []) content) := by
  have hnext : s.nextDesc f r = some (d, x) := hadm.left
  refine next_when_eq ?room (admit_ok s f r d x _ _ _ hadm hop)
  case room =>
    rw [hnext]
    exact decide_eq_true hroom

section
variable {u : State} {d : Desc} {b : FrameTxBody}

/-- A length that no frame has is refused with 39. -/
theorem State.sendFrame_badLength (content : List Byte) (hlength : b.length < 60 ∨ 9212 < b.length) : u.sendFrame d b content = u.refuse d 39 :=
  if_pos hlength

variable (hmin : 60 ≤ b.length) (hmax : b.length ≤ 9212)
include hmin hmax

/-- A queue that the class of the descriptor may not use is refused with 3. -/
theorem State.sendFrame_badQueue (content : List Byte)
    (hqueue : ¬((d.klass = 0 → 8 ≤ b.queue ∧ b.queue ≤ 11) ∧ (d.klass = 1 → b.queue ≤ 7))) : u.sendFrame d b content = u.refuse d 3 := by
  rw [State.sendFrame, if_neg (by omega), if_pos (by omega)]

/-- A frame whose bytes can be read enters its queue, and its descriptor is served. -/
theorem State.sendFrame_queued {content bs : List Byte} (hqueue : (d.klass = 0 → 8 ≤ b.queue ∧ b.queue ≤ 11) ∧ (d.klass = 1 → b.queue ≤ 7))
    (hbs : u.vaRead d.context b.bufAddr b.length content = .ok (bs, false)) :
    u.sendFrame d b content = (u.enqueue b.port b.queue (Machine.hostFrame d b bs)).served d := by
  rw [State.sendFrame, if_neg (by omega), if_neg (by omega), State.descRead_ok _ hbs]

end

/-- The write-back of a frame that has left or was discarded is written for an ENABLED function, then CONS. -/
theorem execFrameTxWriteback_enabled {s : State} {f r : Nat} {w : WriteBack}
    (hdone : s.ports.done.find? (fun w => w.func == f && w.ring == r && decide (w.tick ≤ s.time.ticks)) = some w)
    (hfunc : s.reg (Reg.functionState f) = 1) :
    let use := (s.ring f r).inUse.filter (fun i => i != w.slot)
    let u := { s with ports := { s.ports with done := s.ports.done.erase w } }
    execFrameTxWriteback f r s = .next (((u.setRing f r { s.ring f r with inUse := use }).emit
      (.writeBack f r w.slot (bytesOf 16 (2 ^ 127 + w.status % 128 * 2 ^ 120 + w.time % 2 ^ 80)))).emit (.header f r 0 (use.headD (s.ring f r).cons))) := by
  simp only [execFrameTxWriteback, hdone]
  refine congrArg _ ((if_pos hfunc).trans ?_)
  cases (s.ring f r).inUse.filter (fun i => i != w.slot) with
  | nil => rfl
  | cons i rest => rfl

/-- The queues of a port with a mode are sampled once at every LNC that is a multiple of 20. -/
theorem execTelemetrySample_due {s : State} {p : Nat} (hp : p < 64) (hlnc : s.lnc % 20 = 0) (hnew : (s.port p).sampledAt ≠ s.lnc + 1)
    (hmode : s.reg (Reg.portMode p) ≠ 0) :
    let u := (List.range 16).foldl (fun s q => s.telSample p q) s
    execTelemetrySample p s = .next (u.setPort p { u.port p with sampledAt := s.lnc + 1, clearing := [] }) :=
  next_when (by rw [decide_eq_true ⟨hp, hlnc, hnew⟩, bne_iff_ne.mpr hmode]; rfl)

/-- Settles O43: a frame received goes by its form, tags and EtherType, a frame to send by its room, length and queue, and each other row acts under
its condition. The instant at which a FRAME_TX completes is log entry 53, the order of its refusals 39 and 3 log entry 12, what a port that goes down
discards log entry 37, and the sample at which a cleared entry starts anew log entry 111. -/
theorem ethernetPorts : Obligations.EthernetPorts := by
  intro s p
  refine ⟨execPortLinkUp_trained, fun hup => ⟨next_when hup, fun f => ⟨execFrameReceive_malformed hup, ?received⟩, fun hfree => ?egress⟩,
    fun c => execDelayMeasRequestTx_due, fun f r d y content hadm hop => ?frameTx, fun f r w => execFrameTxWriteback_enabled, execTelemetrySample_due⟩
  case received =>
    intro hmin hmax hfcs hflow
    refine ⟨execFrameReceive_tagged hup hmin hmax hfcs hflow, execFrameReceive_ptp hup hmin hmax hfcs hflow,
      execFrameReceive_other hup hmin hmax hfcs hflow, fun htags htype => ?ecpri⟩
    have hrow : exec (.frameReceive p f) s = .next (s.ecpriFrame p f) := execFrameReceive_ecpri hup hmin hmax hfcs hflow htags htype
    rw [hrow]
    exact ⟨fun hecpri => congrArg _ (State.ecpriFrame_headless hecpri),
      fun e y hecpri hmtype hstream => congrArg _ (State.ecpriFrame_iqData e y hecpri hmtype hstream),
      fun e hecpri hmtype hdst => congrArg _ (State.ecpriFrame_delay e hecpri hmtype hdst)⟩
  case egress => exact ⟨fun q => execEgressFrameStart_chosen hup hfree, execEgressFrameStart_idle hup hfree⟩
  case frameTx =>
    intro b u queues hroom
    have hrow : exec (.frameTx f r content) s = .next (u.sendFrame d b content) := execFrameTx_admitted content hadm hop hroom
    rw [hrow]
    exact ⟨fun hlength => congrArg _ (State.sendFrame_badLength content hlength),
      fun hmin hmax hqueue => congrArg _ (State.sendFrame_badQueue hmin hmax content hqueue),
      fun bs hmin hmax hqueue hbs => congrArg _ (State.sendFrame_queued hmin hmax hqueue hbs)⟩

end Sys2Proof.Machine

/-! PROOFS. The statements of the family 12_memory.md: function resets and the start of the chip, mappings and training of GDDR7 with the firmware
switches, and what reset leaves. -/

namespace Sys2Proof.Machine

/-! Functions that are disabled or reset (R430, R431, R453 to R456). -/

section
variable {s : State} {f : Nat}

/-- A disabling is complete 10 ms after its event. -/
theorem functionDisableComplete_guard (hdisabling : s.reg (Reg.functionState f) = 2) (hset : (s.func f).disablingAt ≠ 0)
    (hdue : s.passed ((s.func f).disablingAt - 1) 10000000 = true) :
    (s.reg (Reg.functionState f) == 2 && decide ((s.func f).disablingAt ≠ 0) && s.passed ((s.func f).disablingAt - 1) 10000000) = true := by
  rw [beq_iff_eq.mpr hdisabling, decide_eq_true hset, hdue]
  rfl

section
variable (hlink : s.boot.link = true) (hexists : s.functionExists f = true)
include hlink hexists

/-- The host reaches a function that exists over a link that stands. -/
theorem functionReached_guard : (s.boot.link && s.functionExists f) = true := by
  rw [hlink, hexists]
  rfl

/-! TDISP (R457) with the request codes of log entry 55. -/

variable {code : Nat} (nonceOk : Bool) (hvf : 1 ≤ f)
include hvf

/-- TDISP is served on a VF that the host reaches. -/
theorem tdispRequest_guard : (decide (1 ≤ f) && s.boot.link && s.functionExists f) = true := by
  rw [decide_eq_true hvf, hlink, hexists]
  rfl

/-- A lock moves an unlocked interface to CONFIG_LOCKED. -/
theorem execTdispRequest_lock (hunlocked : (s.func f).tdi = 0) :
    execTdispRequest f 0x83 nonceOk s = .next (((s.setFunc f { s.func f with tdi := 1 }).emit
      (.spdm (.doe f) (0x83 - 0x80) (BitVec.ofNat 8 1 :: Config.freeBytes s.free 64))).fresh) :=
  next_when_eq (tdispRequest_guard hlink hexists hvf) (by simp only [if_pos hunlocked])

/-- A start with the nonce of its lock moves a locked interface to RUN. -/
theorem execTdispRequest_start (hlocked : (s.func f).tdi = 1) :
    execTdispRequest f 0x86 true s = .next (((s.setFunc f { s.func f with tdi := 2 }).emit
      (.spdm (.doe f) (0x86 - 0x80) (BitVec.ofNat 8 2 :: Config.freeBytes s.free 64))).fresh) :=
  next_when_eq (tdispRequest_guard hlink hexists hvf) (by simp only [hlocked, and_self, if_true])

/-- A stop unlocks the interface. -/
theorem execTdispRequest_stop :
    execTdispRequest f 0x87 nonceOk s = .next (((s.setFunc f { s.func f with tdi := 0 }).emit
      (.spdm (.doe f) (0x87 - 0x80) (BitVec.ofNat 8 0 :: Config.freeBytes s.free 64))).fresh) :=
  next_when (tdispRequest_guard hlink hexists hvf)

/-- A code below the requests is answered TDISP_ERROR. -/
theorem execTdispRequest_unknown (hcode : code < 0x81) :
    execTdispRequest f code nonceOk s = .next (s.emit (.spdm (.doe f) 0x7F [BitVec.ofNat 8 (s.func f).tdi])) := by
  refine next_when_eq (tdispRequest_guard hlink hexists hvf) ?_
  split
  case h_1 x hnext =>
    split at hnext
    case h_8 => cases hnext
    all_goals omega
  case h_2 => rfl

end

/-- K_SET_STOP over the secure session of a function stops the key set of its stream (R457). -/
theorem execIdeKmRequest_setStop {body : List Byte} (hexists : s.functionExists f = true) (hlink : s.boot.link = true)
    (hsession : (s.spdmOf (.doe f)).session = 2) (hobject : (body.getD 0 0).toNat = 5) :
    let id := (body.getD 3 0).toNat
    let k := (body.getD 5 0).toNat
    let x : IdeStream := Table.get {} s.sec.ide id
    execIdeKmRequest (.doe f) body s = .next (({ s with sec := { s.sec with
      ide := Table.put {} s.sec.ide id { x with going := x.going.filter (fun j => j != k) } } }).emit
        (.spdm (.doe f) 0 ([6, 0, 0, id, 0, k, (body.getD 6 0).toNat].map (fun n => BitVec.ofNat 8 n)))) := by
  refine next_when_eq ?guard ?stops
  case guard =>
    dsimp only
    rw [hexists, hlink, beq_iff_eq.mpr hsession]
    rfl
  case stops => simp only [hobject]

end

/-! The start of the chip (R556, R558, R564). -/

/-- The banks as the ROM finds them: written, or as they left the factory (log entry 14). -/
def State.withBanks (s : State) (a b : List Byte) : State :=
  if s.sec.banks = [] then { s with sec := { s.sec with banks := [(0, bundleOf a), (1, bundleOf b)] } } else s

/-- Chip control starts from the set of bank `k`, which is active from then on. -/
def State.startBank (s : State) (k : Nat) : State :=
  ((((({ s with sec := { s.sec with bank := k } } : State).runSet (s.bank k)).setDomain 38 true).setDomain 39 true).setReg Reg.startupStage 2).applyBook

/-- What the factory left in the banks does not choose the active one. -/
theorem State.withBanks_bank (s : State) (a b : List Byte) : (s.withBanks a b).sec.bank = s.sec.bank := by
  rw [State.withBanks]
  split <;> rfl

/-- The ROM starts chip control from the active bank's set where it is valid, else from the other's; with neither the boot fails. -/
theorem execStartupVerifyDone_rom {s : State} (a b : List Byte) (hrom : s.reg Reg.startupStage = 1) :
    let u := s.withBanks a b
    let n := s.sec.bank
    execStartupVerifyDone a b s = .next (if u.setOk (u.bank n) = true then u.startBank n
      else if u.setOk (u.bank (1 - n)) = true then u.startBank (1 - n) else u.bootFails) := by
  intro u n
  have hbanks : (if s.sec.banks.isEmpty = true then { s with sec := { s.sec with banks := [(0, bundleOf a), (1, bundleOf b)] } } else s) = u :=
    if_congr List.isEmpty_iff rfl rfl
  have hactive : u.sec.bank = n := s.withBanks_bank a b
  refine next_when_eq (beq_iff_eq.mpr hrom) ?_
  rw [hbanks, hactive]
  rfl

/-- Chip control serves once the training of GDDR7 has ended. -/
theorem chipControlServing_guard {s : State} (hstage : s.reg Reg.startupStage = 2) (htrained : s.reg Reg.trainStatus ≠ 0) :
    (s.reg Reg.startupStage == 2 && s.reg Reg.trainStatus != 0) = true := by
  rw [beq_iff_eq.mpr hstage, bne_iff_ne.mpr htrained]
  rfl

/-- Settles O38: each row acts under its own condition. The TDISP and IDE_KM codes are log entry 55, and that VF Enable goes with the link is log
entry 56. -/
theorem functionsAndStart : Obligations.FunctionsAndStart := by
  intro s f g
  refine ⟨fun hdisabling hset hdue => next_when (functionDisableComplete_guard hdisabling hset hdue),
    fun hlink => ⟨fun hexists => ⟨next_when (functionReached_guard hlink hexists), next_when (functionReached_guard hlink hexists),
      fun code ok hvf => ?tdisp⟩, next_when hlink, next_when hlink⟩,
    next_when, fun body => execIdeKmRequest_setStop, execStartupVerifyDone_rom,
    fun hstage htrained => next_when (chipControlServing_guard hstage htrained)⟩
  case tdisp =>
    refine ⟨?lock, ?start, ?stop, execTdispRequest_unknown hlink hexists ok hvf⟩
    case lock =>
      rintro rfl hunlocked
      exact execTdispRequest_lock hlink hexists ok hvf hunlocked
    case start =>
      rintro rfl hlocked rfl
      exact execTdispRequest_start hlink hexists hvf hlocked
    case stop =>
      rintro rfl
      exact execTdispRequest_stop hlink hexists ok hvf

/-! Mappings of GDDR7 and its pages (R357, R360, R374, R375, R594). -/

section
variable {s : State} {f r : Nat} {d : Desc} {x : Slot64} (hadm : s.admits f r d x [1, 2])
include hadm

/-- A MAP that no reason refuses maps its range. -/
theorem execMap_accepted (hop : isOp 0x09 x = true) (hreason : (s.takeDesc f r).mapReason d (mapBodyOf x) = none) :
    execMap f r s = .next (((s.takeDesc f r).mapRange d (mapBodyOf x)).served d) := by
  rw [execMap, admit_ok s f r d x _ _ _ hadm hop]
  simp only [hreason]

/-- A MAP that a reason stops is refused with it. -/
theorem execMap_refused {e : Nat} (hop : isOp 0x09 x = true) (hreason : (s.takeDesc f r).mapReason d (mapBodyOf x) = some e) :
    execMap f r s = .next ((s.takeDesc f r).refuse d e) := by
  rw [execMap, admit_ok s f r d x _ _ _ hadm hop]
  simp only [hreason]

/-- An UNMAP that no reason refuses removes the mappings of its range. -/
theorem execUnmap_accepted (hop : isOp 0x0A x = true) :
    let u := s.takeDesc f r
    let count := mapBits x 447 416
    let va := mapBits x 383 320
    u.unmapReason d count va = none →
    execUnmap f r s = .next ((u.dropMaps d.context (u.mapsIn d.context (bits va 42 0 / 65536) (bits va 42 0 / 65536 + count))).served d) := by
  intro u count va hreason
  rw [execUnmap, admit_ok s f r d x _ _ _ hadm hop]
  simp only [u, count, va] at hreason ⊢
  simp only [hreason]

end

/-! Training and retraining (R365, R367, R371 to R373). -/

/-- The first training at a density that the devices can have ends READY with the usable bytes, or failed with the devices that failed. -/
theorem execGddr7TrainingDone_first {s : State} {density : Nat} (failed : List Nat) (hfirst : s.reg Reg.trainStatus = 0)
    (hdensity : density = 32 ∨ density = 64 ∨ density = 128) :
    let n := s.mem.devices
    let bad := failed.filter (fun d => decide (d < 16) && (n == 16 || decide (d % 4 < 2)))
    let u := { s with mem := { s.mem with failed := bad } }
    execGddr7TrainingDone density failed s = .next (
      if bad = [] then ((u.setReg Reg.gddr7Density density).setReg Reg.gddr7DataBytes (usableBytes n density)).setReg Reg.trainStatus 1
      else u.setReg Reg.trainStatus 16) := by
  intro n bad u
  refine next_when_eq ?guard ?ends
  case guard =>
    rw [beq_iff_eq.mpr hfirst, Bool.true_and, List.contains_iff_mem]
    simpa using hdensity
  case ends => exact if_congr List.isEmpty_iff rfl rfl

/-- The clocks are tracked every 100 ms once training has ended READY. -/
theorem wckTracking_guard {s : State} (hready : s.reg Reg.trainStatus = 1) (hdue : s.passed s.mem.wckAt 100000000 = true) :
    (s.reg Reg.trainStatus == 1 && s.passed s.mem.wckAt 100000000) = true := by
  rw [beq_iff_eq.mpr hready, hdue]
  rfl

/-! The live switch of firmware (R542, R543) and anti-rollback (R566, R570). -/

/-- A switch that is set, and does not run yet, begins at its LNC. -/
theorem fwSwitch_guard {s : State} {n x : Nat} (hn : n < 9) (hset : x ≠ 0) (hlnc : x - 1 ≤ s.lnc) (hidle : Table.has s.relia.switching n = false) :
    (decide (n < 9 ∧ x ≠ 0 ∧ x - 1 ≤ s.lnc) && !Table.has s.relia.switching n) = true := by
  rw [decide_eq_true ⟨hn, hset, hlnc⟩, hidle]
  rfl

section
variable {s : State} {n : Nat} {x : FwSwitch} (hx : Table.find? s.relia.switching n = some x)
include hx

/-- With no cells to pass, a switch that is not in its self-check goes on when its time has come: to the first core, to the second, or to its end. -/
theorem execFwConductorPass_noCells (hphase : x.phase ≠ 1) (hcells : n = 8 ∨ s.clusterCells n = [])
    (hdue : 50 * x.checkAt + (if x.phase = 0 then 1000000 else 20000000) ≤ s.nowNs) :
    execFwConductorPass n s = .next (if x.phase = 0 then s.setSwitch n { core := 0, phase := 1 }
      else if x.core = 0 then s.setSwitch n { core := 1, phase := 1 } else s.switchDone n) := by
  have hnone : (if n = 8 then [] else s.clusterCells n) = [] := ite_eq_left_iff.mpr hcells.resolve_left
  simp only [execFwConductorPass, hx, hnone]
  refine next_when_eq (bne_iff_ne.mpr hphase) ?_
  simp [hdue]

/-- A failed self-check of chip control cancels every later switch and leaves its core hung. -/
theorem execFwSelfcheckFail_chipControl (hphase : x.phase = 1) (hn : n = 8) :
    let u := ({ s with relia := { s.relia with switches := [], switching := Table.erase s.relia.switching n } }).setReg Reg.fwStatus 19
    execFwSelfcheckFail n s =
      .next { u with relia := { u.relia with ctHung := u.relia.ctHung ++ [x.core], ctCheck := Table.put 0 u.relia.ctCheck x.core 0 } } := by
  simp only [execFwSelfcheckFail, hx]
  exact next_when_eq (beq_iff_eq.mpr hphase) (if_pos hn)

/-- A failed self-check of a cluster cancels every later switch and leaves its core hung. -/
theorem execFwSelfcheckFail_cluster (hphase : x.phase = 1) (hn : n ≠ 8) :
    let u := ({ s with relia := { s.relia with switches := [], switching := Table.erase s.relia.switching n } }).setReg Reg.fwStatus 19
    execFwSelfcheckFail n s =
      .next { u with radio := { u.radio with hung := u.radio.hung ++ [2 * n + x.core], checks := Table.put 0 u.radio.checks (2 * n + x.core) 0 } } := by
  simp only [execFwSelfcheckFail, hx]
  exact next_when_eq (beq_iff_eq.mpr hphase) (if_neg hn)

end

/-- With no bundle that waits, an advance raises its count and derives the alias key again. -/
theorem execRollbackAdvanceComplete_noBundle {s : State} (hruns : s.sec.advancing ≠ 0) (hwaiting : s.sec.waiting = []) :
    let u := ({ s with sec := { s.sec with advancing := 0, waiting := [] } }).setReg (Reg.rollbackCount (s.sec.advancing - 1))
      (min ((s.lowestSvn s.sec.advancing).getD 0) 256 : Nat)
    execRollbackAdvanceComplete s = .next (u.setReg Reg.rollbackStatus 2).rederive := by
  refine next_when_eq (decide_eq_true hruns) ?_
  rw [hwaiting, List.foldl_nil]

/-- Settles O39: an admitted MAP and UNMAP by their reason, and each event under its own condition. That a MAP takes the lowest free pages is log
entry 11, and that a page of another function is refused as one that is mapped is log entry 25. -/
theorem memoryAndFirmware : Obligations.MemoryAndFirmware := by
  intro s
  exact ⟨fun f r d x hadm => ⟨execMap_accepted hadm, fun e => execMap_refused hadm, execUnmap_accepted hadm⟩,
    fun page hheld => next_when (decide_eq_true hheld),
    fun density failed => execGddr7TrainingDone_first failed,
    fun hready hdue => next_when (wckTracking_guard hready hdue),
    fun dev => ⟨fun hset hlnc hdev => next_when (decide_eq_true ⟨hset, hlnc, hdev⟩), next_when⟩,
    fun n hn hset hlnc hidle => next_when (fwSwitch_guard hn hset hlnc hidle),
    fun n x hx => ⟨execFwConductorPass_noCells hx, execFwSelfcheckFail_chipControl hx, execFwSelfcheckFail_cluster hx⟩,
    execRollbackAdvanceComplete_noBundle⟩

/-! What reset leaves (R57, R374, R409, R467, R516). -/

/-- After reset every number object reads the default of its table. -/
theorem State.reset_reg (k : Nat) : State.reset.reg k = regDefault k := rfl

/-- After reset every byte of SRAM reads zero. -/
theorem State.reset_tile_byte (n addr : Nat) : (State.reset.tile n).byte addr = 0 := rfl

/-- After reset the system time counter stands at zero. -/
theorem State.reset_timeOk : State.reset.timeOk := ⟨by decide, by decide⟩

/-- After reset there is neither a PCI Express link nor a VF. -/
theorem State.reset_linkOk : State.reset.linkOk := ⟨fun _ => rfl, fun _ => rfl⟩

/-- Settles O59: the tables are empty, and the values asked for are the defaults of their objects; those that the spec does not give are log
entry 3. -/
theorem resetState : Obligations.ResetState := by
  refine ⟨rfl, State.reset_reg, State.reset_tile_byte, rfl, rfl, rfl, State.reset_timeOk, State.reset_linkOk, rfl, ?_⟩
  simp only [State.reset_reg]
  decide +kernel

end Sys2Proof.Machine

/-! PROOFS. The statements of the family 13_fabric.md and after: every step keeps the invariant of the PCI Express link, for only a few rows drive what
it reads. -/

namespace Sys2Proof.Machine

/-! What the invariant of the PCI Express link reads. -/

/-- PERST_N, the link, and VF Enable: all that the invariant reads. -/
def State.linkPins (s : State) : Bool × Bool × Bool := (s.boot.perst, s.boot.link, s.boot.vfEnable)

theorem State.linkPins_of_boot {s t : State} (h : t.boot = s.boot) : t.linkPins = s.linkPins := by
  simp only [State.linkPins, h]

/-- A record of the state that takes `boot` from `u` has the pins of `u`. -/
@[simp] theorem State.linkPins_mk (u : State)
    (pending out free time dict tiles tasks nextTask parts booked admitted plls mem fabric sync rings funcs kernels models radio ports power relia sec) :
    (State.mk pending out free time dict tiles tasks nextTask parts booked admitted plls mem fabric sync rings funcs kernels models radio ports power relia
      u.boot sec).linkPins = u.linkPins :=
  State.linkPins_of_boot (by rfl)

@[simp] theorem State.linkPins_mk_boot
    (pending out free time dict tiles tasks nextTask parts booked admitted plls mem fabric sync rings funcs kernels models radio ports
    power relia from' asked instant perst perstAt link vfEnable sec) :
    (State.mk pending out free time dict tiles tasks nextTask parts booked admitted plls mem fabric sync rings funcs kernels models radio ports power relia
      (BootState.mk from' asked instant perst perstAt link vfEnable) sec).linkPins = (perst, link, vfEnable) := rfl

@[simp] theorem State.pins_eq_linkPins (s : State) : (s.boot.perst, s.boot.link, s.boot.vfEnable) = s.linkPins := rfl

@[simp] theorem State.linkPins_ite (c : Prop) [Decidable c] (s t : State) :
    (if c then s else t).linkPins = if c then s.linkPins else t.linkPins := apply_ite State.linkPins c s t

theorem State.linkPins_of_ite {c : Prop} [Decidable c] {s t u : State} (ht : t.linkPins = s.linkPins) (hu : u.linkPins = s.linkPins) :
    (if c then t else u).linkPins = s.linkPins := by
  split <;> assumption

theorem State.linkPins_of_when {c : Bool} {s t : State} (ht : t.linkPins = s.linkPins) : (s.when c t).linkPins = s.linkPins :=
  State.linkPins_of_ite ht rfl

@[simp] theorem State.when_linkPins (s t : State) (c : Bool) : (s.when c t).linkPins = if c then t.linkPins else s.linkPins :=
  apply_ite State.linkPins _ t s

/-- A list of changes leaves the pins that each change leaves. -/
@[simp] theorem State.linkPins_foldl {α : Type} {f : State → α → State} (hf : ∀ t a, (f t a).linkPins = t.linkPins) (l : List α) (s : State) :
    (l.foldl f s).linkPins = s.linkPins := by
  induction l generalizing s with
  | nil => rfl
  | cons a l ih => exact (ih _).trans (hf s a)

@[simp] theorem State.linkPins_foldl_fst {α β : Type} {f : State × β → α → State × β} (hf : ∀ x a, (f x a).1.linkPins = x.1.linkPins) (l : List α)
    (x : State × β) : (l.foldl f x).1.linkPins = x.1.linkPins := by
  induction l generalizing x with
  | nil => rfl
  | cons a l ih => exact (ih _).trans (hf x a)

@[simp] theorem State.linkPins_foldl_snd {α β : Type} {f : β × State → α → β × State} (hf : ∀ x a, (f x a).2.linkPins = x.2.linkPins) (l : List α)
    (x : β × State) : (l.foldl f x).2.linkPins = x.2.linkPins := by
  induction l generalizing x with
  | nil => rfl
  | cons a l ih => exact (ih _).trans (hf x a)

/-- The state that `o` answers, if any, has the pins of `s`. -/
def KeepsPins (s : State) (o : Option State) : Prop := ∀ t, o = some t → t.linkPins = s.linkPins

@[simp] theorem keepsPins_none (s : State) : KeepsPins s none := fun t ht => by cases ht

@[simp] theorem keepsPins_some (s t : State) : KeepsPins s (some t) ↔ t.linkPins = s.linkPins :=
  ⟨fun h => h t rfl, fun h _ hu => Option.some.inj hu ▸ h⟩

@[simp] theorem keepsPins_ite (s : State) (c : Prop) [Decidable c] (o o' : Option State) :
    KeepsPins s (if c then o else o') ↔ if c then KeepsPins s o else KeepsPins s o' := iff_of_eq (apply_ite (KeepsPins s) c o o')

@[simp] theorem keepsPins_map {α : Type} (s : State) (o : Option α) {f : α → State} (hf : ∀ a, (f a).linkPins = s.linkPins) :
    KeepsPins s (o.map f) := by
  intro t ht
  obtain ⟨a, -, rfl⟩ := Option.map_eq_some_iff.mp ht
  exact hf a

/-! The pins through Machine/Ops.lean. -/

@[simp] theorem State.setReg_linkPins (s : State) (k : Nat) (v : Int) : (s.setReg k v).linkPins = s.linkPins := State.linkPins_of_boot (State.setReg_boot ..)
@[simp] theorem State.bump_linkPins (s : State) (k by' : Nat) : (s.bump k by').linkPins = s.linkPins := State.linkPins_of_boot (State.bump_boot ..)

@[simp] theorem State.setBlob_linkPins (s : State) (k : Nat) (bs : List Byte) : (s.setBlob k bs).linkPins = s.linkPins :=
  State.linkPins_of_boot (State.setBlob_boot ..)

@[simp] theorem State.clockGone_linkPins (s : State) : s.clockGone.linkPins = s.linkPins := by simp [State.clockGone]
@[simp] theorem State.emit_linkPins (s : State) (e : Emit) : (s.emit e).linkPins = s.linkPins := State.linkPins_of_boot (State.emit_boot ..)
@[simp] theorem State.fresh_linkPins (s : State) : s.fresh.linkPins = s.linkPins := State.linkPins_of_boot (State.fresh_boot ..)

@[simp] theorem State.setTile_linkPins (s : State) (n : Nat) (t : Tile) : (s.setTile n t).linkPins = s.linkPins :=
  State.linkPins_of_boot (State.setTile_boot ..)

@[simp] theorem State.updTile_linkPins (s : State) (n : Nat) (f : Tile → Tile) : (s.updTile n f).linkPins = s.linkPins :=
  State.linkPins_of_boot (State.updTile_boot ..)

@[simp] theorem State.setPart_linkPins (s : State) (p : Nat) (q : Machine.Part) : (s.setPart p q).linkPins = s.linkPins :=
  State.linkPins_of_boot (State.setPart_boot ..)

@[simp] theorem State.setTask_linkPins (s : State) (n : Nat) (t : Machine.Task) : (s.setTask n t).linkPins = s.linkPins :=
  State.linkPins_of_boot (State.setTask_boot ..)

@[simp] theorem State.updTask_linkPins (s : State) (n : Nat) (f : Machine.Task → Machine.Task) : (s.updTask n f).linkPins = s.linkPins :=
  State.linkPins_of_boot (State.updTask_boot ..)

@[simp] theorem State.dropTask_linkPins (s : State) (n : Nat) : (s.dropTask n).linkPins = s.linkPins := State.linkPins_of_boot (State.dropTask_boot ..)
@[simp] theorem State.addTask_linkPins (s : State) (t : Machine.Task) : (s.addTask t).linkPins = s.linkPins := State.linkPins_of_boot (State.addTask_boot ..)

@[simp] theorem State.setRing_linkPins (s : State) (f r : Nat) (g : Machine.Ring) : (s.setRing f r g).linkPins = s.linkPins :=
  State.linkPins_of_boot (State.setRing_boot ..)

@[simp] theorem State.setFunc_linkPins (s : State) (f : Nat) (g : Func) : (s.setFunc f g).linkPins = s.linkPins :=
  State.linkPins_of_boot (State.setFunc_boot ..)

@[simp] theorem State.freeTiles_linkPins (s : State) (n : Nat) (ts : List Nat) : (s.freeTiles n ts).linkPins = s.linkPins := by simp [State.freeTiles]
@[simp] theorem State.joinFlags_linkPins (s : State) (n : Nat) : (s.joinFlags n).linkPins = s.linkPins := by simp [State.joinFlags]

/-! The pins through Machine/PortBase.lean. -/

@[simp] theorem State.setPort_linkPins (s : State) (p : Nat) (x : Port) : (s.setPort p x).linkPins = s.linkPins :=
  State.linkPins_of_boot (State.setPort_boot ..)

@[simp] theorem State.setPortUp_linkPins (s : State) (p v : Nat) : (s.setPortUp p v).linkPins = s.linkPins := by simp [State.setPortUp]
@[simp] theorem State.portSync_linkPins (s : State) (p : Nat) : (s.portSync p).linkPins = s.linkPins := by simp [State.portSync]
@[simp] theorem State.trackMax_linkPins (s : State) (p q : Nat) : (s.trackMax p q).linkPins = s.linkPins := by simp [State.trackMax]

@[simp] theorem State.noteWriteBack_linkPins (s : State) (f : TxFrame) (status time tick : Nat) :
    (s.noteWriteBack f status time tick).linkPins = s.linkPins := by
  simp [State.noteWriteBack]

@[simp] theorem State.linkDiscard_linkPins (s : State) (p : Nat) (f : TxFrame) : (s.linkDiscard p f).linkPins = s.linkPins := by simp [State.linkDiscard]
@[simp] theorem State.enqueue_linkPins (s : State) (p q : Nat) (f : TxFrame) : (s.enqueue p q f).linkPins = s.linkPins := by simp [State.enqueue]

@[simp] theorem State.setQueue_linkPins (s : State) (p q : Nat) (l : List (Nat × TxFrame)) : (s.setQueue p q l).linkPins = s.linkPins := by
  simp [State.setQueue]

@[simp] theorem State.portFlush_linkPins (s : State) (p : Nat) : (s.portFlush p).linkPins = s.linkPins := by simp [State.portFlush]

/-! The pins through Machine/Dict.lean. -/

@[simp] theorem State.setSession_linkPins (s : State) (k : Nat) (x : Session) : (s.setSession k x).linkPins = s.linkPins :=
  State.linkPins_of_boot (State.setSession_boot ..)

@[simp] theorem State.commit_linkPins (s : State) (u : Nat) (vals : List (Nat × WData)) : (s.commit u vals).linkPins = s.linkPins := by simp [State.commit]

@[simp] theorem State.tryCommit_linkPins (s : State) (u : Nat) (vals : List (Nat × WData)) (ok : Bool) : (s.tryCommit u vals ok).2.linkPins = s.linkPins := by
  simp only [State.tryCommit]
  (repeat' split) <;> simp

/-! The pins through Machine/CellTime.lean. -/

@[simp] theorem State.setCell_linkPins (s : State) (c : Nat) (x : Cell) : (s.setCell c x).linkPins = s.linkPins :=
  State.linkPins_of_boot (State.setCell_boot ..)

@[simp] theorem State.updCell_linkPins (s : State) (c : Nat) (f : Cell → Cell) : (s.updCell c f).linkPins = s.linkPins :=
  State.linkPins_of_boot (State.updCell_boot ..)

@[simp] theorem State.setSlotWork_linkPins (s : State) (c n : Nat) (w : SlotWork) : (s.setSlotWork c n w).linkPins = s.linkPins := by simp [State.setSlotWork]

/-! The pins through Machine/Accounts.lean. -/

@[simp] theorem State.addCycles_linkPins (s : State) (f klass cycles : Nat) : (s.addCycles f klass cycles).linkPins = s.linkPins := by simp [State.addCycles]

@[simp] theorem State.moveCycles_linkPins (s : State) (f g klass cycles : Nat) : (s.moveCycles f g klass cycles).linkPins = s.linkPins := by
  simp [State.moveCycles]

@[simp] theorem State.chargeCycles_linkPins (s : State) (f klass tenths : Nat) : (s.chargeCycles f klass tenths).linkPins = s.linkPins := by
  simp [State.chargeCycles]

@[simp] theorem State.chargeBytes_linkPins (s : State) (f counter bytes : Nat) : (s.chargeBytes f counter bytes).linkPins = s.linkPins := by
  simp [State.chargeBytes]

/-! The pins through Machine/Sequencer.lean. -/

@[simp] theorem State.vsFault_linkPins (s : State) (n code : Nat) : (s.vsFault n code).linkPins = s.linkPins := by simp [State.vsFault]

@[simp] theorem vsRun_linkPins (s : State) (n : Nat) (i : VsCode) (op : Tile → Except Nat Tile) : (vsRun s n i op).linkPins = s.linkPins := by
  simp only [vsRun]
  (repeat' split) <;> simp

/-! The pins through Machine/Rings.lean. -/

@[simp] theorem State.raiseVector_linkPins (s : State) (f vector : Nat) : (s.raiseVector f vector).linkPins = s.linkPins := by simp [State.raiseVector]
@[simp] theorem State.deviceEvent_linkPins (s : State) : s.deviceEvent.linkPins = s.linkPins := by simp [State.deviceEvent]
@[simp] theorem State.raiseRing_linkPins (s : State) (f r : Nat) : (s.raiseRing f r).linkPins = s.linkPins := by simp [State.raiseRing]

@[simp] theorem State.countRecord_linkPins (s : State) (f r : Nat) (urgent : Bool) : (s.countRecord f r urgent).linkPins = s.linkPins := by
  simp [State.countRecord]

@[simp] theorem State.putRecord_linkPins (s : State) (f r : Nat) (x : Record) (urgent : Bool) : (s.putRecord f r x urgent).linkPins = s.linkPins := by
  simp [State.putRecord]

@[simp] theorem State.writeRecord_linkPins (s : State) (f r : Nat) (x : Record) (urgent : Bool) : (s.writeRecord f r x urgent).linkPins = s.linkPins := by
  simp [State.writeRecord]

@[simp] theorem flushHeld_linkPins (s : State) (f r : Nat) (held : List (Record × Bool)) : (flushHeld s f r held).linkPins = s.linkPins := by
  induction held generalizing s with
  | nil => simp [flushHeld]
  | cons x rest ih => simp [flushHeld, ih]

@[simp] theorem State.releaseSlot_linkPins (s : State) (d : Desc) : (s.releaseSlot d).linkPins = s.linkPins := by simp [State.releaseSlot]

@[simp] theorem State.refuse_linkPins (s : State) (d : Desc) (reason : Nat) (info : optParam Nat 0) : (s.refuse d reason info).linkPins = s.linkPins := by
  simp [State.refuse]

@[simp] theorem State.served_linkPins (s : State) (d : Desc) (info : optParam Nat 0) : (s.served d info).linkPins = s.linkPins := by simp [State.served]
@[simp] theorem State.takeDesc_linkPins (s : State) (f r : Nat) : (s.takeDesc f r).linkPins = s.linkPins := by simp [State.takeDesc]

@[simp] theorem State.admitDesc_linkPins (s : State) (f r : Nat) (mine : Slot64 → Bool) (kinds : List Nat) {act : State → Desc → Slot64 → State}
    (hact : ∀ t d x, (act t d x).linkPins = t.linkPins) : (s.admitDesc f r mine kinds act).linkPins = s.linkPins := by
  simp only [State.admitDesc]
  split
  · rfl
  · split
    · rfl
    · split <;> simp [hact]

@[simp] theorem State.fetch_linkPins (s : State) (f r : Nat) (h : Option Slot64) (slots : List Slot64) : (s.fetch f r h slots).linkPins = s.linkPins := by
  simp only [State.fetch]
  (repeat' split) <;> simp

/-! The pins through Machine/TimeBase.lean. -/

@[simp] theorem State.setTimeState_linkPins (s : State) (x : Nat) : (s.setTimeState x).linkPins = s.linkPins := by simp [State.setTimeState]
@[simp] theorem State.sourceGone_linkPins (s : State) : s.sourceGone.linkPins = s.linkPins := by simp [State.sourceGone]
@[simp] theorem State.ptpForget_linkPins (s : State) : s.ptpForget.linkPins = s.linkPins := by simp [State.ptpForget]
@[simp] theorem State.markBench_linkPins (s : State) (source : Nat) : (s.markBench source).linkPins = s.linkPins := by simp [State.markBench]
@[simp] theorem State.selectSource_linkPins (s : State) (v : Nat) : (s.selectSource v).linkPins = s.linkPins := by simp [State.selectSource]
@[simp] theorem State.applyStep_linkPins (s : State) (d : Int) : (s.applyStep d).linkPins = s.linkPins := by simp [State.applyStep]
@[simp] theorem State.countRefusedStep_linkPins (s : State) : s.countRefusedStep.linkPins = s.linkPins := by simp [State.countRefusedStep]
@[simp] theorem State.servo_linkPins (s : State) (offset : Int) : (s.servo offset).linkPins = s.linkPins := by simp [State.servo]
@[simp] theorem State.sourceUpdate_linkPins (s : State) (offset : Int) : (s.sourceUpdate offset).linkPins = s.linkPins := by simp [State.sourceUpdate]
@[simp] theorem State.tickTile_linkPins (s : State) (e : Nat × Tile) : (s.tickTile e).linkPins = s.linkPins := by simp [State.tickTile]
@[simp] theorem State.tickTiles_linkPins (s : State) : s.tickTiles.linkPins = s.linkPins := by simp [State.tickTiles]
@[simp] theorem State.tickPages_linkPins (s : State) : s.tickPages.linkPins = s.linkPins := by simp [State.tickPages]
@[simp] theorem State.tickStage_linkPins (s : State) : s.tickStage.linkPins = s.linkPins := by simp [State.tickStage]

@[simp] theorem State.takeIncrement_linkPins (s : State) : s.takeIncrement.linkPins = s.linkPins := by
  have hmine : ∀ (t : State) (p : PendingWrite), (match p.data with
      | .num _ v => if t.reg Reg.servoEnable = 1 then t else t.setReg Reg.increment v
      | .bytes _ => t).linkPins = t.linkPins := fun t p => by split <;> simp
  simp only [State.takeIncrement]
  split <;> simp only [State.setReg_linkPins, State.linkPins_mk] <;> exact State.linkPins_foldl hmine _ s

@[simp] theorem State.tickAll_linkPins (s : State) : s.tickAll.linkPins = s.linkPins := by simp [State.tickAll]
@[simp] theorem State.ptpChoose_linkPins (s : State) : s.ptpChoose.linkPins = s.linkPins := by simp [State.ptpChoose]
@[simp] theorem State.ptpUpdate_linkPins (s : State) (t1 t2 : Nat) : (s.ptpUpdate t1 t2).linkPins = s.linkPins := by simp [State.ptpUpdate]

@[simp] theorem State.ptpHear_linkPins (s : State) (port : Nat) (m : PtpMsg) : (s.ptpHear port m).linkPins = s.linkPins := by
  simp only [State.ptpHear]
  (repeat' split) <;> simp

theorem State.ptpMessage_linkPins (s : State) (port kind : Nat) {m : PtpMsg} {t : State} (h : s.ptpMessage port kind = some (m, t)) :
    t.linkPins = s.linkPins := by
  simp only [State.ptpMessage] at h
  split at h
  · cases h; simp
  · cases h; simp
  · split at h <;> cases h
    simp
  · cases h; simp
  · cases h

@[simp] theorem State.ptpStamp_linkPins (s : State) (port : Nat) (m : PtpMsg) : (s.ptpStamp port m).2.linkPins = s.linkPins := by
  simp only [State.ptpStamp]
  (repeat' split) <;> simp

@[simp] theorem State.ptpEmit_linkPins (s : State) (port : Nat) (m : PtpMsg) : (s.ptpEmit port m).linkPins = s.linkPins := by
  simp only [State.ptpEmit]
  split <;> simp

@[simp] theorem State.upstreamDown_linkPins (s : State) (link : Nat) : (s.upstreamDown link).linkPins = s.linkPins := by simp [State.upstreamDown]
@[simp] theorem State.capture_linkPins (s : State) (n : Nat) (rising : Bool) : (s.capture n rising).linkPins = s.linkPins := by simp [State.capture]
@[simp] theorem stepRequestRule_linkPins (s : State) (d : Int) : KeepsPins s (stepRequestRule s d) := by simp [stepRequestRule]
@[simp] theorem incrementRule_linkPins (s : State) : KeepsPins s (incrementRule s) := by simp [incrementRule]
@[simp] theorem ttArmRule_linkPins (s : State) (n v lnc : Nat) : KeepsPins s (ttArmRule s n v lnc) := by simp [ttArmRule]
@[simp] theorem ttPeriodRule_linkPins (s : State) (n v lnc : Nat) : KeepsPins s (ttPeriodRule s n v lnc) := by simp [ttPeriodRule]
@[simp] theorem ttArmEffect_linkPins (s : State) (n v : Nat) : (ttArmEffect s n v).linkPins = s.linkPins := by simp [ttArmEffect]

/-! The pins through Machine/FabricSend.lean. -/

@[simp] theorem State.setJob_linkPins (s : State) (j : Nat) (x : Job) : (s.setJob j x).linkPins = s.linkPins := State.linkPins_of_boot (State.setJob_boot ..)

@[simp] theorem State.setLink_linkPins (s : State) (l : Nat) (x : Link) : (s.setLink l x).linkPins = s.linkPins :=
  State.linkPins_of_boot (State.setLink_boot ..)

@[simp] theorem State.setLinkUp_linkPins (s : State) (l v : Nat) : (s.setLinkUp l v).linkPins = s.linkPins := by simp [State.setLinkUp]
@[simp] theorem State.putPacket_linkPins (s : State) (l : Nat) (p : Packet) : (s.putPacket l p).linkPins = s.linkPins := by simp [State.putPacket]
@[simp] theorem State.linkOut_linkPins (s : State) (l : Nat) (p : Packet) : (s.linkOut l p).linkPins = s.linkPins := by simp [State.linkOut]

@[simp] theorem pump_linkPins (fuel : Nat) (s : State) (l : Nat) : (pump fuel s l).linkPins = s.linkPins := by
  induction fuel generalizing s with
  | zero => rfl
  | succ fuel ih =>
    simp only [pump]
    split
    · rfl
    · simp [ih]

@[simp] theorem State.linkSend_linkPins (s : State) (l : Nat) (p : Packet) : (s.linkSend l p).linkPins = s.linkPins := by simp [State.linkSend]

@[simp] theorem State.route_linkPins (s : State) (p : Packet) : (s.route p).linkPins = s.linkPins := by
  simp only [State.route]
  (repeat' split) <;> simp

@[simp] theorem State.hearFrom_linkPins (s : State) (ns : List Nat) : (s.hearFrom ns).linkPins = s.linkPins := by simp [State.hearFrom]
@[simp] theorem State.hearQuad_linkPins (s : State) : s.hearQuad.linkPins = s.linkPins := by simp [State.hearQuad]
@[simp] theorem State.noteRemote_linkPins (s : State) (n : Nat) : (s.noteRemote n).linkPins = s.linkPins := by simp [State.noteRemote]
@[simp] theorem State.dropRuns_linkPins (s : State) (n : Nat) : (s.dropRuns n).linkPins = s.linkPins := by simp [State.dropRuns]

@[simp] theorem State.tagFor_linkPins (s : State) (r : Request) : (s.tagFor r).1.linkPins = s.linkPins := by
  simp only [State.tagFor]
  (repeat' split) <;> simp

@[simp] theorem State.transmit_linkPins (s : State) (n : Nat) (r : Request) : (s.transmit n r).linkPins = s.linkPins := by
  simp only [State.transmit]
  split <;> simp

@[simp] theorem State.issue_linkPins (s : State) (p : Packet) (ctx : Nat) (sink : Sink) : (s.issue p ctx sink).linkPins = s.linkPins := by simp [State.issue]

@[simp] theorem State.reissue_linkPins (s : State) : s.reissue.linkPins = s.linkPins := by
  simp only [State.reissue]
  split <;> simp

@[simp] theorem State.syncRequest_linkPins (s : State) (jobId klass node op homeId proxyId count : Nat) :
    (s.syncRequest jobId klass node op homeId proxyId count).linkPins = s.linkPins := by
  simp [State.syncRequest]

/-! The pins through Machine/SyncOps.lean. -/

@[simp] theorem State.setObject_linkPins (s : State) (i : Nat) (o : SyncObj) : (s.setObject i o).linkPins = s.linkPins :=
  State.linkPins_of_boot (State.setObject_boot ..)

@[simp] theorem State.syncCounts_linkPins (s : State) (f : Nat) : (s.syncCounts f).linkPins = s.linkPins := by simp [State.syncCounts]
@[simp] theorem State.dropObject_linkPins (s : State) (i f : Nat) : (s.dropObject i f).linkPins = s.linkPins := by simp [State.dropObject]

@[simp] theorem State.setQuiet_linkPins (s : State) (p : Nat) (q : Quiet) : (s.setQuiet p q).linkPins = s.linkPins :=
  State.linkPins_of_boot (State.setQuiet_boot ..)

@[simp] theorem State.forgetQuiet_linkPins (s : State) (p : Nat) : (s.forgetQuiet p).linkPins = s.linkPins := by simp [State.forgetQuiet]

@[simp] theorem State.syncSend_linkPins (s : State) (j klass node op homeId proxyId count : Nat) :
    (s.syncSend j klass node op homeId proxyId count).linkPins = s.linkPins := by
  simp [State.syncSend]

@[simp] theorem State.grant_linkPins (s : State) (i : Nat) (o : SyncObj) (w : Waiter) : (s.grant i o w).1.linkPins = s.linkPins := by
  simp only [State.grant]
  split <;> simp

@[simp] theorem serveWaiters_linkPins (s : State) (i : Nat) (ws : List Waiter) : (serveWaiters s i ws).1.linkPins = s.linkPins := by
  induction ws generalizing s with
  | nil => rfl
  | cons w r ih =>
    simp only [serveWaiters]
    split
    · rfl
    · (repeat' split) <;> simp [ih]

@[simp] theorem grantAll_linkPins (s : State) (i : Nat) (o : SyncObj) (ws : List Waiter) : (grantAll s i o ws).1.linkPins = s.linkPins := by
  induction ws generalizing s with
  | nil => rfl
  | cons w r ih => simp [grantAll, ih]

@[simp] theorem State.arrive_linkPins (s : State) (i : Nat) (o : SyncObj) : (s.arrive i o).1.linkPins = s.linkPins := by
  simp only [State.arrive]
  split <;> simp

@[simp] theorem State.applySignal_linkPins (s : State) (i : Nat) (o : SyncObj) (holder count : Nat) :
    (s.applySignal i o holder count).1.linkPins = s.linkPins := by
  simp only [State.applySignal]
  (repeat' split) <;> simp

@[simp] theorem State.evalWait_linkPins (s : State) (n : Nat) : (s.evalWait n).1.linkPins = s.linkPins := by
  simp only [State.evalWait]
  (repeat' split) <;> simp

@[simp] theorem runWaits_linkPins (fuel : Nat) (s : State) (work : List Nat) : (runWaits fuel s work).linkPins = s.linkPins := by
  induction fuel generalizing s work with
  | zero => simp [runWaits]
  | succ fuel ih =>
    cases work with
    | nil => simp [runWaits]
    | cons n r => simp [runWaits, ih]

@[simp] theorem State.markBoosts_linkPins (s : State) : s.markBoosts.linkPins = s.linkPins := by simp [State.markBoosts]
@[simp] theorem State.settle_linkPins (s : State) (work : List Nat) : (s.settle work).linkPins = s.linkPins := by simp [State.settle]

@[simp] theorem State.signalObject_linkPins (s : State) (i : Nat) (o : SyncObj) (ctx count : Nat) : (s.signalObject i o ctx count).linkPins = s.linkPins := by
  simp [State.signalObject]

@[simp] theorem State.refuseTask_linkPins (s : State) (n reason : Nat) : (s.refuseTask n reason).linkPins = s.linkPins := by simp [State.refuseTask]

/-- Giving units back is the operand of an abandonment. -/
@[simp] theorem State.abandonObject_linkPins (s : State) (i : Nat) (tell : Bool) {giveBack : State → Nat → State}
    (hback : ∀ t n, (giveBack t n).linkPins = t.linkPins) : (s.abandonObject i tell giveBack).linkPins = s.linkPins := by
  simp only [State.abandonObject]
  split
  · rfl
  · simp [hback]

@[simp] theorem State.returnUnits_linkPins (s : State) (n : Nat) : (s.returnUnits n).linkPins = s.linkPins := by
  refine State.linkPins_foldl (fun t e => ?_) _ _
  split <;> simp

@[simp] theorem State.abandon_linkPins (s : State) (i : Nat) : (s.abandon i).linkPins = s.linkPins := by simp [State.abandon]
@[simp] theorem State.abandonContext_linkPins (s : State) (ctx : Nat) : (s.abandonContext ctx).linkPins = s.linkPins := by simp [State.abandonContext]

/-! The pins through Machine/Translate.lean. -/

@[simp] theorem State.gddrWrite_linkPins (s : State) (pa : Nat) (bs : List Byte) : (s.gddrWrite pa bs).linkPins = s.linkPins := by simp [State.gddrWrite]

@[simp] theorem State.writePlace_linkPins (s : State) (x : Place) (b : Byte) : (s.writePlace x b).linkPins = s.linkPins := by
  simp only [State.writePlace]
  split <;> simp

theorem State.writeLocal_linkPins (s : State) (ctx off : Nat) (bs : List Byte) : KeepsPins s (s.writeLocal ctx off bs) := by
  simp [State.writeLocal]

@[simp] theorem State.faulted_linkPins (s : State) (d : Desc) (fault info : Nat) : (s.faulted d fault info).linkPins = s.linkPins := by simp [State.faulted]

@[simp] theorem State.descRead_linkPins (s : State) (d : Desc) (va n : Nat) (arrived : List Byte) {act : List Byte → State}
    (hact : ∀ bs, (act bs).linkPins = s.linkPins) : (s.descRead d va n arrived act).linkPins = s.linkPins := by
  simp only [State.descRead]
  split <;> simp [hact]

/-! The pins through Machine/Launch.lean. -/

@[simp] theorem State.setPll_linkPins (s : State) (c : Nat) (on : Bool) : (s.setPll c on).linkPins = s.linkPins := by simp [State.setPll]
@[simp] theorem State.setDomain_linkPins (s : State) (b : Nat) (on : Bool) : (s.setDomain b on).linkPins = s.linkPins := by simp [State.setDomain]
@[simp] theorem State.startWake_linkPins (s : State) (p : Nat) : (s.startWake p).linkPins = s.linkPins := by simp [State.startWake]
@[simp] theorem State.loadCode_linkPins (s : State) (n p : Nat) : (s.loadCode n p).linkPins = s.linkPins := by simp [State.loadCode]

@[simp] theorem State.loadEvicted_linkPins (s : State) (n r p : Nat) : (s.loadEvicted n r p).linkPins = s.linkPins := by
  simp only [State.loadEvicted]
  split <;> simp

@[simp] theorem State.place_linkPins (s : State) (n r p : Nat) : (s.place n r p).linkPins = s.linkPins := by simp [State.place]
@[simp] theorem State.noteSuspended_linkPins (s : State) (n : Nat) : (s.noteSuspended n).linkPins = s.linkPins := by simp [State.noteSuspended]
@[simp] theorem State.askOff_linkPins (s : State) (p : Nat) : (s.askOff p).linkPins = s.linkPins := by simp [State.askOff]
@[simp] theorem State.tryRank_linkPins (s : State) (n r p : Nat) : (s.tryRank n r p).linkPins = s.linkPins := by simp [State.tryRank]
@[simp] theorem State.startRanks_linkPins (s : State) (n : Nat) : (s.startRanks n).linkPins = s.linkPins := by simp [State.startRanks]
@[simp] theorem State.bookRadio_linkPins (s : State) (task : Nat) : (s.bookRadio task).linkPins = s.linkPins := by simp [State.bookRadio]
@[simp] theorem State.launchRadio_linkPins (s : State) (task : Nat) : (s.launchRadio task).linkPins = s.linkPins := by simp [State.launchRadio]

/-! The pins through Machine/Kernels.lean. -/

@[simp] theorem State.measure_linkPins (s : State) (f : Nat) (digest : List Byte) : (s.measure f digest).linkPins = s.linkPins := by simp [State.measure]
@[simp] theorem State.dropKernel_linkPins (s : State) (h : Nat) : (s.dropKernel h).linkPins = s.linkPins := by simp [State.dropKernel]

/-! The pins through Machine/Preempt.lean. -/

@[simp] theorem State.releaseTask_linkPins (s : State) (n : Nat) : (s.releaseTask n).linkPins = s.linkPins := by simp [State.releaseTask]
@[simp] theorem State.unqueue_linkPins (s : State) (n : Nat) : (s.unqueue n).linkPins = s.linkPins := by simp [State.unqueue]
@[simp] theorem State.dropInvocation_linkPins (s : State) (i : Nat) : (s.dropInvocation i).linkPins = s.linkPins := by simp [State.dropInvocation]
@[simp] theorem State.abortTask_linkPins (s : State) (n : Nat) : (s.abortTask n).linkPins = s.linkPins := by simp [State.abortTask]
@[simp] theorem State.abortWhere_linkPins (s : State) (f : Machine.Task → Bool) : (s.abortWhere f).linkPins = s.linkPins := by simp [State.abortWhere]
@[simp] theorem State.faultTask_linkPins (s : State) (n code info : Nat) : (s.faultTask n code info).linkPins = s.linkPins := by simp [State.faultTask]

/-! The pins through Machine/Memory.lean. -/

@[simp] theorem State.countUsed_linkPins (s : State) (f : Nat) : (s.countUsed f).linkPins = s.linkPins := by simp [State.countUsed]

@[simp] theorem State.allocPages_linkPins (s : State) (f n : Nat) : (State.allocPages s f n).1.linkPins = s.linkPins := by
  induction n generalizing s with
  | zero => rfl
  | succ n ih => simp [State.allocPages, ih]

@[simp] theorem State.freePageOf_linkPins (s : State) (p : Nat) : (s.freePageOf p).linkPins = s.linkPins := by simp [State.freePageOf]
@[simp] theorem State.freePages_linkPins (s : State) (ps : List Nat) : (s.freePages ps).linkPins = s.linkPins := by simp [State.freePages]
@[simp] theorem State.mapRange_linkPins (s : State) (d : Desc) (b : MapBody) : (s.mapRange d b).linkPins = s.linkPins := by simp [State.mapRange]

@[simp] theorem State.dropMaps_linkPins (s : State) (ctx : Nat) (gone : List (Nat × Mapping)) : (s.dropMaps ctx gone).linkPins = s.linkPins := by
  refine State.linkPins_foldl (fun t e => ?_) _ _
  dsimp only
  split
  · simp
  · split
    · rfl
    · split <;> simp

@[simp] theorem State.dropContextMaps_linkPins (s : State) (ctx : Nat) : (s.dropContextMaps ctx).linkPins = s.linkPins := by simp [State.dropContextMaps]
@[simp] theorem retrainRule_linkPins (s : State) (dev : Nat) : KeepsPins s (retrainRule s dev) := by simp [retrainRule]
@[simp] theorem retrainEffect_linkPins (s : State) (dev lnc : Nat) : (retrainEffect s dev lnc).linkPins = s.linkPins := by simp [retrainEffect]
@[simp] theorem cacheWaysRule_linkPins (s : State) (p v : Nat) : KeepsPins s (cacheWaysRule s p v) := by simp [cacheWaysRule]

/-! The pins through Machine/Fabric.lean. -/

@[simp] theorem State.respond_linkPins (s : State) (p : Packet) (op status result : Nat) (data : List Byte) :
    (s.respond p op status result data).linkPins = s.linkPins := by
  simp [State.respond]

@[simp] theorem State.atHome_linkPins (s : State) (p : Packet) {act : State → Nat → Nat → State}
    (hact : ∀ t j c, (act t j c).linkPins = t.linkPins) : (s.atHome p act).linkPins = s.linkPins := by
  simp only [State.atHome]
  split
  · rfl
  · split <;> simp [hact]

@[simp] theorem State.homeLoad_linkPins (s : State) (p : Packet) : (s.homeLoad p).linkPins = s.linkPins := by simp [State.homeLoad]
@[simp] theorem State.homeReadWord_linkPins (s : State) (p : Packet) : (s.homeReadWord p).linkPins = s.linkPins := by simp [State.homeReadWord]
@[simp] theorem State.setReplay_linkPins (s : State) (p : Packet) (r : Replay) : (s.setReplay p r).linkPins = s.linkPins := by simp [State.setReplay]

@[simp] theorem State.record_linkPins (s : State) (p : Packet) (status result : Nat) : (s.record p status result).linkPins = s.linkPins := by
  simp [State.record]

@[simp] theorem State.once_linkPins (s : State) (p : Packet) (op : Nat) {act : State → State} (hact : ∀ t, (act t).linkPins = t.linkPins) :
    (s.once p op act).linkPins = s.linkPins := by
  simp only [State.once]
  split
  · simp [hact]
  · split
    · simp
    · split
      · split
        · simp
        · split <;> simp
      · exact hact s

@[simp] theorem State.atomicAt_linkPins (s : State) (p : Packet) (c : Nat) : (s.atomicAt p c).1.linkPins = s.linkPins := by
  simp only [State.atomicAt]
  split
  · rfl
  · split
    · rfl
    case h_2 hwrite => exact State.writeLocal_linkPins s _ _ _ _ hwrite

@[simp] theorem State.applyAtomic_linkPins (s : State) (p : Packet) (c : Nat) : (s.applyAtomic p c).linkPins = s.linkPins := by simp [State.applyAtomic]

@[simp] theorem State.invalidateLine_linkPins (s : State) (j ctx off : Nat) : (s.invalidateLine j ctx off).linkPins = s.linkPins := by
  simp [State.invalidateLine]

@[simp] theorem State.applyStore_linkPins (s : State) (p : Packet) (c : Nat) : (s.applyStore p c).linkPins = s.linkPins := by
  simp only [State.applyStore]
  split
  case h_1 hwrite =>
    split at hwrite
    · cases hwrite
    · simpa using State.writeLocal_linkPins s _ _ _ _ hwrite
  case h_2 => simp

@[simp] theorem State.applyRequest_linkPins (s : State) (p : Packet) (c : Nat) : (s.applyRequest p c).linkPins = s.linkPins := by simp [State.applyRequest]

@[simp] theorem State.atomicHere_linkPins (s : State) (j : Nat) (p : Packet) : (s.atomicHere j p).1.linkPins = s.linkPins := by
  simp only [State.atomicHere]
  (repeat' split) <;> simp

@[simp] theorem State.writeShared_linkPins (s : State) (p : Packet) (j c : Nat) : (s.writeShared p j c).linkPins = s.linkPins := by simp [State.writeShared]
@[simp] theorem State.homeStore_linkPins (s : State) (p : Packet) : (s.homeStore p).linkPins = s.linkPins := by simp [State.homeStore]
@[simp] theorem State.homeAtomic_linkPins (s : State) (p : Packet) : (s.homeAtomic p).linkPins = s.linkPins := by simp [State.homeAtomic]

@[simp] theorem State.lineDropped_linkPins (s : State) (ctx off node : Nat) : (s.lineDropped ctx off node).linkPins = s.linkPins := by
  simp [State.lineDropped]

@[simp] theorem State.homeGetS_linkPins (s : State) (p : Packet) : (s.homeGetS p).linkPins = s.linkPins := by simp [State.homeGetS]
@[simp] theorem State.holderInv_linkPins (s : State) (p : Packet) : (s.holderInv p).linkPins = s.linkPins := by simp [State.holderInv]

@[simp] theorem State.homeInvAck_linkPins (s : State) (p : Packet) : (s.homeInvAck p).linkPins = s.linkPins := by
  simp only [State.homeInvAck]
  (repeat' split) <;> simp

@[simp] theorem State.homeEvict_linkPins (s : State) (p : Packet) : (s.homeEvict p).linkPins = s.linkPins := by
  simp only [State.homeEvict]
  (repeat' split) <;> simp

@[simp] theorem State.dropRequests_linkPins (s : State) (ctx : Nat) : (s.dropRequests ctx).linkPins = s.linkPins := by simp [State.dropRequests]
@[simp] theorem State.jobFault_linkPins (s : State) (j cause : Nat) : (s.jobFault j cause).linkPins = s.linkPins := by simp [State.jobFault]

@[simp] theorem State.jobIdFault_linkPins (s : State) (jobId cause : Nat) : (s.jobIdFault jobId cause).linkPins = s.linkPins := by
  simp only [State.jobIdFault]
  split <;> simp

@[simp] theorem State.tearDown_linkPins (s : State) (j cause : Nat) (quiet : Bool) : (s.tearDown j cause quiet).linkPins = s.linkPins := by
  simp [State.tearDown]

@[simp] theorem State.badStatus_linkPins (s : State) (r : Request) (status : Nat) : (s.badStatus r status).linkPins = s.linkPins := by
  simp only [State.badStatus]
  (repeat' split) <;> simp

@[simp] theorem State.stage_linkPins (s : State) (id off : Nat) (bs : List Byte) (poison : Bool) : (s.stage id off bs poison).linkPins = s.linkPins := by
  simp [State.stage]

@[simp] theorem State.atomicDone_linkPins (s : State) (run addr status : Nat) (value : Option Nat) :
    (s.atomicDone run addr status value).linkPins = s.linkPins := by
  simp [State.atomicDone]

@[simp] theorem State.atomicOver_linkPins (s : State) (run addr status : Nat) (value : Option Nat) :
    (s.atomicOver run addr status value).linkPins = s.linkPins := by
  simp [State.atomicOver]

@[simp] theorem State.finishRequest_linkPins (s : State) (n : Nat) : (s.finishRequest n).linkPins = s.linkPins := by simp [State.finishRequest]

@[simp] theorem State.keepLine_linkPins (s : State) (r : Request) (shared : Bool) (data : List Byte) : (s.keepLine r shared data).linkPins = s.linkPins := by
  simp [State.keepLine]

@[simp] theorem State.copyFailed_linkPins (s : State) : s.copyFailed.linkPins = s.linkPins := by simp [State.copyFailed]
@[simp] theorem State.copyFault_linkPins (s : State) (j : Nat) : (s.copyFault j).linkPins = s.linkPins := by simp [State.copyFault]

@[simp] theorem State.copyAsk_linkPins (s : State) : s.copyAsk.linkPins = s.linkPins := by
  simp only [State.copyAsk]
  split <;> simp

@[simp] theorem State.copyData_linkPins (s : State) (off : Nat) (bs : List Byte) : (s.copyData off bs).linkPins = s.linkPins := by
  simp only [State.copyData]
  split
  · rfl
  · split
    · simp
    case h_2 hwrite => simpa using State.writeLocal_linkPins s _ _ _ _ hwrite

@[simp] theorem State.copyStatusBad_linkPins (s : State) (r : Request) (st : Nat) : (s.copyStatusBad r st).linkPins = s.linkPins := by
  simp only [State.copyStatusBad]
  split <;> simp

@[simp] theorem State.gotData_linkPins (s : State) (p : Packet) : (s.gotData p).linkPins = s.linkPins := by
  simp only [State.gotData]
  (repeat' split) <;> simp

@[simp] theorem State.gotAck_linkPins (s : State) (p : Packet) : (s.gotAck p).linkPins = s.linkPins := by
  simp only [State.gotAck]
  (repeat' split) <;> simp

@[simp] theorem State.homeSeen_linkPins (s : State) (i seen : Nat) : (s.homeSeen i seen).linkPins = s.linkPins := by
  simp only [State.homeSeen]
  split <;> simp

@[simp] theorem State.gotReply_linkPins (s : State) (p : Packet) : (s.gotReply p).linkPins = s.linkPins := by
  simp only [State.gotReply]
  (repeat' split) <;> simp

@[simp] theorem State.failRequest_linkPins (s : State) (n status : Nat) : (s.failRequest n status).linkPins = s.linkPins := by
  simp only [State.failRequest]
  (repeat' split) <;> simp

@[simp] theorem State.ask_linkPins (s : State) (p : Packet) (ctx : Nat) (sink : Sink) : (s.ask p ctx sink).linkPins = s.linkPins := by simp [State.ask]

/-! The pins through Machine/Contained.lean. -/

@[simp] theorem State.setLog_linkPins (s : State) (l : List LogEntry) : (s.setLog l).linkPins = s.linkPins := State.linkPins_of_boot (State.setLog_boot ..)
@[simp] theorem State.persistLog_linkPins (s : State) (e : LogEntry) : (s.persistLog e).linkPins = s.linkPins := by simp [State.persistLog]
@[simp] theorem State.logError_linkPins (s : State) (e : LogEntry) : (s.logError e).linkPins = s.linkPins := by simp [State.logError]

@[simp] theorem State.tileError_linkPins (s : State) (tile klass unit code detail : Nat) :
    (s.tileError tile klass unit code detail).linkPins = s.linkPins := by
  simp [State.tileError]

@[simp] theorem State.uncharge_linkPins (s : State) (k : Machine.Task) : (s.uncharge k).linkPins = s.linkPins := by simp [State.uncharge]
@[simp] theorem State.containedTask_linkPins (s : State) (n : Nat) : (s.containedTask n).linkPins = s.linkPins := by simp [State.containedTask]

@[simp] theorem State.containedTile_linkPins (s : State) (tile unit code detail : Nat) : (s.containedTile tile unit code detail).linkPins = s.linkPins := by
  simp [State.containedTile]

/-! The pins through Machine/CellBase.lean. -/

@[simp] theorem State.cellEvent_linkPins (s : State) (c code n detail : Nat) : (s.cellEvent c code n detail).linkPins = s.linkPins := by
  simp [State.cellEvent]

@[simp] theorem State.cellEventNow_linkPins (s : State) (c code detail : Nat) : (s.cellEventNow c code detail).linkPins = s.linkPins := by
  simp [State.cellEventNow]

@[simp] theorem State.setCellSt_linkPins (s : State) (c v : Nat) : (s.setCellSt c v).linkPins = s.linkPins := by simp [State.setCellSt]
@[simp] theorem State.cmdDone_linkPins (s : State) (c k : Nat) : (s.cmdDone c k).linkPins = s.linkPins := by simp [State.cmdDone]
@[simp] theorem State.fwChecked_linkPins (s : State) (n core : Nat) : (s.fwChecked n core).linkPins = s.linkPins := by simp [State.fwChecked]
@[simp] theorem State.dropSlotTasks_linkPins (s : State) (c n : Nat) : (s.dropSlotTasks c n).linkPins = s.linkPins := by simp [State.dropSlotTasks]
@[simp] theorem State.heldOnAir_linkPins (s : State) (c n : Nat) : (s.heldOnAir c n).linkPins = s.linkPins := by simp [State.heldOnAir]
@[simp] theorem State.holdSlot_linkPins (s : State) (c n cause : Nat) : (s.holdSlot c n cause).linkPins = s.linkPins := by simp [State.holdSlot]
@[simp] theorem State.discardOrders_linkPins (s : State) (c n : Nat) : (s.discardOrders c n).linkPins = s.linkPins := by simp [State.discardOrders]
@[simp] theorem State.resetAt_linkPins (s : State) (c t : Nat) : (s.resetAt c t).linkPins = s.linkPins := by simp [State.resetAt]
@[simp] theorem State.shrinkAfter_linkPins (s : State) (c ns : Nat) : (s.shrinkAfter c ns).linkPins = s.linkPins := by simp [State.shrinkAfter]
@[simp] theorem State.lastSlotBefore_linkPins (s : State) (c t : Nat) : (s.lastSlotBefore c t).linkPins = s.linkPins := by simp [State.lastSlotBefore]
@[simp] theorem State.stopCell_linkPins (s : State) (c : Nat) : (s.stopCell c).linkPins = s.linkPins := by simp [State.stopCell]

@[simp] theorem State.abortMove_linkPins (s : State) (c cause : Nat) : (s.abortMove c cause).linkPins = s.linkPins := by
  simp only [State.abortMove]
  split <;> simp

@[simp] theorem State.movePeerDead_linkPins (s : State) (node : Nat) : (s.movePeerDead node).linkPins = s.linkPins := by
  refine State.linkPins_foldl (fun t c => ?_) _ _
  split <;> simp

/-! The pins through Machine/VsControl.lean. -/

@[simp] theorem State.rankEnd_linkPins (s : State) (n : Nat) : (s.rankEnd n).linkPins = s.linkPins := by simp [State.rankEnd]

/-! The pins through Machine/Orders.lean. -/

@[simp] theorem State.admitOrder_linkPins (s : State) (d : Desc) (o : OrderBody) (type n : Nat) : (s.admitOrder d o type n).linkPins = s.linkPins := by
  simp [State.admitOrder]

@[simp] theorem slotOrder_linkPins (type f r : Nat) (list : List Byte) (s : State) : (slotOrder type f r list s).linkPins = s.linkPins := by
  refine State.admitDesc_linkPins s f r _ _ (fun t d x => ?_)
  dsimp only
  split
  · simp
  · refine State.descRead_linkPins t d _ _ _ (fun bs => ?_)
    split
    · simp
    · split <;> simp

@[simp] theorem State.addRadioTask_linkPins (s : State) (c n : Nat) (x : RadioPiece) (startNs budget : Nat) (hold : Bool) :
    (s.addRadioTask c n x startNs budget hold).1.linkPins = s.linkPins := by
  simp [State.addRadioTask]

@[simp] theorem State.zeroReceive_linkPins (s : State) (p : Nat) (vts : List Nat) (base length : Nat) :
    (s.zeroReceive p vts base length).linkPins = s.linkPins := by
  refine State.linkPins_foldl (fun t v => ?_) _ _
  split <;> simp

@[simp] theorem State.addSlotTasks_linkPins (s : State) (c n : Nat) (works : List RadioPiece) : (s.addSlotTasks c n works).linkPins = s.linkPins := by
  simp [State.addSlotTasks]

@[simp] theorem State.missSlot_linkPins (s : State) (c n missing : Nat) : (s.missSlot c n missing).linkPins = s.linkPins := by simp [State.missSlot]

@[simp] theorem State.serveSlot_linkPins (s : State) (c n : Nat) (payloads : List (List Byte)) : (s.serveSlot c n payloads).linkPins = s.linkPins := by
  simp [State.serveSlot]

@[simp] theorem State.pruneSlots_linkPins (s : State) (c : Nat) : (s.pruneSlots c).linkPins = s.linkPins := by simp [State.pruneSlots]

/-! The pins through Machine/Moves.lean. -/

@[simp] theorem State.loadChunk_linkPins (s : State) (ctx j node id va : Nat) (e : Nat × Nat) : (s.loadChunk ctx j node id va e).linkPins = s.linkPins := by
  simp only [State.loadChunk]
  split <;> simp

@[simp] theorem State.storeChunk_linkPins (s : State) (ctx j node id va : Nat) (bs : List Byte) (e : Nat × Nat) :
    (s.storeChunk ctx j node id va bs e).linkPins = s.linkPins := by
  simp [State.storeChunk]

@[simp] theorem State.moveRead_linkPins (s : State) (tile : Nat) (op : XOp) (arrived : List Byte) : (s.moveRead tile op arrived).1.linkPins = s.linkPins := by
  simp only [State.moveRead]
  (repeat' split) <;> simp

@[simp] theorem State.moveStoreLocal_linkPins (s : State) (j ctx off : Nat) (bs : List Byte) (va : Nat) :
    (s.moveStoreLocal j ctx off bs va).1.linkPins = s.linkPins := by
  simp only [State.moveStoreLocal]
  split
  · simp
  · split
    case h_1 hwrite => exact State.writeLocal_linkPins s _ _ _ _ hwrite
    case h_2 => rfl

@[simp] theorem State.moveSend_linkPins (s : State) (tile : Nat) (op : XOp) (bs : List Byte) : (s.moveSend tile op bs).1.linkPins = s.linkPins := by
  simp only [State.moveSend]
  (repeat' split) <;> simp

@[simp] theorem State.moveLand_linkPins (s : State) (tile : Nat) (op : XOp) : (s.moveLand tile op).1.linkPins = s.linkPins := by
  simp only [State.moveLand]
  (repeat' split) <;> simp

@[simp] theorem State.moveFault_linkPins (s : State) (tile code info : Nat) : (s.moveFault tile code info).linkPins = s.linkPins := by simp [State.moveFault]

@[simp] theorem State.moveFlag_linkPins (s : State) (tile : Nat) (saturated : Bool) : (s.moveFlag tile saturated).linkPins = s.linkPins := by
  simp [State.moveFlag]

@[simp] theorem State.moveRun_linkPins (s : State) (tile mode : Nat) (arrived : List Byte) : (s.moveRun tile mode arrived).linkPins = s.linkPins := by
  simp only [State.moveRun]
  (repeat' split) <;> simp

@[simp] theorem State.moveEnds_linkPins (s : State) (tile : Nat) : (s.moveEnds tile).linkPins = s.linkPins := by
  simp only [State.moveEnds]
  split <;> simp

/-! The pins through Machine/TaskEnd.lean. -/

@[simp] theorem applySignals_linkPins (fuel : Nat) (s : State) (n : Nat) : (applySignals fuel s n).linkPins = s.linkPins := by
  induction fuel generalizing s with
  | zero => rfl
  | succ fuel ih =>
    simp only [applySignals]
    split
    · rfl
    · split
      · rfl
      · split
        · simp
        · rw [ih]
          split <;> simp

@[simp] theorem State.completeTask_linkPins (s : State) (n : Nat) : (s.completeTask n).linkPins = s.linkPins := by simp [State.completeTask]

@[simp] theorem State.radioEnd_linkPins (s : State) (n : Nat) (k : Machine.Task) (r : RadioWork) : (s.radioEnd n k r).linkPins = s.linkPins := by
  simp [State.radioEnd]

/-! The pins through Machine/ModelBase.lean. -/

@[simp] theorem State.setSlot_linkPins (s : State) (m : Nat) (x : Slot) : (s.setSlot m x).linkPins = s.linkPins :=
  State.linkPins_of_boot (State.setSlot_boot ..)

@[simp] theorem State.setInv_linkPins (s : State) (i : Nat) (x : Invocation) : (s.setInv i x).linkPins = s.linkPins :=
  State.linkPins_of_boot (State.setInv_boot ..)

@[simp] theorem State.putHandle_linkPins (s : State) (key : Nat) (x : Handle) : (s.putHandle key x).linkPins = s.linkPins :=
  State.linkPins_of_boot (State.putHandle_boot ..)

@[simp] theorem State.setStateHandle_linkPins (s : State) (p h : Nat) (x : Handle) : (s.setStateHandle p h x).linkPins = s.linkPins := by
  simp [State.setStateHandle]

@[simp] theorem State.countService_linkPins (s : State) (m : Nat) : (s.countService m).linkPins = s.linkPins := by simp [State.countService]
@[simp] theorem State.measureNode_linkPins (s : State) (m node ns : Nat) : (s.measureNode m node ns).linkPins = s.linkPins := by simp [State.measureNode]

@[simp] theorem State.runWrite_linkPins (s : State) (fuel : Nat) (pages : List Nat) (off : Nat) (bs : List Byte) :
    (State.runWrite s fuel pages off bs).linkPins = s.linkPins := by
  induction fuel generalizing s off bs with
  | zero => rfl
  | succ fuel ih => simp [State.runWrite, ih]

@[simp] theorem State.bindFallbacks_linkPins (s : State) : s.bindFallbacks.linkPins = s.linkPins := by simp [State.bindFallbacks]

@[simp] theorem State.evictArea_linkPins (s : State) (e : Nat × Nat) : (s.evictArea e).linkPins = s.linkPins := by
  simp only [State.evictArea]
  split <;> simp

@[simp] theorem State.clearResidency_linkPins (s : State) (p : Nat) : (s.clearResidency p).linkPins = s.linkPins := by simp [State.clearResidency]
@[simp] theorem State.moveResidency_linkPins (s : State) (a b : Nat) : (s.moveResidency a b).linkPins = s.linkPins := by simp [State.moveResidency]
@[simp] theorem State.flagFall_linkPins (s : State) (m : Nat) : (s.flagFall m).linkPins = s.linkPins := by simp [State.flagFall]
@[simp] theorem State.loadSlotCode_linkPins (s : State) (n m p : Nat) : (s.loadSlotCode n m p).linkPins = s.linkPins := by simp [State.loadSlotCode]
@[simp] theorem State.bringIn_linkPins (s : State) (i vt p : Nat) : (s.bringIn i vt p).linkPins = s.linkPins := by simp [State.bringIn]
@[simp] theorem State.bringAll_linkPins (s : State) (i : Nat) (tiles : List Nat) : (s.bringAll i tiles).linkPins = s.linkPins := by simp [State.bringAll]
@[simp] theorem State.keepState_linkPins (s : State) (i : Nat) : (s.keepState i).linkPins = s.linkPins := by simp [State.keepState]
@[simp] theorem State.leaveTiles_linkPins (s : State) (i : Nat) : (s.leaveTiles i).linkPins = s.linkPins := by simp [State.leaveTiles]
@[simp] theorem State.clearStage_linkPins (s : State) (i : Nat) : (s.clearStage i).linkPins = s.linkPins := by simp [State.clearStage]
@[simp] theorem State.restartInv_linkPins (s : State) (i : Nat) : (s.restartInv i).linkPins = s.linkPins := by simp [State.restartInv]
@[simp] theorem State.containedInv_linkPins (s : State) (i pa : Nat) : (s.containedInv i pa).linkPins = s.linkPins := by simp [State.containedInv]

/-! The pins through Machine/SecBase.lean. -/

@[simp] theorem State.rederive_linkPins (s : State) : s.rederive.linkPins = s.linkPins := by simp [State.rederive]

/-! The pins through Machine/FabricRows.lean. -/

@[simp] theorem State.countReceived_linkPins (s : State) (j : Nat) : (s.countReceived j).linkPins = s.linkPins := by simp [State.countReceived]

@[simp] theorem State.homeSignal_linkPins (s : State) (p : Packet) : (s.homeSignal p).linkPins = s.linkPins := by
  refine State.atHome_linkPins s p (fun t j c => State.once_linkPins t p _ (fun u => ?_))
  simp only [State.respond_linkPins, State.record_linkPins]
  split <;> simp

@[simp] theorem State.waitAt_linkPins (s : State) (i : Nat) (w : Waiter) : (s.waitAt i w).linkPins = s.linkPins := by
  simp only [State.waitAt]
  (repeat' split) <;> simp

@[simp] theorem State.homeWait_linkPins (s : State) (p : Packet) : (s.homeWait p).linkPins = s.linkPins := by
  refine State.atHome_linkPins s p (fun t j c => State.once_linkPins t p _ (fun u => ?_))
  simp only [State.respond_linkPins, State.record_linkPins]
  split <;> simp

@[simp] theorem State.proxyGrant_linkPins (s : State) (p : Packet) : (s.proxyGrant p).linkPins = s.linkPins := by
  refine State.atHome_linkPins s p (fun t j c => State.once_linkPins t p _ (fun u => ?_))
  simp only [State.respond_linkPins, State.record_linkPins]
  split
  · split <;> simp
  · simp

@[simp] theorem State.syncAbandoned_linkPins (s : State) (p : Packet) : (s.syncAbandoned p).linkPins = s.linkPins := by
  refine State.atHome_linkPins s p (fun t j c => State.once_linkPins t p _ (fun u => ?_))
  simp only [State.respond_linkPins, State.record_linkPins]
  refine State.linkPins_of_ite (State.abandonObject_linkPins _ _ _ State.returnUnits_linkPins) ?_
  split
  · rfl
  · split <;> simp

@[simp] theorem State.gotHeartbeat_linkPins (s : State) (p : Packet) : (s.gotHeartbeat p).linkPins = s.linkPins := by
  simp only [State.gotHeartbeat]
  (repeat' split) <;> simp

@[simp] theorem State.setDead_linkPins (s : State) (dead : List Nat) : (s.setDead dead).linkPins = s.linkPins := by simp [State.setDead]

@[simp] theorem State.handle_linkPins (s : State) (p : Packet) : (s.handle p).linkPins = s.linkPins := by
  simp only [State.handle]
  (repeat' split) <;> simp

@[simp] theorem State.deliver_linkPins (s : State) (p : Packet) : (s.deliver p).linkPins = s.linkPins := by simp [State.deliver]
@[simp] theorem State.arrives_linkPins (s : State) (p : Packet) (op : Nat) : (s.arrives p op).linkPins = s.linkPins := by simp [State.arrives]
@[simp] theorem State.linkLost_linkPins (s : State) (l : Nat) : (s.linkLost l).linkPins = s.linkPins := by simp [State.linkLost]

@[simp] theorem State.acknowledge_linkPins (s : State) (l ack : Nat) (nak : Bool) : (s.acknowledge l ack nak).linkPins = s.linkPins := by
  simp [State.acknowledge]

@[simp] theorem State.returnCredits_linkPins (s : State) (l : Nat) (ps : List Packet) : (s.returnCredits l ps).linkPins = s.linkPins := by
  simp [State.returnCredits]

@[simp] theorem readmitRule_linkPins (s : State) (node : Nat) : KeepsPins s (readmitRule s node) := by simp [readmitRule]
@[simp] theorem readmitEffect_linkPins (s : State) (node : Nat) : (readmitEffect s node).linkPins = s.linkPins := by simp [readmitEffect]

@[simp] theorem issueEntries_linkPins (fuel : Nat) (s : State) (run : Nat) : (issueEntries fuel s run).linkPins = s.linkPins := by
  induction fuel generalizing s with
  | zero => rfl
  | succ fuel ih =>
    simp only [issueEntries]
    split
    · rfl
    · refine State.linkPins_of_ite rfl (State.linkPins_of_ite (by simp) (State.linkPins_of_ite (by simp) ?_))
      split
      · simp
      case h_2 j _ =>
        refine State.linkPins_of_ite (by simp) (State.linkPins_of_ite ?_ (by simp [ih]))
        split
        case h_1 s1 _ _ hhere =>
          have hs1 : s1.linkPins = s.linkPins := by simpa using (congrArg (fun r => r.1.linkPins) hhere).symm
          simp [ih, hs1]
        case h_2 => simp

@[simp] theorem State.issueAtomics_linkPins (s : State) : s.issueAtomics.linkPins = s.linkPins := by simp [State.issueAtomics]
@[simp] theorem jobApplyRule_linkPins (s : State) (j : Nat) : KeepsPins s (jobApplyRule s j) := by simp [jobApplyRule]
@[simp] theorem jobApplyEffect_linkPins (s : State) (j lnc : Nat) : (jobApplyEffect s j lnc).linkPins = s.linkPins := by simp [jobApplyEffect]

@[simp] theorem State.endObjects_linkPins (s : State) (ctx ring : Nat) (report : Bool) : (s.endObjects ctx ring report).linkPins = s.linkPins := by
  simp [State.endObjects]

@[simp] theorem ncroDropEffect_linkPins (s : State) (j : Nat) : (ncroDropEffect s j).linkPins = s.linkPins := by simp [ncroDropEffect]

/-! The pins through Machine/Sync.lean. -/

@[simp] theorem State.admitSync_linkPins (s : State) (f r k : Nat) {act : State → Desc → SyncBody → State}
    (hact : ∀ t d b, (act t d b).linkPins = t.linkPins) : (s.admitSync f r k act).linkPins = s.linkPins := by
  simp [State.admitSync, hact]

@[simp] theorem State.tickQuiet_linkPins (s : State) (p : Nat) : (s.tickQuiet p).linkPins = s.linkPins := by simp [State.tickQuiet]
@[simp] theorem State.declare_linkPins (s : State) (p : Nat) : (s.declare p).linkPins = s.linkPins := by simp [State.declare]

@[simp] theorem State.staleSend_linkPins (s : State) (j rank kind : Nat) (words : List Nat) : (s.staleSend j rank kind words).linkPins = s.linkPins := by
  simp [State.staleSend]

@[simp] theorem State.staleHalted_linkPins (s : State) (j : Nat) : (s.staleHalted j).linkPins = s.linkPins := by simp [State.staleHalted]

@[simp] theorem State.staleResumed_linkPins (s : State) (j : Nat) : (s.staleResumed j).linkPins = s.linkPins := by
  simp only [State.staleResumed]
  split
  · rfl
  · simp only [State.settle_linkPins, State.linkPins_foldl fun t e => State.waitAt_linkPins t _ _]
    refine (State.linkPins_foldl (fun t e => ?_) _ _).trans (State.setQuiet_linkPins ..)
    split <;> simp

@[simp] theorem State.staleGiveUp_linkPins (s : State) (j : Nat) : (s.staleGiveUp j).linkPins = s.linkPins := by simp [State.staleGiveUp]
@[simp] theorem State.staleConfirmed_linkPins (s : State) (j rank : Nat) : (s.staleConfirmed j rank).linkPins = s.linkPins := by simp [State.staleConfirmed]

@[simp] theorem State.staleQueried_linkPins (s : State) (j : Nat) : (s.staleQueried j).1.linkPins = s.linkPins := by
  simp only [State.staleQueried]
  split <;> simp

@[simp] theorem State.staleReported_linkPins (s : State) (j rank sent received : Nat) : (s.staleReported j rank sent received).linkPins = s.linkPins := by
  simp only [State.staleReported]
  (repeat' split) <;> simp

/-! The pins through Machine/Partitions.lean. -/

@[simp] theorem State.slotsResized_linkPins (s : State) (p n : Nat) : (s.slotsResized p n).linkPins = s.linkPins := by simp [State.slotsResized]
@[simp] theorem State.unmapVtile_linkPins (s : State) (p v : Nat) : (s.unmapVtile p v).linkPins = s.linkPins := by simp [State.unmapVtile]
@[simp] theorem State.evictTask_linkPins (s : State) (tile : Nat) : (s.evictTask tile).linkPins = s.linkPins := by simp [State.evictTask]
@[simp] theorem State.retarget_linkPins (s : State) (a b : Nat) : (s.retarget a b).linkPins = s.linkPins := by simp [State.retarget]
@[simp] theorem State.evictPages_linkPins (s : State) (a b : Nat) : (s.evictPages a b).linkPins = s.linkPins := by simp [State.evictPages]

@[simp] theorem State.removeTile_linkPins (s : State) (p tile : Nat) : (s.removeTile p tile).linkPins = s.linkPins := by
  simp only [State.removeTile]
  split <;> simp

@[simp] theorem swapShareRule_linkPins (s : State) (p v : Nat) : KeepsPins s (swapShareRule s p v) := by simp [swapShareRule]
@[simp] theorem resizeTilesRule_linkPins (s : State) (p : Nat) : KeepsPins s (resizeTilesRule s p) := by simp [resizeTilesRule]
@[simp] theorem resizeTilesEffect_linkPins (s : State) (p v : Nat) : (resizeTilesEffect s p v).linkPins = s.linkPins := by simp [resizeTilesEffect]

@[simp] theorem resizeLncRule_linkPins (s : State) (p l : Nat) : KeepsPins s (resizeLncRule s p l) :=
  keepsPins_map s _ (fun _ => State.setReg_linkPins ..)

@[simp] theorem resizeLncEffect_linkPins (s : State) (p l : Nat) : (resizeLncEffect s p l).linkPins = s.linkPins := by simp [resizeLncEffect]

@[simp] theorem consentEffect_linkPins (s : State) (p v : Nat) : (consentEffect s p v).linkPins = s.linkPins := by
  simp only [consentEffect]
  split <;> simp

@[simp] theorem State.endResize_linkPins (s : State) (p status : Nat) : (s.endResize p status).linkPins = s.linkPins := by simp [State.endResize]
@[simp] theorem snapRule_linkPins (s : State) (f l : Nat) : KeepsPins s (snapRule s f l) := by simp [snapRule]
@[simp] theorem snapEffect_linkPins (s : State) (f l : Nat) : (snapEffect s f l).linkPins = s.linkPins := by simp [snapEffect]
@[simp] theorem determinismRule_linkPins (s : State) (v : Nat) : KeepsPins s (determinismRule s v) := by simp [determinismRule]

/-! The pins through Machine/RadioParts.lean. -/

@[simp] theorem State.loseTile_linkPins (s : State) (t : Nat) : (s.loseTile t).linkPins = s.linkPins := by simp [State.loseTile]

@[simp] theorem State.takeRadioTile_linkPins (s : State) (k : Nat) : (s.takeRadioTile k).linkPins = s.linkPins := by
  simp only [State.takeRadioTile]
  split <;> simp

@[simp] theorem State.growRadio_linkPins (s : State) (k n : Nat) : (State.growRadio s k n).linkPins = s.linkPins := by
  induction n generalizing s with
  | zero => rfl
  | succ n ih => simp [State.growRadio, ih]

@[simp] theorem State.radioGrow_linkPins (s : State) (k : Nat) : (s.radioGrow k).linkPins = s.linkPins := by simp [State.radioGrow]
@[simp] theorem State.radioTileLeaves_linkPins (s : State) (t : Nat) : (s.radioTileLeaves t).linkPins = s.linkPins := by simp [State.radioTileLeaves]
@[simp] theorem State.radioShrink_linkPins (s : State) (k : Nat) : (s.radioShrink k).linkPins = s.linkPins := by simp [State.radioShrink]

@[simp] theorem State.holdCrowded_linkPins (s : State) (k : Nat) : (s.holdCrowded k).linkPins = s.linkPins :=
  State.linkPins_foldl_snd (fun x c => by split <;> simp) _ _

/-! The pins through Machine/Cells.lean. -/

@[simp] theorem cellCmdRule_linkPins (s : State) (c cmd : Nat) (peerMatches : Bool) : KeepsPins s (cellCmdRule s c cmd peerMatches) :=
  keepsPins_map s _ (fun _ => State.setReg_linkPins ..)

@[simp] theorem State.assignConductor_linkPins (s : State) (c : Nat) : (s.assignConductor c).linkPins = s.linkPins := by simp [State.assignConductor]
@[simp] theorem State.freshPolicers_linkPins (s : State) (c : Nat) : (s.freshPolicers c).linkPins = s.linkPins := by simp [State.freshPolicers]

@[simp] theorem cellCmdEffect_linkPins (s : State) (c cmd : Nat) : (cellCmdEffect s c cmd).linkPins = s.linkPins := by
  simp only [cellCmdEffect]
  split <;> simp

@[simp] theorem cellConfigRule_linkPins (s : State) (c : Nat) : KeepsPins s (cellConfigRule s c) := by simp [cellConfigRule]

@[simp] theorem holdSourceRule_linkPins (s : State) (c : Nat) (bs : List Byte) (encoded : Bool) : KeepsPins s (holdSourceRule s c bs encoded) := by
  simp [holdSourceRule]

@[simp] theorem holdSourceEffect_linkPins (s : State) (c : Nat) (bs : List Byte) : (holdSourceEffect s c bs).linkPins = s.linkPins := by
  simp [holdSourceEffect]

@[simp] theorem State.startNormalise_linkPins (s : State) (c t : Nat) : (s.startNormalise c t).linkPins = s.linkPins := by simp [State.startNormalise]
@[simp] theorem State.boundaryGone_linkPins (s : State) (c k : Nat) : (s.boundaryGone c k).linkPins = s.linkPins := by simp [State.boundaryGone]

/-! The pins through Machine/Coding.lean. -/

@[simp] theorem State.softWritten_linkPins (s : State) (c k : Nat) : (s.softWritten c k).linkPins = s.linkPins := by
  simp only [State.softWritten]
  split <;> simp

@[simp] theorem State.addCoded_linkPins (s : State) (c slot pdu index : Nat) (bs : List Bool) : (s.addCoded c slot pdu index bs).linkPins = s.linkPins := by
  simp [State.addCoded]

@[simp] theorem State.writeVa_linkPins (s : State) (ctx va : Nat) (bs : List Byte) : KeepsPins s (s.writeVa ctx va bs) := by
  have hlocal : ∀ off, KeepsPins s (s.writeLocal ctx off bs) := fun off t ht => State.writeLocal_linkPins s ctx off bs t ht
  simp only [State.writeVa]
  split
  · split <;> simp
  · exact hlocal _
  · exact hlocal _
  · simp

@[simp] theorem writeEntries_linkPins (o : OrderIn) (l : List (List Byte)) (s : State) (at' n : Nat) (lost : Bool) :
    (writeEntries o l s at' n lost).1.linkPins = s.linkPins := by
  induction l generalizing s at' n lost with
  | nil => rfl
  | cons e r ih =>
    simp only [writeEntries]
    split
    · exact ih ..
    · split
      · exact ih ..
      case h_2 hwrite => exact (ih ..).trans (State.writeVa_linkPins s _ _ _ _ hwrite)

@[simp] theorem State.writeBatch_linkPins (s : State) (c slot otype btype : Nat) (o : OrderIn) (l : List (List Byte)) :
    (s.writeBatch c slot otype btype o l).linkPins = s.linkPins := by
  simp [State.writeBatch]

@[simp] theorem State.retain_linkPins (s : State) (c slot : Nat) (o : OrderIn) (entries : List (Nat × Nat × List Byte)) :
    (s.retain c slot o entries).linkPins = s.linkPins := by
  refine State.linkPins_foldl (fun t e => ?_) _ _
  split <;> simp

/-! The pins through Machine/CellMove.lean. -/

@[simp] theorem State.updMove_linkPins (s : State) (c : Nat) (f : MoveRun → MoveRun) : (s.updMove c f).linkPins = s.linkPins := by simp [State.updMove]

@[simp] theorem State.moveStep_linkPins (s : State) (c : Nat) (p : MoveRun → Bool) {f : MoveRun → State}
    (hf : ∀ m, (f m).linkPins = s.linkPins) : (s.moveStep c p f).linkPins = s.linkPins := by
  simp only [State.moveStep]
  split <;> simp [hf]

@[simp] theorem State.sendContext_linkPins (s : State) (c : Nat) (m : MoveRun) (keys : List Nat) : (s.sendContext c m keys).linkPins = s.linkPins := by
  simp [State.sendContext]

@[simp] theorem State.takeContext_linkPins (s : State) (c : Nat) (buffers : List (Nat × List Int)) (estimates : List (Nat × Nat)) :
    (s.takeContext c buffers estimates).linkPins = s.linkPins := by
  simp [State.takeContext]

@[simp] theorem State.sendConfig_linkPins (s : State) (c : Nat) (m : MoveRun) : (s.sendConfig c m).linkPins = s.linkPins := by simp [State.sendConfig]

/-! The pins through Machine/Release.lean. -/

@[simp] theorem State.sendRadio_linkPins (s : State) (c n symbol kind flow length close : Nat) :
    (s.sendRadio c n symbol kind flow length close).linkPins = s.linkPins := by
  simp [State.sendRadio]

@[simp] theorem State.sendControl_linkPins (s : State) (c n dl ul : Nat) (key : SlotKey) : (s.sendControl c n dl ul key).linkPins = s.linkPins := by
  simp [State.sendControl]

@[simp] theorem State.sendHeld_linkPins (s : State) (c n cause : Nat) : (s.sendHeld c n cause).linkPins = s.linkPins := by simp [State.sendHeld]

@[simp] theorem State.dropLate_linkPins (s : State) (p q c slot symbol : Nat) : (s.dropLate p q c slot symbol).linkPins = s.linkPins := by
  simp [State.dropLate]

/-! The pins through Machine/Ports.lean. -/

@[simp] theorem portModeRule_linkPins (s : State) (p v : Nat) : KeepsPins s (portModeRule s p v) :=
  keepsPins_map s _ (fun _ => State.setReg_linkPins ..)

@[simp] theorem portModeEffect_linkPins (s : State) (p v : Nat) : (portModeEffect s p v).linkPins = s.linkPins := by simp [portModeEffect]
@[simp] theorem laneGroupsRule_linkPins (s : State) (v : Nat) : KeepsPins s (laneGroupsRule s v) := by simp [laneGroupsRule]
@[simp] theorem laneGroupsEffect_linkPins (s : State) (old v : Nat) : (laneGroupsEffect s old v).linkPins = s.linkPins := by simp [laneGroupsEffect]

@[simp] theorem State.police_linkPins (s : State) (p flow rate burst len : Nat) : (s.police p flow rate burst len).1.linkPins = s.linkPins := by
  simp [State.police]

@[simp] theorem State.rxBad_linkPins (s : State) (p : Nat) : (s.rxBad p).linkPins = s.linkPins := by simp [State.rxBad]

@[simp] theorem State.writeSection_linkPins (s : State) (c n stream : Nat) (e : Ecpri) : (s.writeSection c n stream e).linkPins = s.linkPins := by
  refine State.linkPins_foldl (fun t x => ?_) _ _
  split
  · rfl
  · refine State.linkPins_foldl (fun u v => ?_) _ _
    split <;> simp

@[simp] theorem State.uplinkSection_linkPins (s : State) (p c stream : Nat) (f : RxFrame) (e : Ecpri) :
    (s.uplinkSection p c stream f e).linkPins = s.linkPins := by
  simp [State.uplinkSection]

@[simp] theorem State.radioFrame_linkPins (s : State) (p : Nat) (f : RxFrame) (e : Ecpri) (c stream : Nat) :
    (s.radioFrame p f e c stream).linkPins = s.linkPins := by
  simp [State.radioFrame]

@[simp] theorem State.deliverHost_linkPins (s : State) (p fn r flow : Nat) (f : RxFrame) : (s.deliverHost p fn r flow f).linkPins = s.linkPins := by
  simp only [State.deliverHost]
  split <;> simp

@[simp] theorem State.hostFrame_linkPins (s : State) (p : Nat) (f : RxFrame) (hostOnly : Bool) : (s.hostFrame p f hostOnly).linkPins = s.linkPins := by
  simp only [State.hostFrame]
  split <;> simp

@[simp] theorem State.ptpFrame_linkPins (s : State) (p : Nat) (f : RxFrame) : (s.ptpFrame p f).linkPins = s.linkPins := by
  simp only [State.ptpFrame]
  split <;> simp

@[simp] theorem State.delayFrame_linkPins (s : State) (p : Nat) (f : RxFrame) (e : Ecpri) : (s.delayFrame p f e).linkPins = s.linkPins := by
  simp only [State.delayFrame]
  (repeat' split) <;> simp

@[simp] theorem dropHeads_linkPins (fuel : Nat) (s : State) (p q : Nat) : (dropHeads fuel s p q).linkPins = s.linkPins := by
  induction fuel generalizing s with
  | zero => rfl
  | succ fuel ih =>
    simp only [dropHeads]
    split <;> simp [ih]

@[simp] theorem State.beginFrame_linkPins (s : State) (p q : Nat) : (s.beginFrame p q).linkPins = s.linkPins := by
  simp only [State.beginFrame]
  split
  · rfl
  case h_2 e r _ =>
    cases e.2.ptp with
    | none => simp
    | some y =>
      simp only [Option.map_some, Option.bind_some, State.noteWriteBack_linkPins]
      split <;> simp

@[simp] theorem State.telZero_linkPins (s : State) (i : Nat) : (s.telZero i).linkPins = s.linkPins := by simp [State.telZero]
@[simp] theorem State.telSample_linkPins (s : State) (p q : Nat) : (s.telSample p q).linkPins = s.linkPins := by simp [State.telSample]
@[simp] theorem telClearEffect_linkPins (s : State) (n v : Nat) : (telClearEffect s n v).linkPins = s.linkPins := by simp [telClearEffect]
@[simp] theorem flowEffect_linkPins (s : State) (h : Nat) : (flowEffect s h).linkPins = s.linkPins := by simp [flowEffect]

/-! The pins through Machine/Nodes.lean. -/

@[simp] theorem State.begin__linkPins (s : State) (i node : Nat) : (s.begin_ i node).linkPins = s.linkPins := by simp [State.begin_]
@[simp] theorem State.ranOn_linkPins (s : State) (i node vt : Nat) : (s.ranOn i node vt).linkPins = s.linkPins := by simp [State.ranOn]
@[simp] theorem State.nodeFlags_linkPins (s : State) (i : Nat) (inv sat : Bool) : (s.nodeFlags i inv sat).linkPins = s.linkPins := by simp [State.nodeFlags]

@[simp] theorem State.passNode_linkPins (s : State) (i node family vt : Nat) (run : PassDesc → Tile → Tile × Bool × Bool) :
    (s.passNode i node family vt run).linkPins = s.linkPins := by
  simp only [State.passNode]
  (repeat' split) <;> simp

@[simp] theorem State.dftNode_linkPins (s : State) (i node vt : Nat) (stages : List (List Byte × Bool)) :
    (s.dftNode i node vt stages).linkPins = s.linkPins := by
  simp only [State.dftNode]
  split <;> simp

@[simp] theorem State.elementNode_linkPins (s : State) (i node op count : Nat) (a b out : ETensor) :
    (s.elementNode i node op count a b out).linkPins = s.linkPins := by
  simp only [State.elementNode]
  split <;> simp

@[simp] theorem State.rowNode_linkPins (s : State) (i node : Nat) (x y : Tensor) (row : Nat) (f : List Nat → List Res) :
    (s.rowNode i node x y row f).linkPins = s.linkPins := by
  simp only [State.rowNode]
  split <;> simp

@[simp] theorem State.nonlinear_linkPins (s : State) (i node fn : Nat) (f : Nat → Res) : (s.nonlinear i node fn f).linkPins = s.linkPins := by
  simp only [State.nonlinear]
  split <;> simp

@[simp] theorem State.normNode_linkPins (s : State) (i node fn : Nat) (f : List Nat → List Nat → Nat → List Nat → List Res) :
    (s.normNode i node fn f).linkPins = s.linkPins := by
  simp only [State.normNode]
  split <;> simp

@[simp] theorem State.quantNode_linkPins (s : State) (i node : Nat) (x : Tensor) (row fmt outAddr scaleAddr scalePitch : Nat) :
    (s.quantNode i node x row fmt outAddr scaleAddr scalePitch).linkPins = s.linkPins := by
  simp only [State.quantNode]
  split <;> simp

/-! The pins through Machine/NodeRows.lean. -/

@[simp] theorem State.keepReduction_linkPins (s : State) (i node : Nat) (r : Reduction) : (s.keepReduction i node r).linkPins = s.linkPins := by
  simp only [State.keepReduction]
  (repeat' split) <;> simp

@[simp] theorem State.startReduce_linkPins (s : State) (i node : Nat) (ordered : Bool) (out : Tensor) (int : Bool) (ranks : Nat)
    (sources : List (Nat × Nat × Nat)) : (s.startReduce i node ordered out int ranks sources).linkPins = s.linkPins := by
  simp only [State.startReduce]
  split <;> simp

@[simp] theorem State.reduceNode_linkPins (s : State) (i node : Nat) (ordered : Bool) : (s.reduceNode i node ordered).linkPins = s.linkPins := by
  simp only [State.reduceNode]
  split <;> simp

@[simp] theorem State.storeRow_linkPins (s : State) (klass ctx j node id va : Nat) (bs : List Byte) (e : Nat × Nat) :
    (s.storeRow klass ctx j node id va bs e).linkPins = s.linkPins := by
  simp [State.storeRow]

@[simp] theorem State.giveRows_linkPins (s : State) (i : Nat) (k : Machine.Task) (x : GateInput) (rows : List Byte) :
    (s.giveRows i k x rows).linkPins = s.linkPins := by
  simp only [State.giveRows]
  (repeat' split) <;> simp

@[simp] theorem State.gateRoute_linkPins (s : State) (i node : Nat) (g : GateNode) (arrivals : List (Nat × Nat)) :
    (s.gateRoute i node g arrivals).linkPins = s.linkPins := by
  simp only [State.gateRoute]
  split <;> simp

@[simp] theorem State.gateSum_linkPins (s : State) (i node : Nat) (g : GateNode) : (s.gateSum i node g).linkPins = s.linkPins := by
  simp only [State.gateSum]
  split <;> simp

@[simp] theorem State.gateNode_linkPins (s : State) (i node policy : Nat) (arrivals : List (Nat × Nat)) :
    (s.gateNode i node policy arrivals).linkPins = s.linkPins := by
  simp only [State.gateNode]
  split <;> simp

@[simp] theorem State.moveNode_linkPins (s : State) (i node vt : Nat) (cmds : List (List Byte)) : (s.moveNode i node vt cmds).linkPins = s.linkPins := by
  simp only [State.moveNode]
  (repeat' split) <;> simp

@[simp] theorem State.discardWaves_linkPins (s : State) (i : Nat) (skip : List Nat) : (s.discardWaves i skip).linkPins = s.linkPins := by
  simp [State.discardWaves]

@[simp] theorem State.decide__linkPins (s : State) (i node : Nat) : (s.decide_ i node).linkPins = s.linkPins := by simp [State.decide_]

@[simp] theorem State.atomicNode_linkPins (s : State) (i node vt addr count : Nat) : (s.atomicNode i node vt addr count).linkPins = s.linkPins := by
  simp only [State.atomicNode]
  split <;> simp

/-! The pins through Machine/Models.lean. -/

@[simp] theorem State.loadSlot_linkPins (s : State) (d : Desc) (slot part : Nat) (c : List Byte) : (s.loadSlot d slot part c).linkPins = s.linkPins := by
  simp [State.loadSlot]

@[simp] theorem State.loadKernels_linkPins (s : State) (m func : Nat) (ps : List (List Byte)) : (s.loadKernels m func ps).linkPins = s.linkPins := by
  refine State.linkPins_foldl (fun t b => ?_) _ _
  dsimp only
  split <;> simp

@[simp] theorem State.unloadSlot_linkPins (s : State) (m : Nat) (d : Option Desc) : (s.unloadSlot m d).linkPins = s.linkPins := by simp [State.unloadSlot]
@[simp] theorem State.clearSlot_linkPins (s : State) (m : Nat) : (s.clearSlot m).linkPins = s.linkPins := by simp [State.clearSlot]
@[simp] theorem State.bindHandle_linkPins (s : State) (func m p h : Nat) : (s.bindHandle func m p h).linkPins = s.linkPins := by simp [State.bindHandle]
@[simp] theorem State.admitInv_linkPins (s : State) (d : Desc) (b : InvokeBody) : (s.admitInv d b).linkPins = s.linkPins := by simp [State.admitInv]

theorem State.vaWrite_linkPins (s : State) (ctx va : Nat) (bs : List Byte) {t : State} (h : s.vaWrite ctx va bs = .ok t) : t.linkPins = s.linkPins := by
  simp only [State.vaWrite] at h
  split at h
  · split at h <;> cases h
    simp
  · split at h <;> cases h
    simp
  · split at h <;> cases h
    case h_1 hwrite => exact State.writeLocal_linkPins s _ _ _ _ hwrite

@[simp] theorem State.putInput_linkPins (s : State) (i : Nat) (e : Nat × IoDecl) : (s.putInput i e).linkPins = s.linkPins := by
  simp only [State.putInput]
  split <;> simp

@[simp] theorem State.chargeIo_linkPins (s : State) (ctx va n : Nat) : (s.chargeIo ctx va n).linkPins = s.linkPins := by
  simp only [State.chargeIo]
  split <;> simp

@[simp] theorem State.readInput_linkPins (s : State) (i : Nat) (arrived : List (List Byte)) (e : Nat × IoDecl) :
    (s.readInput i arrived e).linkPins = s.linkPins := by
  simp only [State.readInput]
  split <;> simp

@[simp] theorem State.readInputs_linkPins (s : State) (i : Nat) (arrived : List (List Byte)) : (s.readInputs i arrived).linkPins = s.linkPins := by
  simp [State.readInputs]

@[simp] theorem State.startInv_linkPins (s : State) (i : Nat) (places : List (Nat × Nat)) (arrived : List (List Byte)) :
    (s.startInv i places arrived).linkPins = s.linkPins := by
  simp [State.startInv]

@[simp] theorem State.deliverWave_linkPins (s : State) (i index : Nat) (w : Wave) (data : List Byte) :
    (s.deliverWave i index w data).linkPins = s.linkPins := by
  refine State.linkPins_foldl (fun t vt => ?_) _ _
  split <;> simp

@[simp] theorem State.checkpoint_linkPins (s : State) (i number : Nat) : (s.checkpoint i number).linkPins = s.linkPins := by
  simp only [State.checkpoint]
  (repeat' split) <;> simp

@[simp] theorem State.fallBack_linkPins (s : State) (i : Nat) : (s.fallBack i).linkPins = s.linkPins := by
  simp only [State.fallBack]
  (repeat' split) <;> simp

@[simp] theorem State.endInv_linkPins (s : State) (i : Nat) (good : Bool) : (s.endInv i good).linkPins = s.linkPins := by simp [State.endInv]

/-! The pins through Machine/Functions.lean. -/

@[simp] theorem State.endContext_linkPins (s : State) (c : Nat) : (s.endContext c).linkPins = s.linkPins := by simp [State.endContext]
@[simp] theorem ctxEnableRule_linkPins (s : State) (f v : Nat) : KeepsPins s (ctxEnableRule s f v) := by simp [ctxEnableRule]
@[simp] theorem ctxEnableEffect_linkPins (s : State) (c old v : Nat) : (ctxEnableEffect s c old v).linkPins = s.linkPins := by simp [ctxEnableEffect]
@[simp] theorem ctxFieldRule_linkPins (s : State) (c : Nat) : KeepsPins s (ctxFieldRule s c) := by simp [ctxFieldRule]

@[simp] theorem State.cancelResizes_linkPins (s : State) (f : Nat) : (s.cancelResizes f).linkPins = s.linkPins := by
  refine State.linkPins_foldl (fun t p => ?_) _ _
  dsimp only
  split <;> simp

@[simp] theorem State.disableFunction_linkPins (s : State) (f : Nat) (flr : Bool) : (s.disableFunction f flr).linkPins = s.linkPins := by
  simp only [State.disableFunction]
  split
  · rfl
  · refine (State.linkPins_foldl (fun t c => by simp) _ _).trans ?_
    refine (State.linkPins_foldl (fun t j => by split <;> simp) _ _).trans ?_
    rw [State.cancelResizes_linkPins, State.abortWhere_linkPins, State.linkPins_mk, State.setReg_linkPins, State.setFunc_linkPins]

@[simp] theorem State.zeroiseTiles_linkPins (s : State) (f : Nat) : (s.zeroiseTiles f).linkPins = s.linkPins := by simp [State.zeroiseTiles]
@[simp] theorem State.returnPartitions_linkPins (s : State) (f : Nat) : (s.returnPartitions f).linkPins = s.linkPins := by simp [State.returnPartitions]
@[simp] theorem State.returnResources_linkPins (s : State) (f : Nat) : (s.returnResources f).linkPins = s.linkPins := by simp [State.returnResources]
@[simp] theorem State.windowOff_linkPins (s : State) (f : Nat) (flr : Bool) : (s.windowOff f flr).linkPins = s.linkPins := by simp [State.windowOff]
@[simp] theorem functionEnableRule_linkPins (s : State) (f v : Nat) : KeepsPins s (functionEnableRule s f v) := by simp [functionEnableRule]
@[simp] theorem functionEnableEffect_linkPins (s : State) (f v : Nat) : (functionEnableEffect s f v).linkPins = s.linkPins := by simp [functionEnableEffect]
@[simp] theorem ringRule_linkPins (s : State) (f r sub v : Nat) : KeepsPins s (ringRule s f r sub v) := by simp [ringRule]
@[simp] theorem ringKindEffect_linkPins (s : State) (f r : Nat) : (ringKindEffect s f r).linkPins = s.linkPins := by simp [ringKindEffect]

/-! The pins through Machine/Power.lean. -/

@[simp] theorem State.setAlert_linkPins (s : State) (b : Nat) (v : Bool) : (s.setAlert b v).linkPins = s.linkPins := by simp [State.setAlert]
@[simp] theorem State.setDuty_linkPins (s : State) (ts : List Nat) (f : Nat → Nat) : (s.setDuty ts f).linkPins = s.linkPins := by simp [State.setDuty]
@[simp] theorem State.noteDuty_linkPins (s : State) : s.noteDuty.linkPins = s.linkPins := by simp [State.noteDuty]
@[simp] theorem State.lowerDuty_linkPins (s : State) (rail : Nat) : (s.lowerDuty rail).linkPins = s.linkPins := by simp [State.lowerDuty]
@[simp] theorem State.raiseDuty_linkPins (s : State) (rail : Nat) : (s.raiseDuty rail).linkPins = s.linkPins := by simp [State.raiseDuty]
@[simp] theorem State.noteRail_linkPins (s : State) (rail avg1 avg50 : Nat) : (s.noteRail rail avg1 avg50).linkPins = s.linkPins := by simp [State.noteRail]
@[simp] theorem radioFloorRule_linkPins (s : State) : KeepsPins s (radioFloorRule s) := by simp [radioFloorRule]
@[simp] theorem railClearEffect_linkPins (s : State) (n : Nat) : (railClearEffect s n).linkPins = s.linkPins := by simp [railClearEffect]
@[simp] theorem State.enterLowest_linkPins (s : State) : s.enterLowest.linkPins = s.linkPins := by simp [State.enterLowest]
@[simp] theorem State.leaveLowest_linkPins (s : State) : s.leaveLowest.linkPins = s.linkPins := by simp [State.leaveLowest]
@[simp] theorem forceLowestEffect_linkPins (s : State) (v : Nat) : (forceLowestEffect s v).linkPins = s.linkPins := by simp [forceLowestEffect]
@[simp] theorem State.chargeEnergy_linkPins (s : State) (account uj : Nat) : (s.chargeEnergy account uj).linkPins = s.linkPins := by simp [State.chargeEnergy]

@[simp] theorem chargeShares_linkPins (s : State) (left : Nat) (shares : List (Nat × Nat)) : (chargeShares s left shares).linkPins = s.linkPins := by
  induction shares generalizing s left with
  | nil => simp [chargeShares]
  | cons e r ih => simp [chargeShares, ih]

@[simp] theorem State.noteAverage_linkPins (s : State) (avg : Nat) : (s.noteAverage avg).linkPins = s.linkPins := by simp [State.noteAverage]

/-! The pins through Machine/Reset.lean. -/

@[simp] theorem State.restPower_linkPins (s : State) : s.restPower.linkPins = s.linkPins := by simp [State.restPower]
@[simp] theorem State.configDefault_linkPins (s : State) : s.configDefault.linkPins = s.linkPins := by simp [State.configDefault]
@[simp] theorem State.jobsTorn_linkPins (s old : State) : (s.jobsTorn old).linkPins = s.linkPins := by simp [State.jobsTorn]
@[simp] theorem State.debugAtReset_linkPins (s : State) : s.debugAtReset.linkPins = s.linkPins := by simp [State.debugAtReset]
@[simp] theorem chipResetRule_linkPins (s : State) : KeepsPins s (chipResetRule s) := by simp [chipResetRule]

/-! The pins through Machine/Reliability.lean. -/

@[simp] theorem State.healthEvent_linkPins (s : State) : s.healthEvent.linkPins = s.linkPins := by simp [State.healthEvent]
@[simp] theorem State.setDegraded_linkPins (s : State) (v : Nat) : (s.setDegraded v).linkPins = s.linkPins := by simp [State.setDegraded]
@[simp] theorem State.countSpares_linkPins (s : State) (k : Nat) : (s.countSpares k).linkPins = s.linkPins := by simp [State.countSpares]
@[simp] theorem State.loseWithoutSpare_linkPins (s : State) (p t : Nat) : (s.loseWithoutSpare p t).linkPins = s.linkPins := by simp [State.loseWithoutSpare]
@[simp] theorem State.standByFor_linkPins (s : State) (t : Nat) : (s.standByFor t).linkPins = s.linkPins := by simp [State.standByFor]
@[simp] theorem State.abortOn_linkPins (s : State) (t : Nat) : (s.abortOn t).linkPins = s.linkPins := by simp [State.abortOn]

@[simp] theorem State.promote_linkPins (s : State) (t p unit : Nat) : (s.promote t p unit).linkPins = s.linkPins := by
  simp only [State.promote]
  split <;> simp

@[simp] theorem State.retireTile_linkPins (s : State) (t unit : Nat) : (s.retireTile t unit).linkPins = s.linkPins := by
  simp only [State.retireTile]
  (repeat' split) <;> simp

@[simp] theorem State.resetTile_linkPins (s : State) (t : Nat) : (s.resetTile t).linkPins = s.linkPins := by simp [State.resetTile]
@[simp] theorem State.tileFailed_linkPins (s : State) (t unit code : Nat) : (s.tileFailed t unit code).linkPins = s.linkPins := by simp [State.tileFailed]
@[simp] theorem State.retirePage_linkPins (s : State) (p : Nat) : (s.retirePage p).linkPins = s.linkPins := by simp [State.retirePage]
@[simp] theorem State.abortCluster_linkPins (s : State) (k : Nat) : (s.abortCluster k).linkPins = s.linkPins := by simp [State.abortCluster]
@[simp] theorem State.holdCluster_linkPins (s : State) (k : Nat) : (s.holdCluster k).linkPins = s.linkPins := by simp [State.holdCluster]
@[simp] theorem State.recoverCluster_linkPins (s : State) (k : Nat) : (s.recoverCluster k).linkPins = s.linkPins := by simp [State.recoverCluster]
@[simp] theorem State.resetCells_linkPins (s : State) (k : Nat) : (s.resetCells k).linkPins = s.linkPins := by simp [State.resetCells]
@[simp] theorem State.fatalError_linkPins (s : State) (unit : Nat) : (s.fatalError unit).linkPins = s.linkPins := by simp [State.fatalError]
@[simp] theorem clusterResetRule_linkPins (s : State) (k : Nat) : KeepsPins s (clusterResetRule s k) := by simp [clusterResetRule]
@[simp] theorem clusterResetEffect_linkPins (s : State) (k : Nat) : (clusterResetEffect s k).linkPins = s.linkPins := by simp [clusterResetEffect]
@[simp] theorem partitionResetRule_linkPins (s : State) (p : Nat) : KeepsPins s (partitionResetRule s p) := by simp [partitionResetRule]
@[simp] theorem partitionResetEffect_linkPins (s : State) (p : Nat) : (partitionResetEffect s p).linkPins = s.linkPins := by simp [partitionResetEffect]
@[simp] theorem tileResetRule_linkPins (s : State) (t : Nat) : KeepsPins s (tileResetRule s t) := by simp [tileResetRule]
@[simp] theorem tileResetEffect_linkPins (s : State) (t : Nat) : (tileResetEffect s t).linkPins = s.linkPins := by simp [tileResetEffect]
@[simp] theorem State.moveLevel_linkPins (s : State) (score : Nat) : (s.moveLevel score).linkPins = s.linkPins := by simp [State.moveLevel]
@[simp] theorem copyStartRule_linkPins (s : State) : KeepsPins s (copyStartRule s) := by simp [copyStartRule]
@[simp] theorem copyStartEffect_linkPins (s : State) : (copyStartEffect s).linkPins = s.linkPins := by simp [copyStartEffect]
@[simp] theorem selftestRule_linkPins (s : State) : KeepsPins s (selftestRule s) := by simp [selftestRule]
@[simp] theorem selftestEffect_linkPins (s : State) : (selftestEffect s).linkPins = s.linkPins := by simp [selftestEffect]

/-! The pins through Machine/Firmware.lean. -/

@[simp] theorem State.stageBundle_linkPins (s : State) (l : List FwImage) : (s.stageBundle l).linkPins = s.linkPins := by simp [State.stageBundle]

@[simp] theorem fwImageRule_linkPins (s : State) (l : List FwImage) : KeepsPins s (fwImageRule s l) := by
  simp only [fwImageRule]
  split
  · simp
  · split
    · simp
    · exact keepsPins_map s _ (fun _ => State.setReg_linkPins ..)

@[simp] theorem fwImageEffect_linkPins (s : State) (l : List FwImage) : (fwImageEffect s l).linkPins = s.linkPins := by simp [fwImageEffect]
@[simp] theorem State.dropStaged_linkPins (s : State) : s.dropStaged.linkPins = s.linkPins := by simp [State.dropStaged]
@[simp] theorem fwSwitchRule_linkPins (s : State) (n l : Nat) : KeepsPins s (fwSwitchRule s n l) := by simp [fwSwitchRule]
@[simp] theorem fwSwitchEffect_linkPins (s : State) (n l : Nat) : (fwSwitchEffect s n l).linkPins = s.linkPins := by simp [fwSwitchEffect]

@[simp] theorem State.setSwitch_linkPins (s : State) (n : Nat) (x : FwSwitch) : (s.setSwitch n x).linkPins = s.linkPins :=
  State.linkPins_of_boot (State.setSwitch_boot ..)

@[simp] theorem State.runImage_linkPins (s : State) (t k : Nat) : (s.runImage t k).linkPins = s.linkPins := by
  simp only [State.runImage]
  split <;> simp

@[simp] theorem State.switchDone_linkPins (s : State) (n : Nat) : (s.switchDone n).linkPins = s.linkPins := by simp [State.switchDone]

@[simp] theorem rollbackRule_linkPins (s : State) (t : Nat) : KeepsPins s (rollbackRule s t) := by
  simp only [rollbackRule]
  (repeat' split) <;> simp

@[simp] theorem rollbackEffect_linkPins (s : State) (t : Nat) : (rollbackEffect s t).linkPins = s.linkPins := by simp [rollbackEffect]

/-! The pins through Machine/Security.lean. -/

@[simp] theorem State.countSessions_linkPins (s : State) : s.countSessions.linkPins = s.linkPins := by simp [State.countSessions]
@[simp] theorem State.closeSession_linkPins (s : State) (k : Nat) : (s.closeSession k).linkPins = s.linkPins := by simp [State.closeSession]
@[simp] theorem State.closeWhere_linkPins (s : State) (f : Session → Bool) : (s.closeWhere f).linkPins = s.linkPins := by simp [State.closeWhere]

@[simp] theorem ownerRule_linkPins (s : State) (c : OwnerCmd) (pf0 : Bool) : KeepsPins s (ownerRule s c pf0) :=
  keepsPins_map s _ (fun _ => State.setReg_linkPins ..)

@[simp] theorem State.clearPeers_linkPins (s : State) : s.clearPeers.linkPins = s.linkPins := by simp [State.clearPeers]

@[simp] theorem ownerEffect_linkPins (s : State) (c : OwnerCmd) : (ownerEffect s c).linkPins = s.linkPins := by
  simp only [ownerEffect]
  split <;> simp

@[simp] theorem debugRule_linkPins (s : State) (bs : List Byte) : KeepsPins s (debugRule s bs) := by simp [debugRule]

@[simp] theorem State.setSpdm_linkPins (s : State) (c : SpdmChannel) (x : SpdmState) : (s.setSpdm c x).linkPins = s.linkPins :=
  State.linkPins_of_boot (State.setSpdm_boot ..)

@[simp] theorem State.spdmSend_linkPins (s : State) (c : SpdmChannel) (code : Nat) (body : List Byte) : (s.spdmSend c code body).linkPins = s.linkPins := by
  simp only [State.spdmSend]
  split <;> simp

@[simp] theorem State.spdmError_linkPins (s : State) (c : SpdmChannel) (e : Nat) : (s.spdmError c e).linkPins = s.linkPins := by simp [State.spdmError]

@[simp] theorem State.spdmAnswer_linkPins (s : State) (c : SpdmChannel) (code : Nat) (b : List Byte) : (s.spdmAnswer c code b).linkPins = s.linkPins := by
  simp only [State.spdmAnswer]
  (repeat' split) <;> simp

@[simp] theorem State.spdmRequest_linkPins (s : State) (c : SpdmChannel) (code : Nat) (b : List Byte) : (s.spdmRequest c code b).linkPins = s.linkPins := by
  simp only [State.spdmRequest]
  (repeat' split) <;> simp

/-! The pins through Machine/Rules.lean. -/

@[simp] theorem linkModeRule_linkPins (s : State) (l v : Nat) : KeepsPins s (linkModeRule s l v) :=
  keepsPins_map s _ (fun _ => State.setReg_linkPins ..)

@[simp] theorem State.ruleLow_linkPins (s : State) (u sub v lnc : Nat) (d : Int) : KeepsPins s (s.ruleLow u sub v lnc d) := by
  simp only [State.ruleLow]
  (repeat' split) <;> simp

@[simp] theorem State.ruleMid_linkPins (s : State) (u sub v lnc : Nat) (bs : List Byte) (i : WInfo) : KeepsPins s (s.ruleMid u sub v lnc bs i) := by
  simp [State.ruleMid]

@[simp] theorem State.ruleHigh_linkPins (s : State) (a : Accessor) (u sub v : Nat) (bs : List Byte) : KeepsPins s (s.ruleHigh a u sub v bs) := by
  simp [State.ruleHigh]

@[simp] theorem State.ruleWindow_linkPins (s : State) (u sub f v : Nat) : KeepsPins s (s.ruleWindow u sub f v) := by simp [State.ruleWindow]

@[simp] theorem State.ownRule_linkPins (s : State) (a : Accessor) (u sub f lnc : Nat) (d : WData) (i : WInfo) :
    KeepsPins s (s.ownRule a u sub f lnc d i) := by
  simp [State.ownRule]

/-! The pins through Machine/Effects.lean. -/

@[simp] theorem linkModeEffect_linkPins (s : State) (l v : Nat) : (linkModeEffect s l v).linkPins = s.linkPins := by simp [linkModeEffect]
@[simp] theorem State.closeAll_linkPins (s : State) : s.closeAll.linkPins = s.linkPins := by simp [State.closeAll]
@[simp] theorem mgModeEffect_linkPins (s : State) (old v : Nat) : (mgModeEffect s old v).linkPins = s.linkPins := by simp [mgModeEffect]
@[simp] theorem mgIpv4Effect_linkPins (s : State) (old v : Nat) : (mgIpv4Effect s old v).linkPins = s.linkPins := by simp [mgIpv4Effect]
@[simp] theorem peerEffect_linkPins (s : State) (key : List Byte) : (peerEffect s key).linkPins = s.linkPins := by simp [peerEffect]
@[simp] theorem timeSourceEffect_linkPins (s : State) (old v : Nat) : (timeSourceEffect s old v).linkPins = s.linkPins := by simp [timeSourceEffect]
@[simp] theorem freqEffect_linkPins (s : State) : (freqEffect s).linkPins = s.linkPins := by simp [freqEffect]
@[simp] theorem ppsTodEffect_linkPins (s : State) (v : Nat) : (ppsTodEffect s v).linkPins = s.linkPins := by simp [ppsTodEffect]
@[simp] theorem incrementEffect_linkPins (s : State) (v : Nat) : (incrementEffect s v).linkPins = s.linkPins := by simp [incrementEffect]

@[simp] theorem State.effectLow_linkPins (s : State) (u sub old v : Nat) (d : Int) : (s.effectLow u sub old v d).linkPins = s.linkPins := by
  simp [State.effectLow]
  (repeat' split) <;> simp

@[simp] theorem State.effectMid_linkPins (s : State) (u sub old v lnc : Nat) (bs : List Byte) : (s.effectMid u sub old v lnc bs).linkPins = s.linkPins := by
  simp [State.effectMid]
  (repeat' split) <;> simp

@[simp] theorem State.effectWindow_linkPins (s : State) (u sub f old v : Nat) : (s.effectWindow u sub f old v).linkPins = s.linkPins := by
  simp [State.effectWindow]

@[simp] theorem State.staleWrite_linkPins (s : State) (p : PendingWrite) : KeepsPins s (s.staleWrite p) := by simp [State.staleWrite]

/-! The pins through Machine/Access.lean. -/

@[simp] theorem State.withWrites_linkPins (s : State) (l : List PendingWrite) : (s.withWrites l).linkPins = s.linkPins := by simp [State.withWrites]

/-- A write that a check refuses leaves the pins, whatever its rule counts. -/
theorem State.checkWrite_linkPins (s : State) (a : Accessor) (index sub : Nat) (d : WData) (lnc : Option Nat) (i : WInfo) (block : List PendingWrite)
    {r : Nat × State} (h : s.checkWrite a index sub d lnc i block = .error r) : r.2.linkPins = s.linkPins := by
  simp only [State.checkWrite] at h
  split at h
  · cases h; rfl
  · split at h
    · cases h; rfl
    · split at h
      · cases h; rfl
      · obtain ⟨-, h⟩ | ⟨-, h⟩ := ite_eq_iff.mp h
        · cases h; rfl
        · split at h
          · cases h; rfl
          · split at h <;> cases h
            case h_1 hrule => simpa using State.ownRule_linkPins _ _ _ _ _ _ _ _ _ hrule

@[simp] theorem State.commitPlans_linkPins (s : State) (ps : List Plan) (ok : Bool) : (s.commitPlans ps ok).2.linkPins = s.linkPins := by
  simp only [State.commitPlans]
  (repeat' split) <;> simp

@[simp] theorem State.takeObject_linkPins (s : State) (a : Accessor) (u sub f : Nat) (o : ObjDef) (last : Bool) :
    (s.takeObject a u sub f o last).1.linkPins = s.linkPins := by
  simp only [State.takeObject]
  (repeat' split) <;> simp

@[simp] theorem State.readObject_linkPins (s : State) (a : Accessor) (index sub offset : Nat) :
    (s.readObject a index sub offset).1.linkPins = s.linkPins := by
  simp only [State.readObject]
  (repeat' split) <;> simp

@[simp] theorem State.blockItems_linkPins (s : State) (a : Accessor) (index : Nat) (subs : List Nat) :
    (s.blockItems a index subs).1.linkPins = s.linkPins := by
  refine State.linkPins_foldl_fst (fun x sub => ?_) _ _
  dsimp only
  split
  · rfl
  · split <;> simp

@[simp] theorem State.readBlock_linkPins (s : State) (a : Accessor) (index sub last : Nat) : (s.readBlock a index sub last).1.linkPins = s.linkPins := by
  simp only [State.readBlock]
  (repeat' split) <;> simp

@[simp] theorem State.setStage_linkPins (s : State) (h : Nat) (x : Option Stage) : (s.setStage h x).linkPins = s.linkPins :=
  State.linkPins_of_boot (State.setStage_boot ..)

@[simp] theorem State.segment_linkPins (s : State) (h k offset : Nat) (more : Bool) (bs : List Byte) :
    (s.segment h k offset more bs).1.linkPins = s.linkPins := by
  simp only [State.segment]
  (repeat' split) <;> simp

@[simp] theorem State.hdpAnswer_linkPins (s : State) (h : HdpFrame) (x : Session) (r : Reply) : (s.hdpAnswer h x r).linkPins = s.linkPins := by
  simp only [State.hdpAnswer]
  split <;> simp

/-! The pins through Machine/Hdp.lean. -/

@[simp] theorem State.setHandshake_linkPins (s : State) (k : Nat) (x : Option Handshake) : (s.setHandshake k x).linkPins = s.linkPins :=
  State.linkPins_of_boot (State.setHandshake_boot ..)

@[simp] theorem State.helloRespond_linkPins (s : State) (k : Nat) (x : Handshake) (eph nonce : List Byte) :
    (s.helloRespond k x eph nonce).linkPins = s.linkPins := by
  simp [State.helloRespond]

@[simp] theorem State.helloRefuse_linkPins (s : State) (h : HdpFrame) (status : Nat) : (s.helloRefuse h status).linkPins = s.linkPins := by
  simp [State.helloRefuse]

@[simp] theorem State.handshakeFails_linkPins (s : State) (k : Nat) : (s.handshakeFails k).linkPins = s.linkPins := by simp [State.handshakeFails]

@[simp] theorem State.setSubs_linkPins (s : State) (holder : Nat) (l : List Subscription) : (s.setSubs holder l).linkPins = s.linkPins :=
  State.linkPins_of_boot (State.setSubs_boot ..)

@[simp] theorem State.subscribe_linkPins (s : State) (a : Accessor) (index sub last interval mode : Nat) :
    (s.subscribe a index sub last interval mode).1.linkPins = s.linkPins := by
  simp only [State.subscribe]
  (repeat' split) <;> simp

@[simp] theorem State.sendNote_linkPins (s : State) (holder : Nat) (x : Subscription) (v : List Byte) : (s.sendNote holder x v).linkPins = s.linkPins := by
  simp only [State.sendNote]
  (repeat' split) <;> simp

/-! The pins through Machine/Startup.lean. -/

@[simp] theorem State.bookFails_linkPins (s : State) (index sub status : Nat) : (s.bookFails index sub status).linkPins = s.linkPins := by
  simp [State.bookFails]

theorem State.bookCheck_linkPins (s : State) (o : ObjDef) (index sub : Nat) (d : WData) {r : Nat × State} (h : s.bookCheck o index sub d = .error r) :
    r.2.linkPins = s.linkPins := by
  simp only [State.bookCheck] at h
  split at h
  · cases h; rfl
  · obtain ⟨-, h⟩ | ⟨-, h⟩ := ite_eq_iff.mp h
    · cases h; rfl
    · split at h <;> cases h
      case h_1 hrule => exact State.ownRule_linkPins _ _ _ _ _ _ _ _ _ hrule

@[simp] theorem State.bookSource_linkPins (s : State) : s.bookSource.linkPins = s.linkPins := by simp [State.bookSource]
@[simp] theorem State.runSet_linkPins (s : State) (l : List FwImage) : (s.runSet l).linkPins = s.linkPins := by simp [State.runSet]
@[simp] theorem State.bootFails_linkPins (s : State) : s.bootFails.linkPins = s.linkPins := by simp [State.bootFails]
@[simp] theorem State.powerClusters_linkPins (s : State) : s.powerClusters.linkPins = s.linkPins := by simp [State.powerClusters]

/-! The pins through Machine/Switch.lean. -/

@[simp] theorem State.forgetReads_linkPins (s : State) (n rank : Nat) : (s.forgetReads n rank).linkPins = s.linkPins := by simp [State.forgetReads]
@[simp] theorem State.fillSaveArea_linkPins (s : State) (tile bytes : Nat) : (s.fillSaveArea tile bytes).linkPins = s.linkPins := by simp [State.fillSaveArea]
@[simp] theorem State.resumeRemote_linkPins (s : State) (n rank : Nat) : (s.resumeRemote n rank).linkPins = s.linkPins := by simp [State.resumeRemote]

/-! The pins through Machine/VsMemory.lean. -/

@[simp] theorem vsLoadRun_linkPins (s : State) (tile : Nat) (i : VsCode) (f : MFields) (size : Nat) (g : Vs → Nat → Vs) :
    (vsLoadRun s tile i f size g).linkPins = s.linkPins := by
  simp [vsLoadRun]

/-! What takes the link down, and what a write of the dictionary can do to it. -/

/-- The invariant, read on the pins. -/
def PinsOk (p : Bool × Bool × Bool) : Prop := (p.1 = true → p.2.1 = false) ∧ (p.2.1 = false → p.2.2 = false)

theorem State.linkOk_iff (s : State) : s.linkOk ↔ PinsOk s.linkPins := Iff.rfl

/-- Without a link and with VF Enable clear the invariant holds, whatever PERST_N is. -/
@[simp] theorem pinsOk_down (perst : Bool) : PinsOk (perst, false, false) := ⟨fun _ => rfl, fun _ => rfl⟩

@[simp] theorem pinsOk_ite (c : Prop) [Decidable c] (p q : Bool × Bool × Bool) : PinsOk (if c then p else q) ↔ if c then PinsOk p else PinsOk q :=
  iff_of_eq (apply_ite PinsOk c p q)

theorem pinsOk_foldl {α : Type} {f : State → α → State} (hf : ∀ t a, PinsOk t.linkPins → PinsOk (f t a).linkPins) (l : List α) {s : State}
    (h : PinsOk s.linkPins) : PinsOk (l.foldl f s).linkPins := by
  induction l generalizing s with
  | nil => exact h
  | cons a l ih => exact ih (hf s a h)

theorem State.disableVfs_linkPins (s : State) : s.disableVfs.linkPins = (s.boot.perst, s.boot.link, false) :=
  State.linkPins_foldl (fun t i => by split <;> simp) _ _

@[simp] theorem State.linkGone_linkPins (s : State) : s.linkGone.linkPins = (s.boot.perst, false, false) := by
  simp [State.linkGone, State.disableVfs_linkPins]

@[simp] theorem State.switchedOff_linkPins (s : State) : s.switchedOff.linkPins = (s.boot.perst, false, false) := rfl

@[simp] theorem State.allOff_linkPins (s : State) : s.allOff.linkPins = (s.servoStops.boot.perst, false, false) := by
  simp [State.allOff]

@[simp] theorem State.chipReset_linkPins (s : State) (cause : Nat) : (s.chipReset cause).linkPins = (s.servoStops.boot.perst, false, false) := by
  simp [State.chipReset]

@[simp] theorem pinsOk_disableVfs {s : State} (h : PinsOk s.linkPins) : PinsOk s.disableVfs.linkPins := by
  rw [State.disableVfs_linkPins]
  exact ⟨h.1, fun _ => rfl⟩

/-- A reset that is asked for takes the link down at once or leaves the pins until its instant. -/
@[simp] theorem pinsOk_askReset {s : State} (cause : Nat) (h : PinsOk s.linkPins) : PinsOk (s.askReset cause).linkPins := by
  simp only [State.askReset]
  split
  · simp
  · rw [State.linkPins_mk_boot, State.pins_eq_linkPins]
    refine pinsOk_foldl (fun t p ht => by split <;> simpa using ht) _ (pinsOk_foldl (fun t c ht => by simpa using ht) _ (pinsOk_foldl (fun t c ht => ?_) _ h))
    split
    · split <;> simpa using ht
    · exact ht

@[simp] theorem pinsOk_effectHigh {s : State} (holder u sub v : Nat) (old bs : List Byte) (h : PinsOk s.linkPins) :
    PinsOk (s.effectHigh holder u sub v old bs).linkPins := by
  simp [State.effectHigh, chipResetEffect, debugEffect, h]

@[simp] theorem pinsOk_effectNum {s : State} (holder u sub f old : Nat) (v : Int) (lnc : Nat) (h : PinsOk s.linkPins) :
    PinsOk (s.effectNum holder u sub f old v lnc).linkPins := by
  simp [State.effectNum, h]

@[simp] theorem pinsOk_effectBytes {s : State} (holder u sub : Nat) (old bs : List Byte) (lnc : Nat) (h : PinsOk s.linkPins) :
    PinsOk (s.effectBytes holder u sub old bs lnc).linkPins := by
  simp [State.effectBytes, h]

@[simp] theorem pinsOk_applyWrite {s : State} (p : PendingWrite) (h : PinsOk s.linkPins) : PinsOk (s.applyWrite p).linkPins := by
  simp only [State.applyWrite]
  split
  · (repeat' split) <;> simp [h]
  · simp [h]

@[simp] theorem pinsOk_enact {s : State} (holder : Nat) (i : WInfo) (p : Plan) (h : PinsOk s.linkPins) : PinsOk (s.enact holder i p).linkPins := by
  simp [State.enact, h]

@[simp] theorem pinsOk_writeObject {s : State} (a : Accessor) (index sub : Nat) (d : WData) (lnc : Option Nat) (ok : Bool) (i : WInfo)
    (h : PinsOk s.linkPins) : PinsOk (s.writeObject a index sub d lnc ok i).2.linkPins := by
  simp only [State.writeObject]
  split
  case h_1 hcheck => rwa [State.checkWrite_linkPins s a index sub d lnc i [] hcheck]
  case h_2 => split <;> simp [h]

@[simp] theorem pinsOk_writeBlock {s : State} (a : Accessor) (index : Nat) (items : List (Nat × WData)) (lnc : Option Nat) (ok : Bool) (i : Nat → WInfo)
    (h : PinsOk s.linkPins) : PinsOk (s.writeBlock a index items lnc ok i).1.linkPins := by
  simp only [State.writeBlock]
  split
  case h_1 sub e hfind =>
    obtain ⟨x, -, hx⟩ := List.mem_map.mp (List.mem_of_find?_eq_some hfind)
    rwa [State.checkWrite_linkPins s a index _ _ lnc _ _ (congrArg Prod.snd hx)]
  case h_2 =>
    split
    · simp [h]
    · exact pinsOk_foldl (fun t p ht => pinsOk_enact _ _ _ ht) _ (by simp [h])

@[simp] theorem pinsOk_windowAccess {s : State} (f : Nat) (w : Window) {run : State → State × Reply} (hrun : PinsOk (run s).1.linkPins)
    (h : PinsOk s.linkPins) : PinsOk (s.windowAccess f w run).linkPins := by
  simp only [State.windowAccess]
  split
  · exact h
  · split <;> simp [h, hrun]

@[simp] theorem pinsOk_hdpAccess {s : State} (h' : HdpFrame) (c : Window) (early : Bool) {run : State → State × Reply} (hrun : PinsOk (run s).1.linkPins)
    (h : PinsOk s.linkPins) : PinsOk (s.hdpAccess h' c early run).linkPins := by
  simp only [State.hdpAccess]
  split
  · exact h
  · split
    · simp [h]
    · split
      · simp [h]
      · split
        · simp [h]
        · split
          · simp [h]
          · split
            · simp [h]
            · (repeat' split) <;> simp [h, hrun]

@[simp] theorem pinsOk_access {s : State} (a : Accessor) (w : Window) (early : Bool) {run : State → State × Reply} (hrun : PinsOk (run s).1.linkPins)
    (h : PinsOk s.linkPins) : PinsOk (s.access a w early run).linkPins := by
  cases a <;> simp [State.access, h, hrun]

@[simp] theorem pinsOk_dictWrite {s : State} (w : Wr) (index sub : Nat) (i : WInfo) (h : PinsOk s.linkPins) :
    PinsOk (s.dictWrite w index sub i).linkPins := by
  simp [State.dictWrite, h]

@[simp] theorem pinsOk_dictRead {s : State} (a : Accessor) (index sub offset : Nat) (h : PinsOk s.linkPins) :
    PinsOk (s.dictRead a index sub offset).linkPins := by
  simp [State.dictRead, h]

@[simp] theorem pinsOk_cellWrite {s : State} (w : Wr) (c cmd : Nat) (peer : Bool) (h : PinsOk s.linkPins) : PinsOk (s.cellWrite w c cmd peer).linkPins := by
  simp [State.cellWrite, h]

@[simp] theorem pinsOk_ownerWrite {s : State} (w : Wr) (op : Nat) (h : PinsOk s.linkPins) : PinsOk (s.ownerWrite w op).linkPins := by
  simp [State.ownerWrite, h]

/-! The boot book writes objects as start-up goes on. -/

@[simp] theorem pinsOk_bookTake {s : State} (index sub : Nat) (v : WData) (h : PinsOk s.linkPins) : PinsOk (s.bookTake index sub v).linkPins := by
  simp only [State.bookTake]
  split
  · split <;> simp [h]
  · simp [h]

@[simp] theorem pinsOk_bookItem {s : State} (k : Nat) (d : WData) (h : PinsOk s.linkPins) : PinsOk (s.bookItem k d).linkPins := by
  simp only [State.bookItem]
  split
  · exact h
  · split
    · exact h
    · split
      case h_1 hcheck => simpa [State.bookCheck_linkPins _ _ _ _ _ hcheck] using h
      case h_2 => simp [h]

@[simp] theorem pinsOk_scriptItem {s : State} (e : Nat × Nat × Nat × List Byte) (h : PinsOk s.linkPins) : PinsOk (s.scriptItem e).linkPins := by
  simp only [State.scriptItem]
  split
  · simp [h]
  · split
    · simp [h]
    · split
      · simp [h]
      · split
        · simp [h]
        · split
          case h_1 hcheck => simpa [State.bookCheck_linkPins _ _ _ _ _ hcheck] using h
          case h_2 => simp [h]

theorem pinsOk_bookItems (l : List (Nat × WData)) {s : State} (h : PinsOk s.linkPins) :
    PinsOk (List.foldl (fun (s : State) (e : Nat × WData) => s.bookItem e.1 e.2) s l).linkPins :=
  pinsOk_foldl (fun _ e ht => pinsOk_bookItem e.1 e.2 ht) l h

theorem pinsOk_scriptItems (l : List (Nat × Nat × Nat × List Byte)) {s : State} (h : PinsOk s.linkPins) : PinsOk (l.foldl State.scriptItem s).linkPins :=
  pinsOk_foldl (fun _ e ht => pinsOk_scriptItem e ht) l h

@[simp] theorem pinsOk_applyBook {s : State} (h : PinsOk s.linkPins) : PinsOk s.applyBook.linkPins := by
  have hcleared : PinsOk ((s.setReg Reg.bookStatus 0).setReg Reg.bookFailItem 0).linkPins := by simpa using h
  unfold State.applyBook
  extract_lets s1 s2 s3 s4 m s5 s6
  have h3 : PinsOk s3.linkPins := pinsOk_scriptItems _ (pinsOk_bookItems _ hcleared)
  have h6 : s6.linkPins = s3.linkPins := by
    simp only [s6, s5, s4, State.linkPins_ite, State.setDomain_linkPins, State.linkPins_mk, ite_self, State.bookSource_linkPins]
  rwa [State.rederive_linkPins, State.setBlob_linkPins, h6]

/-! The rows that choose by a pattern, or that end in a list of changes. -/

/-- Every state that `o` answers has the pins of `s`. -/
def NextKeeps (s : State) (o : Out) : Prop := ∀ t, o = .next t → t.linkPins = s.linkPins

@[simp] theorem nextKeeps_next (s t : State) : NextKeeps s (.next t) ↔ t.linkPins = s.linkPins :=
  ⟨fun h => h t rfl, fun h u hu => by cases hu; exact h⟩

theorem execPtpMessageTx_linkPins (port kind : Nat) (s : State) : NextKeeps s (execPtpMessageTx port kind s) := by
  simp only [execPtpMessageTx]
  split
  · simp
  case h_2 hm => (repeat' split) <;> simp [State.ptpMessage_linkPins s port kind hm]

theorem execTaskLaunch_linkPins (task : Nat) (s : State) : NextKeeps s (execTaskLaunch task s) := by
  simp only [execTaskLaunch]
  split <;> simp

theorem execResizeEviction_linkPins (p : Nat) (s : State) : NextKeeps s (execResizeEviction p s) := by
  simp only [execResizeEviction]
  (repeat' split) <;> simp

theorem execResizeTilesLeave_linkPins (p : Nat) (s : State) : NextKeeps s (execResizeTilesLeave p s) := by
  simp only [execResizeTilesLeave]
  (repeat' split) <;> simp

theorem execResizeApply_linkPins (p : Nat) (s : State) : NextKeeps s (execResizeApply p s) := by
  simp only [execResizeApply]
  split <;> simp

theorem execSwitchComplete_linkPins (tile : Nat) (s : State) : NextKeeps s (execSwitchComplete tile s) := by
  simp only [execSwitchComplete]
  (repeat' split) <;> simp

theorem execLoanWindowResize_linkPins (tile : Nat) (s : State) : NextKeeps s (execLoanWindowResize tile s) := by
  simp only [execLoanWindowResize]
  split <;> simp

theorem execSnapshotCapture_linkPins (f : Nat) (s : State) : NextKeeps s (execSnapshotCapture f s) := by
  simp only [execSnapshotCapture]
  split <;> simp

theorem execXIssueAccepted_linkPins (tile : Nat) (s : State) : NextKeeps s (execXIssueAccepted tile s) := by
  simp only [execXIssueAccepted]
  (repeat' split) <;> simp

theorem execPassComplete_linkPins (tile : Nat) (s : State) : NextKeeps s (execPassComplete tile s) := by
  simp only [execPassComplete]
  split <;> simp

theorem execMvPassComplete_linkPins (tile : Nat) (s : State) : NextKeeps s (execMvPassComplete tile s) := by
  simp only [execMvPassComplete]
  split <;> simp

theorem execMoveComplete_linkPins (tile : Nat) (s : State) : NextKeeps s (execMoveComplete tile s) := by
  simp only [execMoveComplete]
  (repeat' split) <;> simp

theorem execTaskComplete_linkPins (task : Nat) (s : State) : NextKeeps s (execTaskComplete task s) := by
  simp only [execTaskComplete]
  split <;> simp

theorem execKernelLoad_linkPins (f r : Nat) (package : List Byte) (s : State) : NextKeeps s (execKernelLoad f r package s) := by
  rw [execKernelLoad, nextKeeps_next]
  refine State.admitDesc_linkPins s f r _ _ (fun t d x => State.descRead_linkPins t d _ _ _ (fun p => ?_))
  split
  · simp
  · split <;> simp

theorem execKernelFree_linkPins (f r : Nat) (s : State) : NextKeeps s (execKernelFree f r s) := by
  rw [execKernelFree, nextKeeps_next]
  refine State.admitDesc_linkPins s f r _ _ (fun t d x => ?_)
  dsimp only
  split
  · simp
  · (repeat' split) <;> simp

theorem execDft_linkPins (inv node : Nat) (s : State) : NextKeeps s (execDft inv node s) := by
  simp only [execDft]
  split <;> simp

theorem execElementwise_linkPins (inv node : Nat) (s : State) : NextKeeps s (execElementwise inv node s) := by
  simp only [execElementwise]
  split <;> simp

theorem execQuant_linkPins (inv node : Nat) (s : State) : NextKeeps s (execQuant inv node s) := by
  simp only [execQuant]
  split <;> simp

theorem execReducePartialArrival_linkPins (inv node rank : Nat) (data : List Word32) (s : State) :
    NextKeeps s (execReducePartialArrival inv node rank data s) := by
  simp only [execReducePartialArrival]
  split <;> simp

theorem execMoveNode_linkPins (inv node vt : Nat) (s : State) : NextKeeps s (execMoveNode inv node vt s) := by
  simp only [execMoveNode]
  (repeat' split) <;> simp

theorem execAtomic_linkPins (inv node : Nat) (s : State) : NextKeeps s (execAtomic inv node s) := by
  simp only [execAtomic]
  split <;> simp

theorem execNodeComplete_linkPins (inv node : Nat) (s : State) : NextKeeps s (execNodeComplete inv node s) := by
  simp only [execNodeComplete]
  (repeat' split) <;> simp

theorem execModelLoad_linkPins (f r : Nat) (container : List Byte) (s : State) : NextKeeps s (execModelLoad f r container s) := by
  rw [execModelLoad, nextKeeps_next]
  refine State.admitDesc_linkPins s f r _ _ (fun t d x => State.descRead_linkPins t d _ _ _ (fun p => ?_))
  dsimp only
  split <;> simp

theorem execModelLoadComplete_linkPins (slot : Nat) (s : State) : NextKeeps s (execModelLoadComplete slot s) := by
  simp only [execModelLoadComplete]
  split <;> simp

theorem execModelUnloadComplete_linkPins (slot : Nat) (s : State) : NextKeeps s (execModelUnloadComplete slot s) := by
  simp only [execModelUnloadComplete]
  split <;> simp

theorem execInvoke_linkPins (f r : Nat) (io : List (Nat × Nat)) (s : State) : NextKeeps s (execInvoke f r io s) := by
  rw [execInvoke, nextKeeps_next]
  refine State.admitDesc_linkPins s f r _ _ (fun t d x => State.descRead_linkPins t d _ _ _ (fun p => ?_))
  split <;> simp

/-- The state that the outputs leave, whichever way they end. -/
def Outputs.after : Outputs → State
  | .done s => s
  | .waits s => s
  | .stops s => s

theorem State.writeOutput_linkPins (i : Nat) (a : Outputs) (e : Nat × IoDecl) : (State.writeOutput i a e).after.linkPins = a.after.linkPins := by
  cases a with
  | done s =>
    simp only [State.writeOutput]
    split
    · rfl
    · split
      · simp [Outputs.after]
      · split
        · simp [Outputs.after]
        case h_2 hwrite => simpa [Outputs.after] using State.vaWrite_linkPins _ _ _ _ hwrite
  | waits s => rfl
  | stops s => rfl

theorem State.writeOutputs_linkPins (s : State) (i : Nat) : (s.writeOutputs i).after.linkPins = s.linkPins := by
  have hall : ∀ (l : List (Nat × IoDecl)) (a : Outputs), (l.foldl (State.writeOutput i) a).after.linkPins = a.after.linkPins := by
    intro l
    induction l with
    | nil => exact fun _ => rfl
    | cons e l ih => exact fun a => (ih _).trans (State.writeOutput_linkPins i a e)
  simp only [State.writeOutputs]
  split
  · exact hall _ _
  · simp [Outputs.after]

theorem execInvocationComplete_linkPins (inv : Nat) (s : State) : NextKeeps s (execInvocationComplete inv s) := by
  rw [execInvocationComplete, nextKeeps_next]
  refine State.linkPins_of_when (State.linkPins_of_ite ?_ (State.endInv_linkPins ..))
  have hout := State.writeOutputs_linkPins s inv
  split
  case h_1 hdone => simpa [hdone, Outputs.after] using hout
  case h_2 hwaits => simpa [hwaits, Outputs.after] using hout
  case h_3 hstops => simpa [hstops, Outputs.after] using hout

theorem execWaveIssue_linkPins (inv : Nat) (s : State) : NextKeeps s (execWaveIssue inv s) := by
  simp only [execWaveIssue]
  split <;> simp

theorem execLdpcDecode_linkPins (c : Nat) (b : CodeBlock) (s : State) : NextKeeps s (execLdpcDecode c b s) := by
  simp only [execLdpcDecode]
  (repeat' split) <;> simp

theorem execLdpcEncode_linkPins (c slot pdu index : Nat) (s : State) : NextKeeps s (execLdpcEncode c slot pdu index s) := by
  simp only [execLdpcEncode]
  (repeat' split) <;> simp

theorem execPolarEncode_linkPins (c slot pdu index : Nat) (s : State) : NextKeeps s (execPolarEncode c slot pdu index s) := by
  simp only [execPolarEncode]
  (repeat' split) <;> simp

theorem execResultBatchWrite_linkPins (c slot otype btype : Nat) (entries : List (Nat × Nat × List Byte)) (s : State) :
    NextKeeps s (execResultBatchWrite c slot otype btype entries s) := by
  simp only [execResultBatchWrite]
  (repeat' split) <;> simp

theorem execSrsEstimateExpiry_linkPins (c handle : Nat) (s : State) : NextKeeps s (execSrsEstimateExpiry c handle s) := by
  simp only [execSrsEstimateExpiry]
  split <;> simp

theorem execHoldSourceSwitch_linkPins (c : Nat) (s : State) : NextKeeps s (execHoldSourceSwitch c s) := by
  simp only [execHoldSourceSwitch]
  split <;> simp

theorem execConductorSelfcheckPass_linkPins (cluster core : Nat) (s : State) : NextKeeps s (execConductorSelfcheckPass cluster core s) := by
  simp only [execConductorSelfcheckPass]
  split <;> simp

theorem execConductorRestartByControl_linkPins (cluster : Nat) (s : State) : NextKeeps s (execConductorRestartByControl cluster s) := by
  simp only [execConductorRestartByControl]
  split <;> simp

theorem execFrameReceive_linkPins (p : Nat) (f : RxFrame) (s : State) : NextKeeps s (execFrameReceive p f s) := by
  simp only [execFrameReceive]
  (repeat' split) <;> simp

theorem execEgressFrameStart_linkPins (p : Nat) (s : State) : NextKeeps s (execEgressFrameStart p s) := by
  simp only [execEgressFrameStart]
  split <;> simp

theorem execFrameTxWriteback_linkPins (f r : Nat) (s : State) : NextKeeps s (execFrameTxWriteback f r s) := by
  simp only [execFrameTxWriteback]
  split <;> simp

theorem execMap_linkPins (f r : Nat) (s : State) : NextKeeps s (execMap f r s) := by
  rw [execMap, nextKeeps_next]
  refine State.admitDesc_linkPins s f r _ _ (fun t d x => ?_)
  dsimp only
  split <;> simp

theorem execUnmap_linkPins (f r : Nat) (s : State) : NextKeeps s (execUnmap f r s) := by
  rw [execUnmap, nextKeeps_next]
  refine State.admitDesc_linkPins s f r _ _ (fun t d x => ?_)
  dsimp only
  split <;> simp

theorem execPatrolScrub_linkPins (gddr : Bool) (tile word kind : Nat) (s : State) : NextKeeps s (execPatrolScrub gddr tile word kind s) := by
  simp only [execPatrolScrub]
  (repeat' split) <;> simp

theorem execFabricFrameReceive_linkPins (link etherType : Nat) (packets : List Packet) (priorities : List Nat) (ptp : Option PtpMsg) (fcsOk : Bool)
    (s : State) : NextKeeps s (execFabricFrameReceive link etherType packets priorities ptp fcsOk s) := by
  simp only [execFabricFrameReceive]
  (repeat' split) <;> simp

theorem execFence_linkPins (tile : Nat) (s : State) : NextKeeps s (execFence tile s) := by
  simp only [execFence]
  split <;> simp

theorem execFenceComplete_linkPins (ctx : Nat) (s : State) : NextKeeps s (execFenceComplete ctx s) := by
  rw [execFenceComplete, nextKeeps_next]
  refine (State.linkPins_foldl (fun t x => ?_) _ _).trans (State.linkPins_mk ..)
  split
  · rfl
  · split <;> simp

theorem execRequestRetry_linkPins (id : Nat) (s : State) : NextKeeps s (execRequestRetry id s) := by
  simp only [execRequestRetry]
  (repeat' split) <;> simp

theorem execRequestLost_linkPins (id : Nat) (s : State) : NextKeeps s (execRequestLost id s) := by
  simp only [execRequestLost]
  split <;> simp

theorem execDestroy_linkPins (f r : Nat) (s : State) : NextKeeps s (execDestroy f r s) := by
  rw [execDestroy, nextKeeps_next]
  refine State.admitSync_linkPins s f r 2 (fun t d b => ?_)
  split
  · simp
  · (repeat' split) <;> simp

theorem execSignal_linkPins (f r : Nat) (s : State) : NextKeeps s (execSignal f r s) := by
  rw [execSignal, nextKeeps_next]
  refine State.admitSync_linkPins s f r 3 (fun t d b => ?_)
  split
  · simp
  · (repeat' split) <;> simp

theorem execEventReset_linkPins (f r : Nat) (s : State) : NextKeeps s (execEventReset f r s) := by
  rw [execEventReset, nextKeeps_next]
  refine State.admitSync_linkPins s f r 4 (fun t d b => ?_)
  split
  · simp
  · (repeat' split) <;> simp

theorem execProxy_linkPins (f r : Nat) (granted : Option (Nat × Nat × Nat)) (s : State) : NextKeeps s (execProxy f r granted s) := by
  simp only [execProxy]
  split <;> simp

theorem execRingEnable_linkPins (f r : Nat) (h : Option Slot64) (s : State) : NextKeeps s (execRingEnable f r h s) := by
  simp only [execRingEnable]
  split <;> simp

theorem execTask_linkPins (f r : Nat) (args : List Byte) (s : State) : NextKeeps s (execTask f r args s) := by
  rw [execTask, nextKeeps_next]
  refine State.admitDesc_linkPins s f r _ _ (fun t d x => ?_)
  dsimp only
  split
  · simp
  · exact State.descRead_linkPins t d _ _ _ (fun bs => State.addTask_linkPins ..)

theorem execTdispRequest_linkPins (f code : Nat) (nonceOk : Bool) (s : State) : NextKeeps s (execTdispRequest f code nonceOk s) := by
  simp only [execTdispRequest]
  split <;> simp

theorem execIdeKmRequest_linkPins (channel : SpdmChannel) (body : List Byte) (s : State) : NextKeeps s (execIdeKmRequest channel body s) := by
  simp only [execIdeKmRequest]
  (repeat' split) <;> simp

theorem execNotify_linkPins (holder index sub : Nat) (s : State) : NextKeeps s (execNotify holder index sub s) := by
  simp only [execNotify]
  split <;> simp

theorem execHello_linkPins (h : HdpFrame) (s : State) : NextKeeps s (execHello h s) := by
  simp only [execHello]
  (repeat' split) <;> simp

theorem execProveTimeout_linkPins (session : Nat) (s : State) : NextKeeps s (execProveTimeout session s) := by
  simp only [execProveTimeout]
  split <;> simp

theorem execSessionIdleTimeout_linkPins (session : Nat) (s : State) : NextKeeps s (execSessionIdleTimeout session s) := by
  simp only [execSessionIdleTimeout]
  split <;> simp

theorem execSegmentTimeout_linkPins (holder : Nat) (s : State) : NextKeeps s (execSegmentTimeout holder s) := by
  simp only [execSegmentTimeout]
  split <;> simp

theorem execRadioRerun_linkPins (task : Nat) (s : State) : NextKeeps s (execRadioRerun task s) := by
  simp only [execRadioRerun]
  split <;> simp

theorem execPromotionSwitch_linkPins (tile : Nat) (s : State) : NextKeeps s (execPromotionSwitch tile s) := by
  simp only [execPromotionSwitch]
  (repeat' split) <;> simp

theorem execCopyDone_linkPins (ok : Bool) (s : State) : NextKeeps s (execCopyDone ok s) := by
  simp only [execCopyDone]
  split <;> simp

theorem execFwConductorPass_linkPins (n : Nat) (s : State) : NextKeeps s (execFwConductorPass n s) := by
  simp only [execFwConductorPass]
  split <;> simp

theorem execFwSelfcheckFail_linkPins (n : Nat) (s : State) : NextKeeps s (execFwSelfcheckFail n s) := by
  simp only [execFwSelfcheckFail]
  split <;> simp

theorem execRollbackAdvanceComplete_linkPins  (s : State) : NextKeeps s (execRollbackAdvanceComplete  s) := by
  rw [execRollbackAdvanceComplete, nextKeeps_next]
  refine State.linkPins_of_when ((State.linkPins_foldl (fun t l => ?_) _ _).trans ?_)
  · split <;> simp
  · simp

theorem execAliasDerivationComplete_linkPins  (s : State) : NextKeeps s (execAliasDerivationComplete  s) := by
  rw [execAliasDerivationComplete, nextKeeps_next]
  refine State.linkPins_of_when ((State.linkPins_foldl (fun t e => ?_) _ _).trans ((State.linkPins_foldl (fun t h => ?_) _ _).trans ?_))
  · split <;> simp
  · split <;> simp
  · simp

theorem execSpdmUnsupportedRequest_linkPins (ch : SpdmChannel) (code : Nat) (body : List Byte) (s : State) :
    NextKeeps s (execSpdmUnsupportedRequest ch code body s) := by
  simp only [execSpdmUnsupportedRequest]
  split <;> simp [State.spdmRow]

/-! The rows that drive PERST_N, the link and VF Enable, and the rows that write the dictionary in their own way. -/

theorem pinsOk_execPendingWriteApply (key : Nat) {s t : State} (hx : execPendingWriteApply key s = .next t) (h : PinsOk s.linkPins) : PinsOk t.linkPins := by
  simp only [execPendingWriteApply] at hx
  split at hx <;> cases hx
  · exact h
  case h_2 p _ =>
    rw [State.when_linkPins, pinsOk_ite]
    split
    · split
      case h_1 hstale => rw [State.staleWrite_linkPins _ _ _ hstale]; simpa using h
      case h_2 => simp [h]
    · exact h

theorem pinsOk_execProve (h' : HdpFrame) {s t : State} (hx : execProve h' s = .next t) (h : PinsOk s.linkPins) : PinsOk t.linkPins := by
  cases hx
  split
  · simp [h]
  · split
    · exact h
    · split
      · simp [h]
      · split
        · simp [h]
        · dsimp only
          split
          · split <;> simp [h]
          · simp [h]

theorem pinsOk_execDictWrite (w : Wr) (index sub offset : Nat) (more : Bool) {s t : State} (hx : execDictWrite w index sub offset more s = .next t)
    (h : PinsOk s.linkPins) : PinsOk t.linkPins := by
  cases hx
  rw [State.fresh_linkPins]
  refine pinsOk_access _ _ _ ?_ h
  split
  · split <;> simp [h]
  · dsimp only
    split <;> simp [h]

theorem pinsOk_execWriteBlock (acc : Accessor) (index : Nat) (data : List Byte) (lnc : Option Nat) (commitOk : Bool) {s t : State}
    (hx : execWriteBlock acc index data lnc commitOk s = .next t) (h : PinsOk s.linkPins) : PinsOk t.linkPins := by
  cases hx
  rw [State.fresh_linkPins]
  refine pinsOk_access _ _ _ ?_ h
  split <;> simp [h]

theorem pinsOk_execVfEnableSet {s t : State} (hx : execVfEnableSet s = .next t) (h : PinsOk s.linkPins) : PinsOk t.linkPins := by
  cases hx
  rw [State.when_linkPins]
  split
  case isTrue hlink => exact ⟨h.1, fun hdown => absurd (hdown.symm.trans hlink) (by decide)⟩
  case isFalse => exact h

theorem pinsOk_execPerstNDeassert {s t : State} (hx : execPerstNDeassert s = .next t) (h : PinsOk s.linkPins) : PinsOk t.linkPins := by
  cases hx
  rw [State.when_linkPins, pinsOk_ite, State.linkPins_mk_boot]
  split
  · exact ⟨fun hlow => Bool.noConfusion hlow, h.2⟩
  · exact h

theorem pinsOk_execPerstNAssert {s t : State} (hx : execPerstNAssert s = .next t) (h : PinsOk s.linkPins) : PinsOk t.linkPins := by
  cases hx
  rw [State.when_linkPins, State.linkPins_ite, State.linkGone_linkPins]
  split
  · split
    · exact pinsOk_down _
    case isFalse hlink => exact ⟨fun _ => Bool.eq_false_iff.mpr hlink, h.2⟩
  · exact h

theorem pinsOk_execPcieLinkUp {s t : State} (hx : execPcieLinkUp s = .next t) (h : PinsOk s.linkPins) : PinsOk t.linkPins := by
  cases hx
  rw [State.when_linkPins, State.linkPins_mk_boot]
  refine iteInduction (motive := PinsOk) (fun hup => ?_) (fun _ => h)
  simp only [Bool.and_eq_true, Bool.not_eq_true'] at hup
  obtain ⟨⟨⟨⟨-, hperst⟩, -⟩, -⟩, -⟩ := hup
  exact ⟨fun hlow => Bool.noConfusion (hperst.symm.trans hlow), fun hdown => Bool.noConfusion hdown⟩

theorem State.linkOk_of_next {s t u : State} (hx : (Host.Outcome.next u : Out) = .next t) (hu : PinsOk s.linkPins → PinsOk u.linkPins) (h : s.linkOk) :
    t.linkOk := by
  cases hx
  exact hu h

theorem NextKeeps.linkOk {s t : State} {o : Out} (ho : NextKeeps s o) (hx : o = .next t) (h : s.linkOk) : t.linkOk := by
  rw [State.linkOk_iff, ho t hx]
  exact h

/-- Every command keeps the invariant: a row that chooses its command by a pattern has its lemma above, and so has a row that drives the pins; every
other row is a change whose parts leave the pins, or writes the dictionary. -/
theorem exec_linkOk (c : Instr) {s t : State} (hx : exec c s = .next t) (h : s.linkOk) : t.linkOk := by
  cases c
  case ptpMessageTx port kind => exact NextKeeps.linkOk (execPtpMessageTx_linkPins port kind s) hx h
  case taskLaunch task => exact NextKeeps.linkOk (execTaskLaunch_linkPins task s) hx h
  case resizeEviction p => exact NextKeeps.linkOk (execResizeEviction_linkPins p s) hx h
  case resizeTilesLeave p => exact NextKeeps.linkOk (execResizeTilesLeave_linkPins p s) hx h
  case resizeApply p => exact NextKeeps.linkOk (execResizeApply_linkPins p s) hx h
  case switchComplete tile => exact NextKeeps.linkOk (execSwitchComplete_linkPins tile s) hx h
  case loanWindowResize tile => exact NextKeeps.linkOk (execLoanWindowResize_linkPins tile s) hx h
  case snapshotCapture f => exact NextKeeps.linkOk (execSnapshotCapture_linkPins f s) hx h
  case xIssueAccepted tile => exact NextKeeps.linkOk (execXIssueAccepted_linkPins tile s) hx h
  case passComplete tile => exact NextKeeps.linkOk (execPassComplete_linkPins tile s) hx h
  case mvPassComplete tile => exact NextKeeps.linkOk (execMvPassComplete_linkPins tile s) hx h
  case moveComplete tile => exact NextKeeps.linkOk (execMoveComplete_linkPins tile s) hx h
  case taskComplete task => exact NextKeeps.linkOk (execTaskComplete_linkPins task s) hx h
  case kernelLoad f r package => exact NextKeeps.linkOk (execKernelLoad_linkPins f r package s) hx h
  case kernelFree f r => exact NextKeeps.linkOk (execKernelFree_linkPins f r s) hx h
  case dft inv node => exact NextKeeps.linkOk (execDft_linkPins inv node s) hx h
  case elementwise inv node => exact NextKeeps.linkOk (execElementwise_linkPins inv node s) hx h
  case quant inv node => exact NextKeeps.linkOk (execQuant_linkPins inv node s) hx h
  case reducePartialArrival inv node rank data => exact NextKeeps.linkOk (execReducePartialArrival_linkPins inv node rank data s) hx h
  case moveNode inv node vt => exact NextKeeps.linkOk (execMoveNode_linkPins inv node vt s) hx h
  case atomic inv node => exact NextKeeps.linkOk (execAtomic_linkPins inv node s) hx h
  case nodeComplete inv node => exact NextKeeps.linkOk (execNodeComplete_linkPins inv node s) hx h
  case modelLoad f r container => exact NextKeeps.linkOk (execModelLoad_linkPins f r container s) hx h
  case modelLoadComplete slot => exact NextKeeps.linkOk (execModelLoadComplete_linkPins slot s) hx h
  case modelUnloadComplete slot => exact NextKeeps.linkOk (execModelUnloadComplete_linkPins slot s) hx h
  case invoke f r io => exact NextKeeps.linkOk (execInvoke_linkPins f r io s) hx h
  case invocationComplete inv => exact NextKeeps.linkOk (execInvocationComplete_linkPins inv s) hx h
  case waveIssue inv => exact NextKeeps.linkOk (execWaveIssue_linkPins inv s) hx h
  case ldpcDecode c b => exact NextKeeps.linkOk (execLdpcDecode_linkPins c b s) hx h
  case ldpcEncode c slot pdu index => exact NextKeeps.linkOk (execLdpcEncode_linkPins c slot pdu index s) hx h
  case polarEncode c slot pdu index => exact NextKeeps.linkOk (execPolarEncode_linkPins c slot pdu index s) hx h
  case resultBatchWrite c slot otype btype entries => exact NextKeeps.linkOk (execResultBatchWrite_linkPins c slot otype btype entries s) hx h
  case srsEstimateExpiry c handle => exact NextKeeps.linkOk (execSrsEstimateExpiry_linkPins c handle s) hx h
  case holdSourceSwitch c => exact NextKeeps.linkOk (execHoldSourceSwitch_linkPins c s) hx h
  case conductorSelfcheckPass cluster core => exact NextKeeps.linkOk (execConductorSelfcheckPass_linkPins cluster core s) hx h
  case conductorRestartByControl cluster => exact NextKeeps.linkOk (execConductorRestartByControl_linkPins cluster s) hx h
  case frameReceive p f => exact NextKeeps.linkOk (execFrameReceive_linkPins p f s) hx h
  case egressFrameStart p => exact NextKeeps.linkOk (execEgressFrameStart_linkPins p s) hx h
  case frameTxWriteback f r => exact NextKeeps.linkOk (execFrameTxWriteback_linkPins f r s) hx h
  case map f r => exact NextKeeps.linkOk (execMap_linkPins f r s) hx h
  case unmap f r => exact NextKeeps.linkOk (execUnmap_linkPins f r s) hx h
  case patrolScrub gddr tile word kind => exact NextKeeps.linkOk (execPatrolScrub_linkPins gddr tile word kind s) hx h
  case fabricFrameReceive link etherType packets priorities ptp fcsOk =>
    exact NextKeeps.linkOk (execFabricFrameReceive_linkPins link etherType packets priorities ptp fcsOk s) hx h
  case fence tile => exact NextKeeps.linkOk (execFence_linkPins tile s) hx h
  case fenceComplete ctx => exact NextKeeps.linkOk (execFenceComplete_linkPins ctx s) hx h
  case requestRetry id => exact NextKeeps.linkOk (execRequestRetry_linkPins id s) hx h
  case requestLost id => exact NextKeeps.linkOk (execRequestLost_linkPins id s) hx h
  case destroy f r => exact NextKeeps.linkOk (execDestroy_linkPins f r s) hx h
  case signal f r => exact NextKeeps.linkOk (execSignal_linkPins f r s) hx h
  case eventReset f r => exact NextKeeps.linkOk (execEventReset_linkPins f r s) hx h
  case proxy f r granted => exact NextKeeps.linkOk (execProxy_linkPins f r granted s) hx h
  case ringEnable f r x => exact NextKeeps.linkOk (execRingEnable_linkPins f r x s) hx h
  case task f r args => exact NextKeeps.linkOk (execTask_linkPins f r args s) hx h
  case tdispRequest f code nonceOk => exact NextKeeps.linkOk (execTdispRequest_linkPins f code nonceOk s) hx h
  case ideKmRequest channel body => exact NextKeeps.linkOk (execIdeKmRequest_linkPins channel body s) hx h
  case notify holder index sub => exact NextKeeps.linkOk (execNotify_linkPins holder index sub s) hx h
  case hello x => exact NextKeeps.linkOk (execHello_linkPins x s) hx h
  case proveTimeout session => exact NextKeeps.linkOk (execProveTimeout_linkPins session s) hx h
  case sessionIdleTimeout session => exact NextKeeps.linkOk (execSessionIdleTimeout_linkPins session s) hx h
  case segmentTimeout holder => exact NextKeeps.linkOk (execSegmentTimeout_linkPins holder s) hx h
  case radioRerun task => exact NextKeeps.linkOk (execRadioRerun_linkPins task s) hx h
  case promotionSwitch tile => exact NextKeeps.linkOk (execPromotionSwitch_linkPins tile s) hx h
  case copyDone ok => exact NextKeeps.linkOk (execCopyDone_linkPins ok s) hx h
  case fwConductorPass n => exact NextKeeps.linkOk (execFwConductorPass_linkPins n s) hx h
  case fwSelfcheckFail n => exact NextKeeps.linkOk (execFwSelfcheckFail_linkPins n s) hx h
  case rollbackAdvanceComplete => exact NextKeeps.linkOk (execRollbackAdvanceComplete_linkPins s) hx h
  case aliasDerivationComplete => exact NextKeeps.linkOk (execAliasDerivationComplete_linkPins s) hx h
  case spdmUnsupportedRequest ch code body => exact NextKeeps.linkOk (execSpdmUnsupportedRequest_linkPins ch code body s) hx h
  case pendingWriteApply key => exact pinsOk_execPendingWriteApply key hx h
  case prove x => exact pinsOk_execProve x hx h
  case dictWrite w index sub offset more => exact pinsOk_execDictWrite w index sub offset more hx h
  case writeBlock acc index data lnc commitOk => exact pinsOk_execWriteBlock acc index data lnc commitOk hx h
  case vfEnableSet => exact pinsOk_execVfEnableSet hx h
  case perstNDeassert => exact pinsOk_execPerstNDeassert hx h
  case perstNAssert => exact pinsOk_execPerstNAssert hx h
  case pcieLinkUp => exact pinsOk_execPcieLinkUp hx h
  all_goals
    refine State.linkOk_of_next hx (fun hs => ?_) h
    simp [hs]

/-- Settles O60: every command keeps the invariant of the PCI Express link. That VF Enable is clear without a link is the model's choice (log entry 56). -/
theorem linkInvariant : Obligations.LinkInvariant := by
  intro s t h hx
  rw [step] at hx
  split at hx
  · cases hx
    exact h
  case h_2 c rest _ =>
    have hrest : State.linkOk { s with pending := rest } := h
    exact exec_linkOk c hx hrest

end Sys2Proof.Machine

/-! PROOFS. The statements of the family 13_fabric.md and after: packets at their home and their responses, jobs and stalemates, power and resets, the
management port, and SPDM. -/

namespace Sys2Proof.Machine

/-- Settles O58: `step` runs the front of the queue, and idles on an empty one (log entry 65). -/
theorem stepRunsTheFront : Obligations.StepRunsTheFront := fun _ _ _ => ⟨rfl, rfl⟩

/-! Packets that arrive, by opcode (R384, R387, R424). -/

section
variable {s : State} {q : Packet} (hjob : s.jobless q = false)
include hjob

theorem State.handle_load (hop : q.opcode = 0x01) : s.handle q = s.homeLoad q := by
  simp only [State.handle, hjob, hop, Bool.and_false, Bool.false_eq_true, if_false]

theorem State.handle_store (hop : q.opcode = 0x02) : s.handle q = s.homeStore q := by
  simp only [State.handle, hjob, hop, Bool.and_false, Bool.false_eq_true, if_false]

theorem State.handle_read (hop : q.opcode = 0x03) : s.handle q = s.homeReadWord q := by
  simp only [State.handle, hjob, hop, Bool.and_false, Bool.false_eq_true, if_false]

theorem State.handle_syncSignal (hop : q.opcode = 0x18) : s.handle q = s.homeSignal q := by
  simp only [State.handle, hjob, hop, Bool.and_false, Bool.false_eq_true, if_false]

theorem State.handle_syncWait (hop : q.opcode = 0x19) : s.handle q = s.homeWait q := by
  simp only [State.handle, hjob, hop, Bool.and_false, Bool.false_eq_true, if_false]

theorem State.handle_syncGrant (hop : q.opcode = 0x1A) : s.handle q = s.proxyGrant q := by
  simp only [State.handle, hjob, hop, Bool.and_false, Bool.false_eq_true, if_false]

theorem State.handle_syncAbandon (hop : q.opcode = 0x1B) : s.handle q = s.syncAbandoned q := by
  simp only [State.handle, hjob, hop, Bool.and_false, Bool.false_eq_true, if_false]

theorem State.handle_data (hop : q.opcode = 0x20) : s.handle q = s.gotData q := by
  simp only [State.handle, hjob, hop, Bool.and_false, Bool.false_eq_true, if_false]

theorem State.handle_ack (hop : q.opcode = 0x21) : s.handle q = s.gotAck q := by
  simp only [State.handle, hjob, hop, Bool.and_false, Bool.false_eq_true, if_false]

theorem State.handle_reply (hop : q.opcode = 0x22) : s.handle q = s.gotReply q := by
  simp only [State.handle, hjob, hop, Bool.and_false, Bool.false_eq_true, if_false]

theorem State.handle_getS (hop : q.opcode = 0x28) : s.handle q = s.homeGetS q := by
  simp only [State.handle, hjob, hop, Bool.and_false, Bool.false_eq_true, if_false]

theorem State.handle_inv (hop : q.opcode = 0x29) : s.handle q = s.holderInv q := by
  simp only [State.handle, hjob, hop, Bool.and_false, Bool.false_eq_true, if_false]

theorem State.handle_invAck (hop : q.opcode = 0x2A) : s.handle q = s.homeInvAck q := by
  simp only [State.handle, hjob, hop, Bool.and_false, Bool.false_eq_true, if_false]

theorem State.handle_evictS (hop : q.opcode = 0x2B) : s.handle q = s.homeEvict q := by
  simp only [State.handle, hjob, hop, Bool.and_false, Bool.false_eq_true, if_false]

theorem State.handle_heartbeat (hop : q.opcode = 0x30) : s.handle q = s.gotHeartbeat q := by
  simp only [State.handle, hjob, hop, Bool.and_false, Bool.false_eq_true, if_false]

end

/-- A packet that names no active job and is not for chip control is counted and no more (R384). -/
theorem State.handle_jobless {s : State} {q : Packet} (hhears : s.hears q = true) (hjob : s.jobless q = true) :
    s.handle q = s.bump Reg.noJobDrops 1 := by
  simp only [State.handle, hhears, hjob, Bool.and_self, if_true]

/-- Without an active job there is no home context: a packet for one is counted. -/
theorem State.atHome_noJob {s : State} {q : Packet} (act : State → Nat → Nat → State) (hhears : s.hears q = true) (hnone : s.homeOf q = none) :
    s.atHome q act = s.bump Reg.noJobDrops 1 := by
  simp only [State.atHome, hhears, hnone, Bool.not_true, Bool.false_eq_true, if_false]

/-! Reads at the home (R387, R389, R397, R398). -/

/-- The rows of the requests, with their opcodes. -/
def IsRequest (row : Packet → Instr) (op : Nat) : Prop :=
  (row, op) ∈ [(Instr.load, 0x01), (Instr.read, 0x03), (Instr.getS, 0x28), (Instr.store, 0x02), (Instr.fetchAdd, 0x08), (Instr.swap, 0x09), (Instr.cas, 0x0A),
    (Instr.minS, 0x0B), (Instr.maxS, 0x0C), (Instr.minU, 0x0D), (Instr.maxU, 0x0E), (Instr.faddF32, 0x0F), (Instr.faddF64, 0x10), (Instr.syncSignal, 0x18),
    (Instr.syncWait, 0x19), (Instr.syncGrant, 0x1A), (Instr.syncAbandon, 0x1B)]

/-- The opcodes of the requests: those with a row of their own in `State.handle`, and the atomics. -/
theorem IsRequest.opcode {row : Packet → Instr} {op : Nat} (h : IsRequest row op) :
    op ∈ [0x01, 0x03, 0x28, 0x02, 0x18, 0x19, 0x1A, 0x1B] ∨ 0x08 ≤ op ∧ op ≤ 0x10 := by
  simp only [IsRequest, List.mem_cons, Prod.mk.injEq, List.not_mem_nil, or_false] at h
  simp only [List.mem_cons, List.not_mem_nil, or_false]
  omega

/-- The row of a request lets the packet arrive with the row's opcode. -/
theorem IsRequest.exec_eq {row : Packet → Instr} {op : Nat} (h : IsRequest row op) (s : State) (p : Packet) : exec (row p) s = .next (s.arrives p op) := by
  have hall : ∀ e : (Packet → Instr) × Nat, IsRequest e.1 e.2 → exec (e.1 p) s = .next (s.arrives p e.2) := by
    simp only [IsRequest, Prod.mk.eta, List.forall_mem_cons]
    exact ⟨rfl, rfl, rfl, rfl, rfl, rfl, rfl, rfl, rfl, rfl, rfl, rfl, rfl, rfl, rfl, rfl, rfl, fun _ hnil => nomatch hnil⟩
  exact hall (row, op) h

/-- Without an active job each request is counted. -/
theorem State.handle_request_noJob {s : State} {q : Packet} (hhears : s.hears q = true) (hnone : s.homeOf q = none)
    (hop : q.opcode ∈ [0x01, 0x03, 0x28, 0x02, 0x18, 0x19, 0x1A, 0x1B] ∨ 0x08 ≤ q.opcode ∧ q.opcode ≤ 0x10) : s.handle q = s.bump Reg.noJobDrops 1 := by
  cases hjob : s.jobless q with
  | true => exact State.handle_jobless hhears hjob
  | false =>
    have home : ∀ act, s.atHome q act = s.bump Reg.noJobDrops 1 := fun act => State.atHome_noJob act hhears hnone
    obtain hop | hop := hop
    · simp only [List.mem_cons, List.not_mem_nil, or_false] at hop
      obtain hop | hop | hop | hop | hop | hop | hop | hop := hop
      · exact (State.handle_load hjob hop).trans (home _)
      · exact (State.handle_read hjob hop).trans (home _)
      · exact (State.handle_getS hjob hop).trans (home _)
      · exact (State.handle_store hjob hop).trans (home _)
      · exact (State.handle_syncSignal hjob hop).trans (home _)
      · exact (State.handle_syncWait hjob hop).trans (home _)
      · exact (State.handle_syncGrant hjob hop).trans (home _)
      · exact (State.handle_syncAbandon hjob hop).trans (home _)
    · exact (State.handle_atomic hjob hop).trans (home _)

/-- A read of bytes that are mapped answers them, poisoned ones with status 1. -/
theorem State.homeRead_mapped {s : State} {c off n : Nat} {bs : List Byte} (hc : c ≠ 0) (hread : s.readLocal (c - 1) off n = some bs) :
    s.homeRead c off n = (if s.localPoisoned (c - 1) off n then 1 else 0, bs) := by
  simp only [State.homeRead, hc, hread, if_false]

section
variable {s : State} {q : Packet} {j c : Nat} {bs : List Byte} (hhears : s.hears q = true) (hhome : s.homeOf q = some (j, c)) (hc : c ≠ 0)
include hhears hhome hc

theorem State.deliver_load (hop : q.opcode = 0x01) :
    let u := s.chargeBytes (s.regN (Reg.jobOwner j)) 7 (packetBytes q)
    u.readLocal (c - 1) q.offset (lenBytes q) = some bs →
    s.deliver q = u.respond q 0x20 (if u.localPoisoned (c - 1) q.offset (lenBytes q) then 1 else 0) 0 bs := by
  intro u hread
  rw [State.deliver_heard hhears, State.handle_load (State.jobless_of_homeOf hhome) hop, State.homeLoad, State.atHome_served _ hhears hhome]
  rw [State.homeRead_mapped hc hread]

theorem State.deliver_read (hop : q.opcode = 0x03) :
    let u := s.chargeBytes (s.regN (Reg.jobOwner j)) 7 (packetBytes q)
    let n := if q.w64 then 8 else 4
    u.readLocal (c - 1) q.offset n = some bs →
    s.deliver q = u.respond q 0x22 (if u.localPoisoned (c - 1) q.offset n then 1 else 0) (natOf bs) [] := by
  intro u n hread
  rw [State.deliver_heard hhears, State.handle_read (State.jobless_of_homeOf hhome) hop, State.homeReadWord, State.atHome_served _ hhears hhome]
  rw [State.homeRead_mapped hc hread]

/-- A quad peer that reads a line of GDDR7 and does not share it yet becomes a sharer, and its answer says so (R397, R398). -/
theorem State.deliver_getS (hop : q.opcode = 0x28) :
    let u := s.chargeBytes (s.regN (Reg.jobOwner j)) 7 (packetBytes q)
    let line := q.offset / 256 * 256
    let k := lineKey (c - 1) q.offset
    u.readLocal (c - 1) line 256 = some bs → (∃ a, u.localPlace (c - 1) q.offset true false = .gddr a) → u.isQuadPeer q.src = true →
    (u.sharersOf k).contains q.src = false →
    let v := { u with fabric := { u.fabric with sharers := Table.put [] u.fabric.sharers k (u.sharersOf k ++ [q.src]) } }
    s.deliver q = v.respond { q with w64 := true } 0x20 (if u.localPoisoned (c - 1) line 256 then 1 else 0) 0 bs := by
  intro u line k hread ⟨a, hgddr⟩ hquad hnew v
  rw [State.deliver_heard hhears, State.handle_getS (State.jobless_of_homeOf hhome) hop, State.homeGetS, State.atHome_served _ hhears hhome]
  dsimp only
  rw [State.homeRead_mapped hc hread, hgddr, hquad, hnew]
  simp only [hc, ne_eq, not_false_eq_true, decide_true, Bool.and_self, Bool.not_false, if_true]
  rfl

end

/-- Settles O31: a request is served at its home context by its opcode. The width that W64 gives a READ and its REPLY is the model's choice (log
entry 91). -/
theorem readsAtHome : Obligations.ReadsAtHome := by
  intro s p row op hrow q hhears
  have hexec : exec (row p) s = .next (s.deliver q) := IsRequest.exec_eq hrow s p
  rw [hexec]
  refine ⟨fun hnone => ?noJob, fun j c bs hhome hc => ⟨fun hop hread => ?load, fun hop => ?read, fun hop => ?getS⟩⟩
  case noJob => exact congrArg _ ((State.deliver_heard (q := q) hhears).trans (State.handle_request_noJob hhears hnone (IsRequest.opcode hrow)))
  case load => exact congrArg _ (State.deliver_load (q := q) hhears hhome hc hop hread)
  case read =>
    intro n hread
    exact congrArg _ (State.deliver_read (q := q) hhears hhome hc hop hread)
  case getS =>
    intro line k hread hgddr hquad hnew
    exact congrArg _ (State.deliver_getS (q := q) hhears hhome hc hop hread hgddr hquad hnew)

/-! Responses, invalidations and heartbeats (R384 to R387, R398, R402 to R404). -/

/-- A packet of chip control or of an active job is not dropped for want of a job. -/
theorem State.jobless_of_known {s : State} {q : Packet} (hknown : q.job = controlJob ∨ s.homeOf q ≠ none) : s.jobless q = false := by
  obtain hcontrol | hhome := hknown
  · simp only [State.jobless, hcontrol, ne_eq, not_true_eq_false, false_and, decide_false, Bool.false_and]
  · obtain ⟨e, he⟩ := Option.ne_none_iff_exists'.mp hhome
    exact State.jobless_of_homeOf he

/-- A packet of no active job, not for chip control, is dropped. -/
theorem State.jobless_of_unknown {s : State} {q : Packet} (hknown : ¬(q.job = controlJob ∨ s.homeOf q ≠ none)) (hop : q.opcode ≠ 0 ∧ q.opcode < 0x30) :
    s.jobless q = true := by
  obtain ⟨hcontrol, hhome⟩ := not_or.mp hknown
  simp only [State.jobless, hcontrol, not_not.mp hhome, hop, ne_eq, not_false_eq_true, and_self, decide_true, Option.isNone_none, Bool.and_self]

/-- A packet of no active job does nothing but count. -/
theorem State.deliver_unknown {s : State} {q : Packet} (hhears : s.hears q = true) (hknown : ¬(q.job = controlJob ∨ s.homeOf q ≠ none))
    (hop : q.opcode ≠ 0 ∧ q.opcode < 0x30) : s.deliver q = s.bump Reg.noJobDrops 1 :=
  (State.deliver_heard hhears).trans (State.handle_jobless hhears (State.jobless_of_unknown hknown hop))

section
variable {s : State} {q : Packet} {n : Nat} {r : Request} (hhears : s.hears q = true)
include hhears

/-- DATA with status 0 brings the bytes of a move (R389). -/
theorem State.gotData_moveLoad {id off : Nat} (hanswered : s.answered q [0x01, 0x28] = some (n, r)) (hstatus : q.offset % 256 = 0)
    (hsink : r.sink = .moveLoad id off) :
    s.gotData q = (((s.chargeBytes (s.jobPayer q.job) 7 (packetBytes q)).finishRequest n).keepLine r q.w64 q.data).stage id off
      (wantedBytes r q.data) false := by
  simp only [State.gotData, hhears, hanswered, hstatus, hsink, Bool.not_true, Bool.false_eq_true, if_false, true_or, if_true]
  rfl

theorem State.gotData_unasked (hanswered : s.answered q [0x01, 0x28] = none) : s.gotData q = s := by
  simp only [State.gotData, hhears, hanswered, Bool.not_true, Bool.false_eq_true, if_false]

theorem State.gotAck_answered (hanswered : s.answered q [0x02, 0x1A, 0x1B, 0x1C, 0x1D] = some (n, r)) :
    s.gotAck q = ((s.chargeBytes (s.jobPayer q.job) 7 (packetBytes q)).finishRequest n).badStatus r (q.offset % 256) := by
  simp only [State.gotAck, hhears, hanswered, Bool.not_true, Bool.false_eq_true, if_false]

theorem State.gotReply_atomic {tile a : Nat} (hsink : r.sink = .atomic tile a)
    (hanswered : s.answered q [0x03, 0x08, 0x09, 0x0A, 0x0B, 0x0C, 0x0D, 0x0E, 0x0F, 0x10, 0x18, 0x19] = some (n, r)) :
    s.gotReply q = (((s.chargeBytes (s.jobPayer q.job) 7 (packetBytes q)).finishRequest n).atomicOver tile a (q.offset % 256)
      (if q.offset % 256 = 0 ∧ r.packet.noret = false then some q.operand else none)).badStatus r (q.offset % 256) := by
  simp only [State.gotReply, hhears, hanswered, hsink, Bool.not_true, Bool.not_eq_true', Bool.false_eq_true, if_false]

theorem State.holderInv_heard : s.holderInv q =
    (({ s with fabric := { s.fabric with shared := Table.erase s.fabric.shared (remoteKey q.job q.src q.offset) } }).route
      { blankPacket with opcode := 0x2A, vc := q.vc, src := s.node, dst := q.src, job := q.job, tag := q.tag, offset := q.offset / 256 * 256 }) := by
  simp only [State.holderInv, hhears, Bool.not_true, Bool.false_eq_true, if_false]

theorem State.homeInvAck_home {j c : Nat} (hhome : s.homeOf q = some (j, c)) : s.homeInvAck q = s.lineDropped (c - 1) q.offset q.src := by
  simp only [State.homeInvAck, hhears, hhome, Bool.not_true, Bool.false_eq_true, if_false]

theorem State.homeEvict_home {j c : Nat} (hhome : s.homeOf q = some (j, c)) :
    let k := lineKey (c - 1) q.offset
    s.homeEvict q = { s with fabric := { s.fabric with sharers := Table.put [] s.fabric.sharers k ((s.sharersOf k).filter (fun n => n != q.src)) } } := by
  simp only [State.homeEvict, hhears, hhome, Bool.not_true, Bool.false_eq_true, if_false]

/-- A heartbeat from a node that is no quad peer is heard, and no more. -/
theorem State.gotHeartbeat_other (hplaces : s.quadPlaces.filter (fun e => e.2 == q.src) = []) :
    s.gotHeartbeat q = { s with fabric := { s.fabric with heard := Table.put 0 s.fabric.heard q.src (s.time.ticks + 1) } } := by
  simp only [State.gotHeartbeat, hhears, hplaces, List.map_nil, List.head?_nil, Bool.not_true, Bool.false_eq_true, if_false]

/-- A heartbeat of a quad peer tells in its W64 bit whether the peer names this chip, which QUAD_STATUS shows (R396, log entry 130). -/
theorem State.gotHeartbeat_quadPeer {i : Nat} {rest : List (Nat × Nat)} (hplaces : s.quadPlaces.filter (fun e => e.2 == q.src) = (i, q.src) :: rest) :
    let v := { s with fabric := { s.fabric with heard := Table.put 0 s.fabric.heard q.src (s.time.ticks + 1) } }
    let x := v.regN Reg.quadStatus
    s.gotHeartbeat q = v.setReg Reg.quadStatus (if bit x i = q.w64 then x else if q.w64 = true then x + 2 ^ i else x - 2 ^ i : Nat) := by
  simp only [State.gotHeartbeat, hhears, hplaces, List.map_cons, List.head?_cons, Bool.not_true, Bool.false_eq_true, if_false, beq_iff_eq]

end

/-- Settles O33: each response, by what it answers, and each message of coherence at its node. The form of the responses is the model's choice (log
entry 130). -/
theorem responsesAndCoherence : Obligations.ResponsesAndCoherence := by
  intro s p hhears status u known
  have hears : ∀ op, s.hears { p with opcode := op } = true := fun _ => hhears
  have deliver : ∀ op, s.deliver { p with opcode := op } = s.handle { p with opcode := op } := fun op => State.deliver_heard (hears op)
  have joined : ∀ op, known → s.jobless { p with opcode := op } = false := fun op hknown => State.jobless_of_known hknown
  have home : ∀ op {e}, s.homeOf p = some e → s.jobless { p with opcode := op } = false :=
    fun op e he => State.jobless_of_homeOf (q := { p with opcode := op }) he
  refine ⟨?data, ?dataUnasked, ?ack, ?reply, ?inv, ?home, ?unknown, ?heartbeat⟩
  case data =>
    intro n r id off hknown hanswered hstatus hsink
    exact congrArg _ ((deliver 0x20).trans ((State.handle_data (joined _ hknown) rfl).trans (State.gotData_moveLoad (hears _) hanswered hstatus hsink)))
  case dataUnasked =>
    intro hknown hanswered
    exact congrArg _ ((deliver 0x20).trans ((State.handle_data (joined _ hknown) rfl).trans (State.gotData_unasked (hears _) hanswered)))
  case ack =>
    intro n r hknown hanswered
    exact congrArg _ ((deliver 0x21).trans ((State.handle_ack (joined _ hknown) rfl).trans (State.gotAck_answered (hears _) hanswered)))
  case reply =>
    intro n r tile a hknown hanswered hsink
    exact congrArg (fun t : State => (Host.Outcome.next t.issueAtomics : Out))
      ((deliver 0x22).trans ((State.handle_reply (joined _ hknown) rfl).trans (State.gotReply_atomic (hears _) hsink hanswered)))
  case inv =>
    intro hknown
    exact congrArg _ ((deliver 0x29).trans ((State.handle_inv (joined _ hknown) rfl).trans (State.holderInv_heard (hears _))))
  case home =>
    intro j c hhome
    refine ⟨?invAck, congrArg _ ((deliver 0x2B).trans ((State.handle_evictS (home _ hhome) rfl).trans (State.homeEvict_home (hears _) hhome)))⟩
    have hack := (deliver 0x2A).trans ((State.handle_invAck (home _ hhome) rfl).trans (State.homeInvAck_home (hears _) hhome))
    refine congrArg Host.Outcome.next ((if_neg ?_).trans (congrArg State.issueAtomics hack))
    rw [home _ hhome]
    exact Bool.false_ne_true
  case unknown =>
    intro hknown row hrow
    have drops : ∀ op, op ≠ 0 ∧ op < 0x30 → s.deliver { p with opcode := op } = s.bump Reg.noJobDrops 1 :=
      fun op hop => State.deliver_unknown (q := { p with opcode := op }) (hears op) hknown hop
    simp only [List.mem_cons, List.not_mem_nil, or_false] at hrow
    obtain rfl | rfl | rfl | rfl | rfl := hrow
    · exact congrArg _ (drops 0x20 (by decide))
    · exact congrArg _ (drops 0x21 (by decide))
    · exact congrArg _ (drops 0x29 (by decide))
    · exact congrArg _ ((if_pos (State.jobless_of_unknown (q := { p with opcode := 0x2A }) hknown (by dsimp only; decide))).trans (drops 0x2A (by decide)))
    · exact congrArg _ (drops 0x2B (by decide))
  case heartbeat =>
    have hjob : s.jobless { p with opcode := 0x30 } = false := by simp [State.jobless]
    have hbeat := (deliver 0x30).trans (State.handle_heartbeat hjob rfl)
    exact ⟨fun hplaces => congrArg _ (hbeat.trans (State.gotHeartbeat_other (hears _) hplaces)),
      fun i rest hplaces => congrArg _ (hbeat.trans (State.gotHeartbeat_quadPeer (hears _) hplaces))⟩

/-! Sync messages (R410, R415, R420, R421, R424, R427). -/

/-- A new request is served once, with its tag the highest of its source. -/
theorem State.atHome_once_new {s : State} {q : Packet} {j c : Nat} (op : Nat) (act : Nat → Nat → State → State) (hhears : s.hears q = true)
    (hhome : s.homeOf q = some (j, c))
    (hnew : let v := s.chargeBytes (s.regN (Reg.jobOwner j)) 7 (packetBytes q)
      (v.replay q).hw = 0 ∨ newer q.tag ((v.replay q).hw - 1) = true) :
    s.atHome q (fun u j c => u.once q op (act j c)) = act j c (s.requestBegun q j) := by
  rw [State.atHome_served _ hhears hhome, State.once_new _ _ hnew]
  rfl

/-- The home object of a message is the named one where the bound context owns it. -/
theorem State.homeObject_owned {s : State} {q : Packet} {c : Nat} {o : SyncObj} (hobject : s.object (homeIdOf q) = some o) (howner : o.owner + 1 = c) :
    s.homeObject q c = some o := by
  simp only [State.homeObject, hobject, howner, if_true]

section
variable {s : State} {q : Packet} {j c : Nat} {o : SyncObj} (hhears : s.hears q = true) (hhome : s.homeOf q = some (j, c))
  (hnew : let v := s.chargeBytes (s.regN (Reg.jobOwner j)) 7 (packetBytes q)
    (v.replay q).hw = 0 ∨ newer q.tag ((v.replay q).hw - 1) = true)
include hhears hhome hnew

theorem State.homeSignal_signals :
    let u := (s.requestBegun q j).countReceived j
    u.object (homeIdOf q) = some o → o.owner + 1 = c → o.abandoned = false →
    s.homeSignal q = ((((u.setObject (homeIdOf q) (o.knows j q)).signalObject (homeIdOf q) (o.knows j q) (proxyHolder q) q.compare).record q 0 0).respond
      q 0x22 0 0 []) := by
  intro u hobject howner hwhole
  rw [State.homeSignal, State.atHome_once_new 0x22 _ hhears hhome hnew]
  dsimp only
  rw [State.homeObject_owned hobject howner]
  simp only [hwhole, Bool.false_eq_true, if_false]
  rfl

/-- A wait whose part is not frozen is evaluated at once, and its answer tells the holders and the value that it leaves (log entry 132). -/
theorem State.homeWait_waits {o' : SyncObj} :
    let u := s.requestBegun q j
    u.object (homeIdOf q) = some o → o.owner + 1 = c → o.abandoned = false → (u.quietOf (u.partNo o.owner)).frozen = false →
    let w : Waiter := { since := u.lnc, ctx := 65535, seq := 0, task := 0, entry := 0, count := q.compare, node := q.src, job := j, proxy := proxyIdOf q }
    let v := (u.setObject (homeIdOf q) (o.knows j q)).waitAt (homeIdOf q) w
    let seen := min o'.holders.length 8 * 2 ^ 32 + o'.value % 2 ^ 32
    v.object (homeIdOf q) = some o' → o'.owner + 1 = c → s.homeWait q = (v.record q 0 seen).respond q 0x22 0 seen [] := by
  intro u hobject howner hwhole hmoving w v seen hseen howner'
  rw [State.homeWait, State.atHome_once_new 0x22 _ hhears hhome hnew]
  dsimp only [u, v, w] at hmoving hseen ⊢
  rw [State.homeObject_owned hobject howner]
  simp only [hwhole, hmoving, Bool.false_eq_true, if_false]
  rw [State.homeObject_owned hseen howner']

/-- A grant satisfies the first waiter of the proxy for its count. -/
theorem State.proxyGrant_grants {w : Waiter} :
    let u := (s.requestBegun q j).countReceived j
    u.object (proxyIdOf q) = some o → o.waiters.find? (fun (w : Waiter) => w.count == q.compare) = some w →
    let g := (u.setObject (proxyIdOf q) { o with waiters := o.waiters.erase w }).grant (proxyIdOf q) o w
    s.proxyGrant q = ((g.1.settle g.2).record q 0 0).respond q 0x21 0 0 [] := by
  intro u hobject hwaiter g
  rw [State.proxyGrant, State.atHome_once_new 0x21 _ hhears hhome hnew]
  dsimp only
  simp only [u, g, hobject, hwaiter]

/-- At a proxy of the sender the proxy is abandoned with its home object. -/
theorem State.syncAbandoned_proxy :
    let u := s.requestBegun q j
    u.object (proxyIdOf q) = some o → o.remoteJob = j + 1 ∧ o.homeNode = q.src ∧ o.homeId = homeIdOf q →
    s.syncAbandoned q = ((u.abandonObject (proxyIdOf q) false State.returnUnits).record q 0 0).respond q 0x21 0 0 [] := by
  intro u hobject ⟨hjob, hnode, hid⟩
  rw [State.syncAbandoned, State.atHome_once_new 0x21 _ hhears hhome hnew]
  simp only [u, hobject, hjob, hnode, hid, beq_self_eq_true, Bool.and_self, if_true]

/-- At the home, units that are held through the proxy abandon the object. -/
theorem State.syncAbandoned_home {h : SyncObj} :
    let u := s.requestBegun q j
    u.object (proxyIdOf q) = some o → ¬(o.remoteJob = j + 1 ∧ o.homeNode = q.src ∧ o.homeId = homeIdOf q) →
    u.object (homeIdOf q) = some h → h.owner + 1 = c → Table.has h.holders (proxyHolder q) = true →
    s.syncAbandoned q = ((u.abandon (homeIdOf q)).record q 0 0).respond q 0x21 0 0 [] := by
  intro u hobject hother hhomeObject howner hholds
  have hproxy : (o.remoteJob == j + 1 && o.homeNode == q.src && o.homeId == homeIdOf q) = false := by
    simpa only [Bool.eq_false_iff, ne_eq, Bool.and_eq_true, beq_iff_eq, and_assoc] using hother
  rw [State.syncAbandoned, State.atHome_once_new 0x21 _ hhears hhome hnew]
  dsimp only
  rw [State.homeObject_owned hhomeObject howner]
  simp only [u, hobject, hproxy, hholds, Bool.false_eq_true, if_false, if_true]

end

/-- Settles O34: each message, new under R402, has its effect and is recorded and answered. The places of the fields and the value of the reply are the
model's choices (log entries 26 and 132). -/
theorem syncMessages : Obligations.SyncMessages := by
  intro s p j c hhears hhome home proxy start new ends known
  have hears : ∀ op, s.hears { p with opcode := op } = true := fun _ => hhears
  have deliver : ∀ op, s.deliver { p with opcode := op } = s.handle { p with opcode := op } := fun op => State.deliver_heard (hears op)
  have joined : ∀ op, s.jobless { p with opcode := op } = false := fun op => State.jobless_of_homeOf (q := { p with opcode := op }) hhome
  refine ⟨?signal, ?wait, ?grant, ?abandon⟩
  case signal =>
    intro o hnew u hobject howner hwhole
    exact congrArg Host.Outcome.next ((deliver 0x18).trans ((State.handle_syncSignal (joined _) rfl).trans
      (State.homeSignal_signals (q := { p with opcode := 0x18 }) (hears 0x18) hhome hnew hobject howner hwhole)))
  case wait =>
    intro o hnew u hobject howner hwhole hmoving w v o' hseen howner'
    exact congrArg Host.Outcome.next ((deliver 0x19).trans ((State.handle_syncWait (joined _) rfl).trans
      (State.homeWait_waits (q := { p with opcode := 0x19 }) (hears 0x19) hhome hnew hobject howner hwhole hmoving hseen howner')))
  case grant =>
    intro o w hnew u hobject hwaiter g
    exact congrArg Host.Outcome.next ((deliver 0x1A).trans ((State.handle_syncGrant (joined _) rfl).trans
      (State.proxyGrant_grants (q := { p with opcode := 0x1A }) (hears 0x1A) hhome hnew hobject hwaiter)))
  case abandon =>
    intro o hnew u hobject
    refine ⟨fun hproxy => congrArg Host.Outcome.next ((deliver 0x1B).trans ((State.handle_syncAbandon (joined _) rfl).trans ?_)),
      fun h hother hhomeObject howner hholds => congrArg Host.Outcome.next ((deliver 0x1B).trans ((State.handle_syncAbandon (joined _) rfl).trans ?_))⟩
    · exact State.syncAbandoned_proxy (q := { p with opcode := 0x1B }) (hears 0x1B) hhome hnew hobject hproxy
    · exact State.syncAbandoned_home (q := { p with opcode := 0x1B }) (hears 0x1B) hhome hnew hobject hother hhomeObject howner hholds

/-! Heartbeats, retries, aging and fences (R384, R386, R391, R398, R401, R402, R404, R405). -/

section
variable {s : State} {id : Nat} {r : Request} (hr : Table.find? s.fabric.requests id = some r)
include hr

/-- A request to a node that is declared dead fails. -/
theorem execRequestRetry_dead (hdead : s.fabric.dead.contains r.packet.dst = true) : execRequestRetry id s = .next (s.failRequest id 16) := by
  simp only [execRequestRetry, hr, hdead, if_true]

/-- A request whose time is over is counted and sent again, marked as a retry. -/
theorem execRequestRetry_due (hdead : s.fabric.dead.contains r.packet.dst = false) (htries : r.retries < 3)
    (hdue : s.passed r.sentAt ((r.retries + 1) * s.regN Reg.reqTimeout) = true) :
    let v := { s with fabric := { s.fabric with requests := Table.insert s.fabric.requests id { r with retries := r.retries + 1 } } }
    let u := match (List.range 64).find? (fun j => s.jobState j != 0 && s.regN (Reg.jobId j) == r.packet.job) with
      | some j => v.bump (Reg.jobRetries j) 1
      | none => v
    execRequestRetry id s =
      .next ((u.chargeBytes (u.jobPayer r.packet.job) 7 (packetBytes { r.packet with retry := true })).route { r.packet with retry := true }) := by
  simp only [execRequestRetry, hr, hdead, Bool.false_eq_true, if_false]
  exact next_when (by rw [decide_eq_true htries, hdue]; rfl)

theorem execRequestLost_due (hdue : s.passed r.sentAt (4 * s.regN Reg.reqTimeout) = true) : execRequestLost id s = .next (s.failRequest id 17) := by
  simp only [execRequestLost, hr, hdue, State.when_true]

end

/-- A fence that is reached and not yet begun covers the requests in flight (R391). -/
theorem execFence_opens {s : State} {tile : Nat} {a : AtomicRun} :
    let t := s.tile tile
    let run := runKey (t.task - 1) t.rank
    t.task ≠ 0 → t.switching = 0 → Table.find? s.fabric.atomics run = some a → a.next < a.count →
    bits (natOf (t.read (a.addr + 32 * a.next) 32)) 255 250 = 0x3F → (∀ f ∈ s.fabric.fences, f.run ≠ run + 1) →
    let u : State := { s with fabric := { s.fabric with fences := s.fabric.fences ++ [{ ctx := a.ctx, covers := s.outstanding a.ctx, run := run + 1 }] } }
    execFence tile s = .next (u.noteRemote (t.task - 1)) := by
  intro t run htask hswitch ha hnext hop hnone u
  have hopen : s.fabric.fences.any (fun f => f.run == run + 1) = false := List.any_eq_false.mpr fun f hf => by simpa using hnone f hf
  simp only [execFence, t, run, ha]
  exact next_when (by simp [t, run, htask, hswitch, hnext, hop, hopen])

section
variable {s : State} {ctx : Nat} {x : Fence} (hfences : s.fabric.fences = [x]) (hctx : x.ctx = ctx) (hdone : s.fenceDone x = true)
include hfences hctx hdone

/-- A fence of no run ends once its requests are answered. -/
theorem execFenceComplete_free (hrun : x.run = 0) : execFenceComplete ctx s = .next { s with fabric := { s.fabric with fences := [] } } := by
  simp [execFenceComplete, hfences, hctx, hdone, hrun]

/-- A fence of an ATOMIC list ends an entry of the list, which goes on. -/
theorem execFenceComplete_run {a : AtomicRun} (hrun : x.run ≠ 0) (hholds : s.holdsRun (x.run - 1) = true)
    (ha : Table.find? s.fabric.atomics (x.run - 1) = some a) :
    let v := ({ s with fabric := { s.fabric with fences := [] } }).atomicDone (x.run - 1) (a.addr + 32 * a.next) 0 none
    execFenceComplete ctx s = .next ((issueEntries 64 { v with fabric := { v.fabric with
      atomics := Table.insert v.fabric.atomics (x.run - 1) { a with next := a.next + 1 } } } (x.run - 1)).noteRemote ((x.run - 1) / 512)) := by
  simp [execFenceComplete, hfences, hctx, hdone, hrun, hholds, ha]

end

/-- Settles O36: each event under its own condition. The forms of the heartbeat and of the packets that are sent again are the model's choices (log
entries 130 and 131). -/
theorem fabricTimers : Obligations.FabricTimers := by
  intro s
  refine ⟨?beat, ?dead, ?request, ?age, ?fence, ?fenceEnds⟩
  case beat =>
    intro hnode hdue hcores beat
    exact next_when (by simp [hnode, hdue, hcores])
  case dead =>
    intro node h hheard hnode hdead hdue hpeer ours u v w
    exact next_when (by rw [decide_eq_true ⟨hheard, hnode⟩, hpeer, hdead, hdue]; rfl)
  case request =>
    intro id r hr
    exact ⟨execRequestRetry_dead hr, execRequestRetry_due hr, execRequestLost_due hr⟩
  case age =>
    intro job node tag k r ⟨a, ha, hfresh, hdue⟩
    exact next_when (List.any_eq_true.mpr ⟨(tag, a), ha, by simp [hfresh, hdue]⟩)
  case fence =>
    intro tile a
    exact execFence_opens
  case fenceEnds =>
    intro ctx x hfences hctx hdone
    exact ⟨execFenceComplete_free hfences hctx hdone, fun a => execFenceComplete_run hfences hctx hdone⟩

/-! Jobs (R383, R384, R400, R406, R407). -/

/-- The place of the job entry in a JOB_BIND names one of 64 entries. -/
theorem jobEntryOf_lt (x : Slot64) : mapBits x 511 506 < 64 := Nat.mod_lt _ (by decide)

section
variable {s : State} {f r : Nat} {d : Desc} {x : Slot64} (hadm : s.admits f r d x [1, 2])
include hadm

/-- A JOB_BIND by the owner of an active and unbound job binds the context, or is refused for its class. -/
theorem execJobBind_admitted (hop : isOp 0x0B x = true) {j : Nat} (hj : mapBits x 511 506 = j) (hactive : s.jobState j = 2)
    (howner : s.regN (Reg.jobOwner j) = d.func) (hfree : (s.job j).bound = 0) (hnone : s.jobOf d.context = none) :
    let u := s.takeDesc f r
    execJobBind f r s = .next (
      if s.regN (Reg.jobClass j) = d.klass ∧ s.regN (Reg.jobClass j) = s.ctxClassOf d.context
      then ((u.setJob j { s.job j with bound := d.context + 1, ring := u.recordRing d.func d.ring }).served d)
      else u.refuse d 3) := by
  intro u
  have hlt : ¬63 < j := by have := jobEntryOf_lt x; omega
  have hmay : ¬(63 < j ∨ u.jobState j ≠ 2 ∨ u.regN (Reg.jobOwner j) ≠ d.func ∨ (u.job j).bound ≠ 0 ∨ (u.jobOf d.context).isSome) := by
    have hnone' : u.jobOf d.context = none := hnone
    have hactive' : u.jobState j = 2 := hactive
    have howner' : u.regN (Reg.jobOwner j) = d.func := howner
    have hfree' : (u.job j).bound = 0 := hfree
    simp [hlt, hnone', hactive', howner', hfree']
  rw [execJobBind, admit_ok s f r d x _ _ _ hadm hop]
  simp only [hj]
  refine congrArg _ ((if_neg hmay).trans ?_)
  by_cases hclass : s.regN (Reg.jobClass j) = d.klass ∧ s.regN (Reg.jobClass j) = s.ctxClassOf d.context
  · rw [if_pos hclass]
    exact if_neg (by rw [not_or, not_not, not_not]; exact hclass)
  · rw [if_neg hclass]
    exact if_pos (by rw [← not_and_or]; exact hclass)

end

section
variable {s : State} {j : Nat} (hstate : s.jobState j = 4) (htear : (s.job j).tearAt ≠ 0) (hdue : s.passed ((s.job j).tearAt - 1) 10000000 = true)
include hstate htear hdue

theorem teardownComplete_guard : (s.jobState j == 4 && decide ((s.job j).tearAt ≠ 0) && s.passed ((s.job j).tearAt - 1) 10000000) = true := by
  simp [hstate, htear, hdue]

/-- The teardown of a job that no context is bound to frees its entry. -/
theorem execTeardownComplete_unbound (hbound : (s.job j).bound = 0) :
    execTeardownComplete j s = .next (((s.forgetQuiet j).setJob j {}).setReg (Reg.jobState j) 0) := by
  refine next_when_eq (teardownComplete_guard hstate htear hdue) ?_
  simp only [hbound, if_true, true_or]

/-- The teardown of a bound job ends its context: its mappings and objects go, its record is written, it is enabled no more. The ring of the record is the
one that bound it (log entry 20). -/
theorem execTeardownComplete_bound (hbound : (s.job j).bound ≠ 0) (hloud : (s.job j).quiet = false) :
    let x := s.job j
    let c := x.bound - 1
    let r : Record := { rtype := 4, ctx := c, doneLnc := s.lnc % 4294967296, body := s.regN (Reg.jobId j) * 2 ^ 116 + s.regN (Reg.jobFaultCause j) * 2 ^ 112 }
    let u := (((s.dropContextMaps c).endObjects c x.ring true).writeRecord (s.regN (Reg.jobOwner j)) x.ring r)
    let w := u.forgetQuiet (64 + c)
    let v := { w.setReg (Reg.ctxEnable (c / 16) (c % 16)) 0 with sync := { w.sync with halted := u.sync.halted.filter (fun h => h != c) } }
    execTeardownComplete j s = .next (((v.forgetQuiet j).setJob j {}).setReg (Reg.jobState j) 0) := by
  intro x c r u w v
  refine next_when_eq (teardownComplete_guard hstate htear hdue) ?_
  simp only [hbound, hloud, if_false, false_or, Bool.false_eq_true, Bool.not_false]
  rfl

end

/-- Settles O37: each event of a job under its own condition. That the record at a job's end goes to the ring of its JOB_BIND is the model's choice (log
entry 20). -/
theorem jobs : Obligations.Jobs := by
  intro s j x id
  refine ⟨?activate, ?bind, ?timeout, ?complete⟩
  case activate =>
    intro hstate happly hdue
    exact next_when (by simp only [hstate, beq_self_eq_true, Bool.true_and]; exact decide_eq_true ⟨happly, hdue⟩)
  case bind =>
    intro f r d b hadm hop hj hactive howner hfree hnone
    exact execJobBind_admitted hadm hop hj hactive howner hfree hnone
  case timeout =>
    intro hstate hfault hdue
    exact next_when (Bool.and_eq_true_iff.mpr ⟨Bool.and_eq_true_iff.mpr ⟨beq_iff_eq.mpr hstate, decide_eq_true hfault⟩, hdue⟩)
  case complete =>
    intro hstate htear hdue
    exact ⟨execTeardownComplete_unbound hstate htear hdue, execTeardownComplete_bound hstate htear hdue⟩

/-! Stalemates (R425 to R427). -/

section
variable {s : State} {part : Nat} (hquiet : s.quiescent part = true) (hsince : (s.quietOf part).since ≠ 0)
  (hdue : s.passed ((s.quietOf part).since - 1) (1000000 * s.regN Reg.stalemateWindow) = true) (hreported : (s.quietOf part).reported = false)
  (hdeclared : (s.quietOf part).declared = false)
include hquiet hsince hdue hreported hdeclared

theorem stalemateWindowExpiry_guard :
    (s.quiescent part && decide ((s.quietOf part).since ≠ 0) && s.passed ((s.quietOf part).since - 1) (1000000 * s.regN Reg.stalemateWindow)
      && !(s.quietOf part).reported && !(s.quietOf part).declared) = true := by
  simp [hquiet, hsince, hdue, hreported, hdeclared]

/-- A part of no job that is quiet for the window is declared. -/
theorem execStalemateWindowExpiry_own (hpart : 64 ≤ part) : execStalemateWindowExpiry part s = .next (s.declare part) :=
  next_when_eq (stalemateWindowExpiry_guard hquiet hsince hdue hreported hdeclared) (if_pos hpart)

/-- The part of a job reports to rank 0, which takes its own report at once. -/
theorem execStalemateWindowExpiry_job (hpart : part < 64) :
    let q := s.quietOf part
    let u := s.setQuiet part { q with reported := true }
    execStalemateWindowExpiry part s = .next (if u.rankOf part = 0 then u.staleReported part 0 q.sent q.received
      else u.staleSend part 0 0x1C [u.rankOf part, q.sent, q.received]) :=
  next_when_eq (stalemateWindowExpiry_guard hquiet hsince hdue hreported hdeclared) (if_neg (by omega))

end

/-- Settles O50: each message of the exchange under its own condition. The codes of CONFIRM and REJECT are the model's choice (log entry 94). -/
theorem stalemates : Obligations.Stalemates := by
  intro s part q
  refine ⟨fun hquiet hsince hdue hreported hdeclared => ⟨execStalemateWindowExpiry_own hquiet hsince hdue hreported hdeclared,
    execStalemateWindowExpiry_job hquiet hsince hdue hreported hdeclared⟩, fun hpart =>
    ⟨fun hactive => ⟨?query, fun hrank rank => ⟨?report, ?confirm, ?reject⟩⟩,
    ?timeout, next_when (decide_eq_true hpart), next_when (decide_eq_true hpart)⟩⟩
  case query => exact next_when (by simp [hactive, hpart])
  case report => exact fun sent received => next_when (by simp [hactive, hrank, hpart])
  case confirm =>
    intro hnear
    exact next_when (by simp only [hactive, hrank, beq_self_eq_true, Bool.true_and, decide_eq_true hpart]; rw [hnear]; rfl)
  case reject =>
    intro hqueried
    exact next_when (by simpa [hactive, hrank, hpart] using hqueried)
  case timeout =>
    intro hqueried hdue hdeclared
    exact next_when (by rw [decide_eq_true ⟨hpart, hqueried⟩, hdue, hdeclared]; rfl)

/-! The management port (R481 to R488, R570, R597). -/

section
variable {s : State} {h : HdpFrame} (hup : s.mgUp = true) (hformed : hdpFormed h = true)
include hup hformed

/-- A HELLO that is formed well is answered by the first of its outcomes that applies. -/
theorem execHello_formed {t : State} (hop : hdpOp h = 0x10) (hlength : (h.body.drop 40).length = 96)
    (ht : (if 8 ≤ s.dict.sessions.length + s.dict.handshakes.length then s.helloRefuse h Status.sessionLimit
      else match s.peerRoleOf ((h.body.drop 40).take 32) with
      | none => (s.helloRefuse h Status.authFailed).bump Reg.authFailures 1
      | some r =>
        let x : Handshake := { peerKey := (h.body.drop 40).take 32, role := r, keyIn := [], keyOut := [], transcript := [], source := h.source, seq := h.seq
                               startedAt := s.time.ticks, waits := some (((h.body.drop 40).drop 32).take 32, (h.body.drop 40).drop 64) }
        if s.sec.deriving' then s.setHandshake s.freeSession (some x)
        else s.helloRespond s.freeSession x (((h.body.drop 40).drop 32).take 32) ((h.body.drop 40).drop 64)) = t) :
    execHello h s = .next t := by
  refine next_when_eq hup (Eq.trans (if_pos ?_) ht)
  rw [hformed, hop, hlength]
  rfl

theorem execHello_full (hop : hdpOp h = 0x10) (hlength : (h.body.drop 40).length = 96) (hfull : 8 ≤ s.dict.sessions.length + s.dict.handshakes.length) :
    execHello h s = .next (s.helloRefuse h Status.sessionLimit) :=
  execHello_formed hup hformed hop hlength (if_pos hfull)

theorem execHello_unknown (hop : hdpOp h = 0x10) (hlength : (h.body.drop 40).length = 96) (hroom : s.dict.sessions.length + s.dict.handshakes.length < 8)
    (hrole : s.peerRoleOf ((h.body.drop 40).take 32) = none) :
    execHello h s = .next ((s.helloRefuse h Status.authFailed).bump Reg.authFailures 1) :=
  execHello_formed hup hformed hop hlength (by rw [if_neg (by omega), hrole])

/-- A HELLO of a known peer is answered, or held while the attestation key is derived (R570). -/
theorem execHello_known {r : Nat} (hop : hdpOp h = 0x10) (hlength : (h.body.drop 40).length = 96)
    (hroom : s.dict.sessions.length + s.dict.handshakes.length < 8) (hrole : s.peerRoleOf ((h.body.drop 40).take 32) = some r) :
    let data := h.body.drop 40
    let x : Handshake := { peerKey := data.take 32, role := r, keyIn := [], keyOut := [], transcript := [], source := h.source, seq := h.seq
                           startedAt := s.time.ticks, waits := some ((data.drop 32).take 32, data.drop 64) }
    execHello h s = .next (if s.sec.deriving' = true then s.setHandshake s.freeSession (some x)
      else s.helloRespond s.freeSession x ((data.drop 32).take 32) (data.drop 64)) :=
  execHello_formed hup hformed hop hlength (by rw [if_neg (by omega), hrole])

/-- A PROVE in time with the right tag opens a session where its signature holds, and ends the handshake where it does not. -/
theorem execProve_inTime {x : Handshake} {r : Nat} (hop : hdpOp h = 0x11) (hx : assoc s.dict.handshakes h.session = some x) (hwaits : x.waits = none)
    (htag : hdpTag x.keyIn h.body = h.tag) (htime : s.passed x.startedAt 1000000000 = false) (hrole : s.peerRoleOf x.peerKey = some r) :
    let y : Session := { peerKey := x.peerKey, role := r, keyIn := x.keyIn, keyOut := x.keyOut, source := h.source, lastFrame := s.time.ticks }
    let refusal := hdpHeader h Status.authFailed 0 0 false none
    execProve h s = .next (if Config.ed25519Verify x.peerKey (Config.sha512 x.transcript) (h.body.drop 40) = true
      then (((s.setHandshake h.session none).setSession h.session y).countSessions).hdpAnswer h y {}
      else (s.emit (.hdp h.source refusal [] (hdpTag x.keyOut refusal))).handshakeFails h.session) := by
  simp only [execProve, hx, hup, hformed, hop, hwaits, htag, htime, hrole, Bool.not_true, Bool.not_false, Bool.true_and, Bool.false_eq_true, Option.isSome_none,
    ne_eq, not_true_eq_false, or_self, if_false]

end

section
variable {s : State} {n : Nat}

theorem execProveTimeout_late {x : Handshake} (hx : assoc s.dict.handshakes n = some x) (hwaits : x.waits = none)
    (hlate : s.passed x.startedAt 1000000000 = true) : execProveTimeout n s = .next (s.handshakeFails n) := by
  simp only [execProveTimeout, hx, hwaits, hlate, Option.isNone_none, Bool.and_self, State.when_true]

theorem execSessionIdleTimeout_idle {x : Session} (hx : s.session n = some x) (hidle : s.passed x.lastFrame (s.regN Reg.sessionIdle * 1000000000) = true) :
    execSessionIdleTimeout n s = .next (s.closeSession n) := by
  simp only [execSessionIdleTimeout, hx, hidle, State.when_true]

theorem execSegmentTimeout_late {x : Stage} (hx : assoc s.dict.stages n = some x) (hlate : s.passed x.last 10000000000 = true) :
    execSegmentTimeout n s = .next (s.setStage n none) := by
  simp only [execSegmentTimeout, hx, hlate, State.when_true]

end

/-- With nothing that waits for it, the attestation key is derived and its identity shown. -/
theorem execAliasDerivationComplete_unawaited {s : State} (hruns : s.sec.deriving' = true) (hheld : s.sec.held = []) (hshakes : s.dict.handshakes = []) :
    execAliasDerivationComplete s =
      .next (({ s with sec := { s.sec with deriving' := false, aliasNow := s.aliasSeed, derivations := s.sec.derivations + 1, held := [] } }).setBlob
        Reg.aliasKeyId s.aliasId) := by
  refine next_when_eq hruns ?_
  rw [hheld, hshakes]
  rfl

/-- A subscription that is due sends its note once and keeps the value it sent (R488). -/
theorem execNotify_due {s : State} {holder index sub : Nat} {x : Subscription}
    (hx : (Table.get [] s.dict.subs holder).find? (fun x => x.index == index && x.sub == sub && s.noteDue holder x) = some x)
    (hreach : holder < 1024 ∨ s.mgUp = true) :
    let v := s.noteValue (holderAccess holder) index sub x.last
    execNotify holder index sub s = .next (((s.setSubs holder ((Table.get [] s.dict.subs holder).map (fun y =>
      if y = x then { x with sentAt := s.time.ticks, value := v } else y))).sendNote holder x v).fresh) := by
  simp only [execNotify, hx]
  exact next_when (by simpa using hreach)

theorem execClose_accepted {s : State} {h : HdpFrame} (haccepts : s.accepts (.hdp h) { op := 0x12 }) :
    execClose h s = .next (s.answers (.hdp h) { op := 0x12 } (s.closeSession h.session, {})) := by
  rw [← access_ok s (.hdp h) { op := 0x12 } true (fun s => (s.closeSession h.session, {})) haccepts]
  rfl

theorem execSubscribe_accepted {s : State} {acc : Accessor} (index sub last interval mode : Nat) :
    let c : Window := { op := 5, index := index, sub := sub, subLast := last, length := 8, buffer := bytesOf 8 (interval * 2 ^ 32 + mode % 4) }
    s.accepts acc c → execSubscribe acc index sub last interval mode s = .next (s.answers acc c (s.subscribe acc index sub last interval mode)) := by
  intro c haccepts
  rw [execSubscribe, access_ok s acc _ false _ haccepts]

/-- Settles O40: each frame and timeout by the state of its session or handshake. -/
theorem managementPort : Obligations.ManagementPort := by
  intro s
  refine ⟨fun hup => ⟨?echo, ?arp, fun h hformed => ⟨?hello, ?prove⟩⟩, ?linkUp, rfl, fun n x => execProveTimeout_late,
    fun h => execClose_accepted, fun n x => execSessionIdleTimeout_idle,
    fun n x => execSegmentTimeout_late, execAliasDerivationComplete_unawaited, fun acc => execSubscribe_accepted, fun holder index sub x => execNotify_due⟩
  case echo => exact fun payload hlength => next_when (by simp [hup, hlength])
  case arp => exact next_when (by simp [hup])
  case hello =>
    intro hop hlength
    exact ⟨execHello_full hup hformed hop hlength, execHello_unknown hup hformed hop hlength, fun r => execHello_known hup hformed hop hlength⟩
  case prove => exact fun x r => execProve_inTime hup hformed
  case linkUp => exact fun hdomain hmode => next_when (by simp [hdomain, hmode])

/-! The governor, the burst budget, the lowest state, the cap and the sensors (R499, R501, R505, R507 to R509, R512, R513, R515). -/

/-- A waiting time of 0 has not begun; any other is over once its time has passed. -/
theorem waited_of {s : State} {at' ns : Nat} (h : at' = 0 ∨ s.passed (at' - 1) ns = true) : (at' == 0 || s.passed (at' - 1) ns) = true := by
  rwa [Bool.or_eq_true, beq_iff_eq]

section
variable {s : State} {rail a1 a50 : Nat} (a100 : Nat)

/-- A limit that is crossed lowers the duty of the rail, and counts where a tile has a duty to lower. -/
theorem execGovernorReduce_crossed (hrail : rail < 20)
    (hcrossed : (railLimits rail).2 < a1 ∨ 95 * (railLimits rail).2 < 100 * a50 ∨ (railLimits rail).1 < a100)
    (hdue : Table.get 0 s.power.reducedAt rail = 0 ∨ s.passed (Table.get 0 s.power.reducedAt rail - 1) 1000 = true) :
    let u : State := { s.noteRail rail a1 a50 with power := { (s.noteRail rail a1 a50).power with
      reducedAt := Table.put 0 s.power.reducedAt rail (s.time.ticks + 1) } }
    execGovernorReduce rail a1 a50 a100 s =
      .next ((if s.railHigh rail = true then u.bump (Reg.railGovernorActs rail) 1 else u).lowerDuty rail).noteDuty := by
  refine next_when_eq (decide_eq_true hrail.le) ((if_pos ?_).trans ?_)
  · rw [if_pos hrail, decide_eq_true hcrossed, waited_of hdue]
    rfl
  · simp only [hrail, true_and]

/-- Below every limit only the rail's figures are noted. -/
theorem execGovernorReduce_below (hrail : rail < 20) (h1 : a1 ≤ (railLimits rail).2) (h50 : 100 * a50 ≤ 95 * (railLimits rail).2)
    (h100 : a100 ≤ (railLimits rail).1) : execGovernorReduce rail a1 a50 a100 s = .next (s.noteRail rail a1 a50) := by
  refine next_when_eq (decide_eq_true hrail.le) (if_neg ?_)
  rw [if_pos hrail, decide_eq_false (by omega)]
  exact Bool.false_ne_true

/-- The package limit lowers the duty of every rail's tiles; it has no figures of its own. -/
theorem execGovernorReduce_package (hcrossed : s.activeLimit < a1 ∨ s.activeLimit < a50)
    (hdue : Table.get 0 s.power.reducedAt 20 = 0 ∨ s.passed (Table.get 0 s.power.reducedAt 20 - 1) 1000 = true) :
    execGovernorReduce 20 a1 a50 a100 s =
      .next (({ s with power := { s.power with reducedAt := Table.put 0 s.power.reducedAt 20 (s.time.ticks + 1) } } : State).lowerDuty 20).noteDuty := by
  refine next_when_eq rfl ((if_pos ?_).trans rfl)
  rw [if_neg (lt_irrefl 20), decide_eq_true hcrossed, waited_of hdue]
  rfl

/-- Well below its limit a rail's duty is raised again. -/
theorem execGovernorRaise_low (hrail : rail < 20) (hlow : 100 * a50 < 85 * (railLimits rail).2)
    (hdue : Table.get 0 s.power.raisedAt rail = 0 ∨ s.passed (Table.get 0 s.power.raisedAt rail - 1) 10000 = true) :
    let u := s.setReg (Reg.railMax50us rail) (max (s.regN (Reg.railMax50us rail)) a50)
    execGovernorRaise rail a50 s =
      .next (({ u with power := { u.power with raisedAt := Table.put 0 s.power.raisedAt rail (s.time.ticks + 1) } }.raiseDuty rail).noteDuty) := by
  intro u
  refine next_when_eq ?_ ?_
  · rw [decide_eq_true hrail.le, if_pos hrail, decide_eq_true hlow, waited_of hdue]
    rfl
  · simp only [hrail, if_true, u]

end

section
variable {s : State} (hdue : s.power.steppedAt = 0 ∨ s.passed (s.power.steppedAt - 1) 1000000 = true)
include hdue

/-- Above the throttle temperature each millisecond cuts the clock further. -/
theorem execThermalThrottleStep_hot (hhot : 65536 * s.reg Reg.throttleTemp < s.reg Reg.tjMax) :
    let x : State := { s with power := { s.power with steppedAt := s.time.ticks + 1, cut := min 2400 (s.power.cut + 50), throttling := true } }
    execThermalThrottleStep s = .next (if s.power.throttling = true then x else x.bump Reg.thermalThrottles 1).noteDuty :=
  next_when_eq (waited_of hdue) (congrArg State.noteDuty (if_pos hhot))

/-- Below it by more than 3 degrees each millisecond gives some back. -/
theorem execThermalThrottleStep_cool (hcool : s.reg Reg.tjMax < 65536 * s.reg Reg.throttleTemp - 196608) :
    execThermalThrottleStep s = .next ({ s with power := { s.power with
      steppedAt := s.time.ticks + 1, cut := s.power.cut - 50, throttling := s.power.throttling && decide (50 < s.power.cut) } } : State).noteDuty :=
  next_when_eq (waited_of hdue) (congrArg State.noteDuty ((if_neg (by omega)).trans (if_pos hcool)))

/-- Between the two the cut stays. -/
theorem execThermalThrottleStep_between (hlow : 65536 * s.reg Reg.throttleTemp - 196608 ≤ s.reg Reg.tjMax)
    (hhigh : s.reg Reg.tjMax ≤ 65536 * s.reg Reg.throttleTemp) :
    execThermalThrottleStep s = .next ({ s with power := { s.power with steppedAt := s.time.ticks + 1 } } : State).noteDuty :=
  next_when_eq (waited_of hdue) (congrArg State.noteDuty ((if_neg (by omega)).trans (if_neg (by omega))))

end

/-- What an interval of the energy meter leaves, for the sum and the count of the millisecond that it is in: the last 50 samples, the bursts above the cap,
and the averages that are read (the sampling is log entry 13). -/
def State.energyNoted (u : State) (total sum count : Nat) : State :=
  let p := u.power
  let samples := (total :: p.samples).take 50
  let avg := samples.sum / samples.length
  let ended := trimRuns (p.intervals + 1 - 100000) p.bursts
  let runs := if u.regN Reg.powerCap < avg then addRun (p.intervals + 1) ended else ended
  let v := ({ u with power := { p with samples := samples, intervals := p.intervals + 1, bursts := runs, msSum := sum, msCount := count } }.setReg
    Reg.burstUsed (min 100000 (List.map (fun (e : Nat × Nat) => e.2) runs).sum : Nat)).noteAverage avg
  if u.regN Reg.vin = 0 then v else v.setReg Reg.iin (avg * 1000000 / u.regN Reg.vin : Nat)

section
variable {s : State} (total : Nat) (shares : List (Nat × Nat))

/-- An interval within the millisecond adds to its sum. -/
theorem execEnergyIntegrate_within (hcount : ((chargeShares s total shares).chargeEnergy 514 total).power.msCount ≠ 999) :
    let u := (chargeShares s total shares).chargeEnergy 514 total
    execEnergyIntegrate total shares s = .next (u.energyNoted total (u.power.msSum + total) (u.power.msCount + 1)) := by
  intro u
  simp only [execEnergyIntegrate, State.energyNoted, hcount, decide_false, Bool.false_eq_true, if_false, u]

/-- The last interval of the millisecond shows the power of the package and starts the sum again. -/
theorem execEnergyIntegrate_last (hcount : ((chargeShares s total shares).chargeEnergy 514 total).power.msCount = 999) :
    let u := (chargeShares s total shares).chargeEnergy 514 total
    execEnergyIntegrate total shares s = .next ((u.energyNoted total 0 0).setReg Reg.pkgPower ((u.power.msSum + total) / 1000 : Nat)) := by
  intro u
  simp only [execEnergyIntegrate, State.energyNoted, hcount, decide_true, if_true, u]

end

/-- Settles O44: each event under its own condition, the governor by what its limits say. That the meter averages 50 samples, and 1000 in a millisecond, is
the model's choice (log entry 13). -/
theorem powerLimits : Obligations.PowerLimits := by
  intro s reduced
  refine ⟨fun rail a1 a50 a100 hrail => ⟨?reduce, fun h1 h50 h100 => ?below, fun hlow hdue => ?raise⟩, fun a1 a50 a100 hcrossed hdue => ?package,
    ?disarm, ?arm, ?vrAssert, next_when, ?overLimit, ?hot, ?exit, ⟨?capSet, ?capUpdate, ?capClear⟩, ?sensors, fun hdue => ⟨?_, ?_, ?_⟩,
    fun total shares => ⟨execEnergyIntegrate_within total shares, execEnergyIntegrate_last total shares⟩⟩
  case reduce =>
    intro hcrossed hdue u acts
    have hhigh : s.railHigh rail = true ↔ acts := by
      simp only [State.railHigh, List.any_eq_true, decide_eq_true_eq, acts]
    have hreduce := execGovernorReduce_crossed a100 hrail hcrossed hdue
    exact ⟨fun hacts => by rw [exec, hreduce, if_pos (hhigh.mpr hacts)], fun hacts => by rw [exec, hreduce, if_neg (mt hhigh.mp hacts)]⟩
  case below => exact execGovernorReduce_below a100 hrail h1 h50 h100
  case raise => exact execGovernorRaise_low hrail hlow hdue
  case package => exact execGovernorReduce_package a100 hcrossed hdue
  case disarm => exact fun harmed hused => next_when (by rw [harmed, decide_eq_true hused]; rfl)
  case arm => exact fun hoff hused => next_when (by rw [hoff, hused]; rfl)
  case vrAssert => exact fun halert hoff => next_when (by rw [halert, hoff]; rfl)
  case overLimit => exact fun hlowest hheld => next_when (by rw [hlowest, hheld]; rfl)
  case hot => exact fun hsince hdue => next_when (by rw [State.held, decide_eq_true hsince, hdue]; rfl)
  case exit =>
    intro hlowest halert hclear hforce hcalm hcool
    exact next_when (by rw [hlowest, halert, waited_of hclear, hforce, hcalm, hcool]; rfl)
  case capSet => exact fun hlowest hcap hheld => next_when (by rw [hlowest, hcap, hheld]; rfl)
  case capUpdate => exact fun hcap => next_when (beq_iff_eq.mpr hcap)
  case capClear => exact fun hcap hheld => next_when (by rw [hcap, hheld]; rfl)
  case sensors =>
    intro readings hlength m since t
    exact next_when (beq_iff_eq.mpr hlength)
  · exact execThermalThrottleStep_hot hdue
  · exact execThermalThrottleStep_cool hdue
  · exact execThermalThrottleStep_between hdue

/-! Power domains, clocks, the input supply, resets and PERST_N (R455, R456, R491, R492, R494 to R496, R510, R511, R514, R545 to R557, R585). -/

section
variable {s : State} {b : Nat}

theorem domainTurnOn_guard (hmay : s.mayTurnOn b = true) (hfree : b < 8 ∨ s.clusterAsked = false)
    (hlast : s.power.lastOn = 0 ∨ s.passed (s.power.lastOn - 1) 5000 = true) :
    (s.mayTurnOn b && (decide (b < 8) || !s.clusterAsked) && (s.power.lastOn == 0 || s.passed (s.power.lastOn - 1) 5000)) = true := by
  rw [hmay, waited_of hlast, Bool.true_and, Bool.and_true, Bool.or_eq_true, decide_eq_true_eq, Bool.not_eq_true']
  exact hfree

/-- The tiles of a cluster that hold no task name none. -/
theorem clusterTasks_eq_nil (hidle : ∀ i < 64, (s.tile (64 * b + i)).task = 0) :
    (((List.range 64).map (fun i => 64 * b + i)).map (fun t => (s.tile t).task)).filter (fun n => n != 0) = [] := by
  refine List.filter_eq_nil_iff.mpr fun n hn => ?_
  simp only [List.map_map, List.mem_map, List.mem_range, Function.comp_apply] at hn
  obtain ⟨i, hi, rfl⟩ := hn
  simp [hidle i hi]

/-- A cluster whose PLL loses lock while its tiles hold no task stops its clock; tiles that are awake or in T1 sleep in T2. -/
theorem execPllLockLost_idle (hb : b < 8) (hon : s.pllOn b = true) (hidle : ∀ i < 64, (s.tile (64 * b + i)).task = 0) :
    let u := (((List.range 64).map (fun i => 64 * b + i)).filter (fun t => decide ((s.tile t).sleep ≤ 1))).foldl
      (fun s t => s.updTile t (fun x => { x with sleep := 2, asleepAt := s.time.ticks, wakeAt := 0 })) s
    execPllLockLost b s = .next ({ u with plls := Table.put 0 u.plls b (s.time.ticks + ticksOf 20000) }.setPll b false) := by
  refine next_when_eq (by rw [decide_eq_true hb, hon]; rfl) ?_
  rw [clusterTasks_eq_nil hidle]
  rfl

end

/-- Settles O45: each event of a domain or a clock under its own condition. -/
theorem domainsAndClocks : Obligations.DomainsAndClocks := by
  intro s b
  exact ⟨fun hmay hfree hlast => next_when (domainTurnOn_guard hmay hfree hlast),
    fun hb hon hmay => next_when (by rw [decide_eq_true hb, hon, hmay]; rfl),
    fun hlock => next_when (beq_iff_eq.mpr hlock),
    fun hlock hthere => next_when (by rw [bne_iff_ne.mpr hlock, hthere]; rfl),
    execPllLockLost_idle,
    fun hb hoff hdomain => next_when (by rw [decide_eq_true hb, hoff, hdomain]; rfl)⟩

section
variable {s : State} {mv : Nat}

/-- An input out of the range that the part stands turns everything off (R491). -/
theorem execInputFault_off (hpower : s.power.off = false) (hinput : s.power.inputOff = false) (hmv : mv < 38000 ∨ 62000 < mv) :
    execInputFault mv s = .next (((({ s with power := { s.power with inputOff := true } }.setReg Reg.vin mv).logError
      { klass := 3, unit := 18, code := 8, cluster := 8, detail := mv }).allOff).setAlert 3 true) :=
  next_when_eq (by rw [hpower, hinput, decide_eq_true (by omega)]; rfl) (if_pos hmv)

/-- An input near its limits is an alert. -/
theorem execInputFault_alert (hpower : s.power.off = false) (hinput : s.power.inputOff = false) (hlow : 38000 ≤ mv) (hhigh : mv ≤ 62000)
    (hmv : mv < 40000 ∨ 60000 < mv) : execInputFault mv s = .next ((s.setReg Reg.vin mv).setAlert 3 true) :=
  next_when_eq (by rw [hpower, hinput, decide_eq_true hmv]; rfl) (if_neg (by omega))

/-- An input that is good again restarts the device, unless the trip stands. -/
theorem execInputQualified_good (hpower : s.power.off = false) (hlow : 40000 ≤ mv) (hhigh : mv ≤ 60000) :
    let u := (s.setReg Reg.vin mv).setAlert 3 false
    execInputQualified mv s = .next (if s.power.inputOff = false then u
      else if s.power.trip = true then { u with power := { u.power with inputOff := false } } else u.chipReset 3) := by
  refine next_when_eq (by rw [hpower, decide_eq_true ⟨hlow, hhigh⟩]; rfl) ?_
  simp only [Bool.not_eq_true']

/-- POWER_LOSS keeps the persistent store, the persistent log, the firmware banks and the pin, and nothing that is switched. -/
theorem execPowerLoss_keeps (hpower : s.power.off = false) : Does .powerLoss s (fun t => t.power.off = true ∧ t.dict.store = s.dict.store ∧
    t.relia.plog = s.relia.plog ∧ t.sec.banks = s.sec.banks ∧ t.tiles = [] ∧ t.tasks = [] ∧ t.mem = {} ∧ t.boot.link = false ∧
    t.boot.perst = s.boot.perst ∧ t.pending = s.pending) :=
  ⟨_, next_when (by rw [hpower]; rfl), rfl, rfl, rfl, rfl, rfl, rfl, rfl, rfl, rfl, rfl⟩

end

/-- PCIE_LINK_UP waits for PX, for PERST_N, for the stages of start-up at which the link trains, and for its lead from P or C. -/
theorem pcieLinkUp_guard {s : State} {lead : Nat} (hlink : s.boot.link = false) (hperst : s.boot.perst = false) (hdomain : s.domain 36 = true)
    (hlow : 2 ≤ s.reg Reg.startupStage) (hhigh : s.reg Reg.startupStage ≤ 3) (hlead : s.passed s.boot.from' lead = true) :
    (!s.boot.link && !s.boot.perst && s.domain 36 && decide (2 ≤ s.reg Reg.startupStage ∧ s.reg Reg.startupStage ≤ 3)
      && s.passed s.boot.from' lead) = true := by
  rw [hlink, hperst, hdomain, decide_eq_true ⟨hlow, hhigh⟩, hlead]
  rfl

/-- Settles O47: each event under its own condition. What stands behind the reset's clauses where the spec is silent is the model's choice (log entry 68). -/
theorem resetsAndSupply : Obligations.ResetsAndSupply := by
  intro s
  exact ⟨fun mv hpower hinput => ⟨execInputFault_off hpower hinput, execInputFault_alert hpower hinput⟩, fun mv => execInputQualified_good, execPowerLoss_keeps,
    fun mv hoff hlow hhigh => next_when (by rw [hoff, decide_eq_true ⟨hlow, hhigh⟩]; rfl),
    fun hpower htrip => next_when (by rw [hpower, htrip]; rfl),
    next_when, fun hasked hinstant => next_when (decide_eq_true ⟨hasked, hinstant⟩), next_when,
    fun hhigh => next_when (by rw [hhigh]; rfl),
    fun hlink hperst hdomain hlow hhigh hlead => next_when (pcieLinkUp_guard hlink hperst hdomain hlow hhigh hlead)⟩

/-! SPDM (R569 to R573; codes and layouts: log entry 60). -/

section
variable (s : State) (c : SpdmChannel) (b : List Byte)

theorem State.spdmRequest_version :
    s.spdmRequest c 0x84 b = (s.setSpdm c { s.spdmOf c with phase := 1 }).spdmSend c 0x04 [0, 1, 0, 0x13] := rfl

theorem State.spdmRequest_capabilities : s.spdmRequest c 0xE1 b =
    if (s.spdmOf c).phase = 1 then ((s.setSpdm c { s.spdmOf c with phase := 2 }).spdmSend c 0x61 (Config.freeBytes s.free 16)).fresh else s.spdmError c 4 :=
  ite_not ..

theorem State.spdmRequest_algorithms : s.spdmRequest c 0xE3 b =
    if (s.spdmOf c).phase = 2 then ((s.setSpdm c { s.spdmOf c with phase := 3 }).spdmSend c 0x63 (Config.freeBytes s.free 48)).fresh else s.spdmError c 4 :=
  ite_not ..

/-- Where the algorithms are agreed, digests are answered at once, even while the attestation key is derived. -/
theorem State.spdmRequest_digests (hphase : (s.spdmOf c).phase = 3) : s.spdmRequest c 0x81 b = s.spdmAnswer c 0x81 b := by
  refine (if_neg (not_not.mpr hphase)).trans (if_neg ?_)
  rw [show spdmCarries 0x81 = false from rfl, Bool.and_false]
  exact Bool.false_ne_true

/-- A request that carries a signature or the chain is answered where the algorithms are agreed and the attestation key stands. -/
theorem State.spdmRequest_derived {code : Nat} (hcode : code ∈ [0x82, 0x83, 0xE0, 0xE4]) (hphase : (s.spdmOf c).phase = 3) (hkey : s.sec.deriving' = false) :
    s.spdmRequest c code b = s.spdmAnswer c code b := by
  have hdeferred : ¬(s.sec.deriving' && spdmCarries code) = true := by rw [hkey]; exact Bool.false_ne_true
  simp only [List.mem_cons, List.not_mem_nil, or_false] at hcode
  obtain rfl | rfl | rfl | rfl := hcode
  all_goals exact (if_neg (not_not.mpr hphase)).trans (if_neg hdeferred)

/-- While the attestation key is derived, a challenge is held. -/
theorem State.spdmRequest_held (hphase : (s.spdmOf c).phase = 3) (hkey : s.sec.deriving' = true) :
    s.spdmRequest c 0x83 b = { s with sec := { s.sec with held := s.sec.held ++ [(c, 0x83, b)] } } :=
  (if_neg (not_not.mpr hphase)).trans (if_pos (by rw [hkey]; rfl))

theorem State.spdmAnswer_certificate (hslot : (b.getD 0 0).toNat % 16 = 0) :
    let offset := natOf ((b.drop 2).take 2)
    let part := (s.certChain.drop offset).take (natOf ((b.drop 4).take 2))
    s.spdmAnswer c 0x82 b = if s.certChain.length ≤ offset then s.spdmError c 1
      else s.spdmSend c 0x02 (0 :: 0 :: (bytesOf 2 part.length ++ bytesOf 2 (s.certChain.length - offset - part.length) ++ part)) :=
  if_congr (by rw [hslot]; simp only [ne_eq, not_true_eq_false, false_or]) rfl rfl

theorem State.spdmAnswer_measurements {m : List Byte} (hm : s.measurements (s.spdmFunction c) (b.getD 1 0).toNat = some m) :
    let r := m ++ Config.freeBytes s.free 32
    s.spdmAnswer c 0xE0 b = (s.spdmSend c 0x60 (if (b.getD 0 0).toNat % 2 = 1 then r ++ s.aliasSign (b ++ r) else m)).fresh := by
  simp only [State.spdmAnswer, hm]

/-- FINISH opens the session of a key exchange where it holds, and ends it where not. -/
theorem State.spdmRequest_finish (hsession : (s.spdmOf c).session = 1) : s.spdmRequest c 0xE5 b =
    if Config.spdmFinishOk s.free b = true then ((s.setSpdm c { s.spdmOf c with session := 2 }).spdmSend c 0x65 []).fresh
    else ((s.setSpdm c { s.spdmOf c with session := 0 }).spdmError c 6).fresh :=
  if_neg (not_not.mpr hsession)

section
variable (hsession : (s.spdmOf c).session = 2)
include hsession

theorem State.spdmRequest_keyUpdate : s.spdmRequest c 0xE9 b = s.spdmSend c 0x69 (b.take 2) := if_neg (not_not.mpr hsession)

theorem State.spdmRequest_heartbeat : s.spdmRequest c 0xE8 b = s.spdmSend c 0x68 [] := if_neg (not_not.mpr hsession)

theorem State.spdmRequest_endSession : s.spdmRequest c 0xEC b = (s.setSpdm c { s.spdmOf c with session := 0 }).spdmSend c 0x6C [] :=
  if_neg (not_not.mpr hsession)

end

/-- A code of no request is UnsupportedRequest. -/
theorem execSpdmUnsupportedRequest_unlisted {code : Nat} (hopen : s.channelOpen c = true) (hcode : code ∉ spdmCodes) :
    execSpdmUnsupportedRequest c code b s = .next (s.spdmError c 7) := by
  have hlisted : spdmCodes.contains code = false := by rw [Bool.eq_false_iff, ne_eq, List.contains_iff_mem]; exact hcode
  refine (if_neg (by rw [hlisted]; exact Bool.false_ne_true)).trans (next_when_eq hopen (if_pos ?_))
  rw [hlisted]
  rfl

end

/-- Settles O48: on a channel that stands each row is `spdmRequest` of its code, which answers by the phase and the session. -/
theorem attestation : Obligations.Attestation := by
  intro s ch hopen x
  have row : ∀ {i : Instr} {code : Nat} {body : List Byte} {t : State}, exec i s = s.spdmRow ch code body →
      s.spdmRequest ch code body = t → exec i s = .next t :=
    fun hi ht => hi.trans (next_when_eq hopen ht)
  refine ⟨fun body => row rfl (s.spdmRequest_version ch body), fun body => row rfl (s.spdmRequest_capabilities ch body),
    fun body => row rfl (s.spdmRequest_algorithms ch body), fun hphase => ⟨fun body => row rfl (s.spdmRequest_digests ch body hphase),
      fun hkey => ⟨?certificate, ?challenge, ?measurements, ?keyExchange⟩, fun hkey body => row rfl (s.spdmRequest_held ch body hphase hkey)⟩,
    fun hsession body => row rfl (s.spdmRequest_finish ch body hsession), fun hsession body => ⟨row rfl (s.spdmRequest_keyUpdate ch body hsession),
      row rfl (s.spdmRequest_heartbeat ch body hsession), row rfl (s.spdmRequest_endSession ch body hsession)⟩,
    fun code body => execSpdmUnsupportedRequest_unlisted s ch body hopen⟩
  case certificate =>
    intro body hslot offset part
    exact row rfl ((s.spdmRequest_derived ch body (by decide) hphase hkey).trans (s.spdmAnswer_certificate ch body hslot))
  case challenge =>
    intro body b
    exact row rfl (s.spdmRequest_derived ch body (by decide) hphase hkey)
  case measurements =>
    intro body m hm b
    exact row rfl ((s.spdmRequest_derived ch body (by decide) hphase hkey).trans (s.spdmAnswer_measurements ch body hm))
  case keyExchange =>
    intro body b
    exact row rfl (s.spdmRequest_derived ch body (by decide) hphase hkey)

end Sys2Proof.Machine
